-- ==== Sys2Proof/Word.lean ====
section
/-!
DEFINITION. Word.lean: the word types of the FX-9420 and the sorted table type that its register groups,
queues by number and memories are kept in.
-/
namespace Sys2Proof

/-- One byte. -/
abbrev Byte := BitVec 8
/-- A 16-bit status code in the form of R107: origin in bits [15:8], number in bits [7:0]. -/
abbrev Code := BitVec 16
abbrev W32 := BitVec 32
abbrev W48 := BitVec 48
abbrev W64 := BitVec 64

/-- A sparse table by number: pairs (number, value), numbers strictly rising. What an unlisted
number reads as is given where the table is read. -/
abbrev Tab (α : Type) := List (Nat × α)

end Sys2Proof
end

