-- ==== Sys2Proof/Machine/Bits.lean ====
section
/-!
DEFINITION. Machine/Bits.lean: fields of numbers and of byte records. Byte 0 is the low byte (R7), bit 0 the
least significant bit (R6).
-/
namespace Sys2Proof.Machine

/-- Field [hi:lo] of a number (R6). -/
def bits (v hi lo : Nat) : Nat := v / 2 ^ lo % 2 ^ (hi + 1 - lo)

/-- Bit `i` of a number. -/
def bit (v i : Nat) : Bool := v.testBit i

/-- `n` little-endian bytes of a number (R7). -/
def le : Nat → Nat → List Byte
  | 0, _ => []
  | n + 1, v => BitVec.ofNat 8 v :: le n (v / 256)

/-- The number of a little-endian byte string (R7). -/
def unle : List Byte → Nat
  | [] => 0
  | x :: xs => x.toNat + 256 * unle xs

/-- `n` bytes from offset `off` of a record, read as a number; bytes past its end read zero. -/
def fieldAt (r : List Byte) (off n : Nat) : Nat := unle ((r.drop off).take n)

/-- Write `bs` into a record at `off`; bytes past the record's end are dropped. -/
def putBytes (r : List Byte) (off : Nat) (bs : List Byte) : List Byte :=
  (r.take off ++ bs.take (r.length - off)) ++ r.drop (off + bs.length)

/-- Write an `n`-byte number into a record at `off`. -/
def putField (r : List Byte) (off n v : Nat) : List Byte := putBytes r off (le n v)

/-- Exactly `n` bytes: what a transfer of `n` bytes delivers, the rest of a longer string dropped and a shorter one filled. -/
def fitBytes (n : Nat) (bs : List Byte) : List Byte := (bs ++ List.replicate (n - bs.length) 0).take n

/-- Every byte of the list is zero. -/
def allZero (r : List Byte) : Bool := r.all (· == 0#8)

/-- Bytes [off, off + n) of a record are zero (an RSVD range, R8). -/
def zeroAt (r : List Byte) (off n : Nat) : Bool := allZero ((r.drop off).take n)

/-- Round up to a multiple of `m`. -/
def roundUp (v m : Nat) : Nat := (v + m - 1) / m * m

/-- Quotient rounded up. -/
def ceilDiv (a b : Nat) : Nat := (a + b - 1) / b

/-- A 32-bit count plus `n`, saturating at 0xFFFF_FFFF. -/
def sat32 (c : W32) (n : Nat) : W32 := BitVec.ofNat 32 (min (c.toNat + n) 0xFFFFFFFF)

/-- Replace bits [hi:lo] of `v` by those of `w` (a partial register write). -/
def mergeBits (v w : W64) (hi lo : Nat) : W64 :=
  let m : W64 := BitVec.ofNat 64 ((2 ^ (hi + 1 - lo) - 1) * 2 ^ lo)
  (v &&& ~~~m) ||| (w &&& m)

end Sys2Proof.Machine
end

