-- ==== Sys2Proof/Syntax.lean ====
section
/-!
DEFINITION. Syntax.lean: the commands of the FX-9420, one constructor for each row of spec/opcode_table.json, and the
operand types they carry. What a command reads from outside the module (host memory behind a read, the outcome of a
training or a verification, the output of a neural model, the words of a link) is an operand: a free input.
-/
namespace Sys2Proof

/-- A fenceable or testable unit: kind and index of R618. -/
structure UnitId where
  kind : Nat
  index : Nat
deriving DecidableEq, Repr

/-- Why main conversion stops (R42). -/
inductive StopCause
  /-- J1 stayed below 44.0 V for 100 µs: the always-on domain stops as well. -/
  | inputLow
  /-- MATE_N went high. -/
  | mateHigh
deriving DecidableEq, Repr

/-- What a read of host memory returns: the bytes, or UR, CA or poison (R100). -/
inductive HostRead
  | ok (bytes : List Byte)
  | fault
deriving DecidableEq, Repr

/-- Who gives an order (R111), in rank order of R114. -/
inductive Issuer
  | ostler
  | lead
  | pf0
  | tenant (t : Nat)
deriving DecidableEq, Repr

/-- An order as presented at the order port (R101): issuer, TAG, TARGET_KIND, TARGET_ID and the 96 operand bytes of
offsets 0x20 to 0x7F. -/
structure OrderIn where
  issuer : Issuer
  tag : W64
  kind : Nat
  target : Nat
  ops : List Byte
deriving DecidableEq, Repr

/-- A team member's report at TEAM_JOIN (R70, R551, R558): position, module number, measured one-way latency. -/
structure MemberReport where
  pos : Nat
  module : Nat
  latency : Nat
deriving DecidableEq, Repr

/-- Host reads of one stage list entry: the record and the sketch (R277). -/
structure StageData where
  record : HostRead
  sketch : HostRead
deriving DecidableEq, Repr

/-- What the generator computes for one position: key and value bytes (R406) and, group by group, the 256 dot
products of R407. -/
structure KvToken where
  kv : List Byte
  dots : List (List W32)
deriving DecidableEq, Repr

/-- Model outputs of one DECODE round (R414): logits after each draft position, keys and values and logits of the
positions p to p + m, the draft model's own keys and values, and those of a closing pass (R417). -/
structure RoundData where
  draftLogits : List (List W32)
  draftKv : List KvToken
  kv : List KvToken
  logits : List (List W32)
  closeKv : KvToken
  closeLogits : List W32
  /-- Query sketches of t0, group by group (R422). -/
  queries : List (List Bool)
deriving DecidableEq, Repr

/-- A slot of a coach bundle (R189): coach, predicate PS and PN, and whether another slot of the same bundle follows. -/
structure Slot where
  coach : Nat
  ps : Nat
  pn : Bool
  more : Bool
deriving DecidableEq, Repr

/-- The declared fields of an encoder (R285). -/
structure EncoderDecl where
  dim : Nat
  fmt : Nat
  sketch : Nat
  cclk : Nat
deriving DecidableEq, Repr

/-- The declared fields of a cross-encoder (R344). -/
structure CrossDecl where
  dim : Nat
  fmt : Nat
  passTokens : Nat
  cclk : Nat
deriving DecidableEq, Repr

/-- The declared fields of a generator (R404); `topk` holds K_S and the temperature, none for GREEDY. -/
structure GeneratorDecl where
  layers : Nat
  kvHeads : Nat
  headDim : Nat
  kvFmt : Nat
  groups : Nat
  vocabObj : Nat
  endToken : Nat
  topk : Option (Nat × W32)
  nextBytes : Nat
  sliced : Bool
  dcFix : Nat
  dcTok : Nat
  dcBlk : Nat
  dcSketch : Nat
  pcFix : Nat
  pcTok : Nat
  pcBlk : Nat
deriving DecidableEq, Repr

/-- The declaration block of a model object (R477): what it declares, and its kernel images by KERNEL_ID and
offset in the object. The spec gives the block no byte layout, so it comes beside the bytes. -/
structure ModelDecl where
  encoder : Option EncoderDecl
  cross : Option CrossDecl
  generator : Option GeneratorDecl
  /-- An adapter's generator object (R427). -/
  adapterFor : Option Nat
  kernels : List (Nat × Nat)
deriving DecidableEq, Repr

/-- Which path gives a slot command (R500): PF0's registers, or a kernel of a coachman's tile task. -/
inductive SlotSource
  | cmdPath
  | kernel
deriving DecidableEq, Repr

/-- How one slot read of a read turn ends (R507). -/
inductive ReadResult
  | good
  /-- The hard decode failed; the slot is read again with soft sensing. -/
  | retry
  /-- Soft sensing failed too; the stripe rebuilds it. -/
  | rebuilt
  /-- Two members of the stripe are lost. -/
  | lost
deriving DecidableEq, Repr

/-- What a die's program turn does (R505, R509, R510). -/
inductive ProgramWork
  /-- Program the next buffered slots of the given part to a page. -/
  | program (part block page : Nat) (ok : Bool)
  | erase (block : Nat) (ok : Bool)
  /-- Copy the held slots of a victim block to a page of an open block. -/
  | collect (block toBlock toPage : Nat) (ok : Bool)
  /-- The copy after a fenced die or channel ends (R508). -/
  | rebuildDone
deriving DecidableEq, Repr

/-- A team port word (R547 to R549): the fields of its header, its payload, and those of its trailer. -/
structure LinkWord where
  type : Nat
  relay : Bool
  src : Nat
  dst : Nat
  seq : Nat
  id : Nat
  offset : Nat
  payload : List Byte
  ackSeq : Nat
  ack : Nat
  credit : Nat
  cycle : Nat
  crc : BitVec 32
deriving DecidableEq, Repr

/-- The parts of a TRAIN word (R546, R551, R555, R556, R558). -/
structure TrainInfo where
  pos : Nat
  port : Nat
  module : Nat
  refHops : Nat
  latency : Nat
  /-- At lockstep: the lead's team latency L and expected positions. -/
  lockstep : Option (Nat × Nat)
deriving DecidableEq, Repr

/-- Work asked of another module (R298, R299, R450); payload layouts belong to the firmware image (R567), so the
message carries the operands themselves. -/
inductive WorkBody
  /-- Search one shard: partitions, query vector with header and sketch, filter, k, hops and prefetch (WALK). -/
  | scan (shard : Nat) (parts : List Nat) (vector : List Byte) (mask : W64) (any : Bool) (k : Nat) (reference : Bool)
  | walk (shard : Nat) (seeds : List Nat) (vector : List Byte) (mask : W64) (any : Bool) (width hops prefetch : Nat)
  | probe (shard : Nat) (vector : List Byte)
  /-- Access to a shard and the tails of passages (R340 stages 1 and 2); with the query's VECTOR list where they are scored (R342),
  else empty. -/
  | tails (shard : Nat) (ids : List Nat) (vector : List Byte)
  /-- Records of passages that a preparation keeps (R340 stage 4). -/
  | records (shard : Nat) (ids : List Nat)
  | lookup (table : Nat) (rows : List Nat)
  | update (table : Nat) (rows : List Nat) (deltas : List (List W32))
  /-- The request's pin is dropped (R300). -/
  | drop (shard : Nat)
deriving DecidableEq, Repr

/-- The shard that work is on; none: table work. -/
def WorkBody.shard : WorkBody → Option Nat
  | .scan s _ _ _ _ _ _ => some s
  | .walk s _ _ _ _ _ _ _ => some s
  | .probe s _ => some s
  | .tails s _ _ => some s
  | .records s _ => some s
  | .drop s => some s
  | .lookup _ _ => none
  | .update _ _ _ => none

/-- A WORK message: home module, firmware SVN, context, coachman, tenant number or DTID, step entry and body. -/
structure WorkMsg where
  module : Nat
  version : W32
  ctx : Nat
  /-- The coachman that owns the context (R299). -/
  coachman : Nat
  tenant : Nat
  dtid : W32
  setIdx : Nat
  /-- Epoch pinned at the owning module, if the request pinned it before (R281). -/
  pin : Option Nat
  body : WorkBody
deriving DecidableEq, Repr

/-- A RESULT message: context, step entry, code, pinned epoch, entries, records and rows returned. -/
structure ResultMsg where
  module : Nat
  ctx : Nat
  setIdx : Nat
  code : Code
  epoch : Nat
  ids : List Nat
  scores : List W32
  deaths : List Bool
  /-- BIRTH and DEATH of each entry, where its tail was asked for (R340, R358). -/
  tails : List (Nat × Nat)
  records : List (Nat × List Byte)
  rows : List (List W32)
  /-- It answers forwarded table work (R450), not work on a shard. -/
  gather : Bool
deriving DecidableEq, Repr

/-- What a context's swapping has come to, for the slices of other members (R173, R174): its image is written; the swap-out is
abandoned; a swap-in begins; it is complete; its image was lost. -/
inductive SwapStep
  | written | kept | start | back | lost
deriving DecidableEq, Repr

/-- What a team commit decides (R559): an order forwarded to the lead, or a context decision of a home module. -/
inductive CommitBody
  | order (code : Nat) (o : OrderIn)
  | swapOut (ctx : Nat) (drop : Bool)
  | swapStep (ctx : Nat) (step : SwapStep)
  | blocks (ctx tenant gen kvLen : Nat)
deriving DecidableEq, Repr

/-- A COMMIT flit of kind PREPARE (R559). -/
structure CommitMsg where
  id : Nat
  coordinator : Nat
  applyCycle : Nat
  body : CommitBody
deriving DecidableEq, Repr

/-- A received domain frame (R573, R575). -/
structure DomFrame where
  tagged : Bool
  etype : Nat
  fcsOk : Bool
  /-- Destination address of the Ethernet header, its first byte the highest. -/
  dest : Nat
  kind : Nat
  ver : Nat
  count : Nat
  /-- The RSVD bits of the domain header: of bytes 0x02 and 0x03, and above SRC_MODULE, DST_MODULE and OFFSET. -/
  rsvd02 : Nat
  rsvd04 : Nat
  rsvd08 : Nat
  rsvd18 : Nat
  src : Nat
  dst : Nat
  psn : W32
  ackPsn : W32
  msgId : W32
  offset : Nat
  dtid : W32
deriving DecidableEq, Repr

/-- An entry of the shard directory (R578). -/
structure DirEntry where
  module : Nat
  shard : Nat
  state : Nat
  epoch : Nat
  owner : W32
  readers : List W32
deriving DecidableEq, Repr

/-- A debug response (R605): challenge number, level asked, whether the signature verifies and the challenge names
this module's identity. -/
structure DebugResp where
  nonce : Nat
  level : Nat
  sigOk : Bool
  moduleOk : Bool
deriving DecidableEq, Repr

/-- What an image transfer delivered (R645, R646). -/
inductive ImageData
  | error
  | image (sigOk : Bool) (svn : W32) (len : Nat) (testImage : Bool)
deriving DecidableEq, Repr

/-- A write of a register that has no row of its own (R11, R83): hub register region offset, or a doorbell page (then
`page` names it); a 32-bit access reaches one half. -/
structure RegWrite where
  page : Option Nat
  offset : Nat
  size : Nat
  value : W64
deriving DecidableEq, Repr

/-- The commands: the rows of spec/opcode_table.json that carry operands, in its order, then those that carry none. Each
docstring gives the row's mnemonic, rule and summary. -/
inductive Instr
  /-- AO_POWER_ON (R61): J1 rises above 46.5 V and the always-on domain starts, losing all volatile state. -/
  | aoPowerOn (straps : BitVec 6)
  /-- MAIN_POWER_ON (R42): Main conversion starts once J1 is above the turn-on threshold and MATE_N is low. -/
  | mainPowerOn (pufOk : Bool)
  /-- MAIN_CONVERSION_STOP (R42): J1 stays below 44.0 V for 100 us or MATE_N goes high, and main conversion stops. -/
  | mainConversionStop (cause : StopCause)
  /-- TRAIN (R67): HBM and DDR training completes, in full or verified from saved values. -/
  | train (failed : List UnitId)
  /-- BRINGUP_SELFTEST (R69): Built-in self-test of coach storage and arrays completes and failing units are fenced. -/
  | bringupSelftest (failed : List UnitId)
  /-- MAP_LOAD (R67): The strongbox map is read from its checkpoint or checked in place. -/
  | mapLoad (checkpointOk journalOk : Bool)
  /-- TEAM_JOIN (R70): Team bring-up runs: members re-reference to the lead, report lock and train their ports. -/
  | teamJoin (reports : List MemberReport)
  /-- REF_RETURN (R59): A valid reference returns or is selected and the PLL slews to it without reset. -/
  | refReturn (src : Nat)
  /-- FLR (R116): A function-level reset of a virtual function stops its tenants' rings and releases their objects and contexts. -/
  | flr (vf : Nat)
  /-- HUB_TDB_CTRL (R92): A write of the ring control register enables or disables the rings of a doorbell page. -/
  | tdbCtrl (page : Nat) (value : BitVec 64)
  /-- HUB_TDB_REQ_PI (R94): The host writes the request producer index, which is checked against the consumer index. -/
  | tdbReqPi (page : Nat) (value : BitVec 64)
  /-- HUB_TDB_RPL_CI (R94): The host writes the reply consumer index, which is checked against the producer index. -/
  | tdbRplCi (page : Nat) (value : BitVec 64)
  /-- HUB_TDB_ATTN_ACK (R110): A write clears the set attention bits in the page's own summary. -/
  | tdbAttnAck (page : Nat) (value : BitVec 64)
  /-- HUB_TDB_ERR (R91): A W1C write clears ring error bits. -/
  | tdbErr (page : Nat) (value : BitVec 64)
  /-- REQUEST_RECORD (R103): A fetched request record arrives and is checked and sent to its coachman or the order port. -/
  | requestRecord (page : Nat) (data : HostRead)
  /-- REPLY_SLOT_TAKEN (R98): A reply waiting for a free reply ring slot takes it and is written. -/
  | replySlotTaken (page : Nat)
  /-- WARM_RESET (R61): The WARM_RESET order resets the module keeping DDR in self-refresh and the strongbox map. -/
  | warmReset (o : OrderIn)
  /-- UPDATE_ACTIVATE (R647): The order swaps image roles and takes a fundamental reset onto the staged firmware. -/
  | updateActivate (o : OrderIn)
  /-- TENANT_SET (R586): The order enables a tenant with its context range, DTID, keys and zero quotas. -/
  | tenantSet (o : OrderIn)
  /-- TENANT_DISABLE (R587): The order makes a tenant CLOSING and tears down its requests, contexts, objects and keys. -/
  | tenantDisable (o : OrderIn)
  /-- QUOTA_SET (R489): The order sets a tenant's tier quotas, QUOTA_NEAR threshold and placement hints. -/
  | quotaSet (o : OrderIn)
  /-- CH_REFILL (R514): The order adds to or sets a tenant's coach house write budget. -/
  | chRefill (o : OrderIn)
  /-- ROUTE_LOAD (R121): The order checks and loads, or unloads, a route, creating a new route version. -/
  | routeLoad (o : OrderIn) (image : HostRead)
  /-- ADAPTER_SET (R427): The order binds or unbinds an adapter to a generator, creating a new configuration version. -/
  | adapterSet (o : OrderIn)
  /-- CONTEXT_ALLOC (R148): The order allocates a FREE context of the tenant and sets RG8-RG15. -/
  | contextAlloc (o : OrderIn)
  /-- CONTEXT_FREE (R149): The order sets FREEING and starts teardown of a context. -/
  | contextFree (o : OrderIn)
  /-- TEARDOWN_COMPLETE (R149): Context teardown finishes, the entry is zeroed, STATE becomes FREE and the ORDER reply is written. -/
  | teardownComplete (ctx : Nat)
  /-- SHARD_PUBLISH_CREATE (R276): SHARD_PUBLISH CREATE checks a FREE shard's operands and directory and makes it LIVE at epoch 0. -/
  | shardCreate (o : OrderIn)
  /-- SHARD_PUBLISH_STAGE (R279): SHARD_PUBLISH STAGE validates a stage list and applies its inserts and deletes. -/
  | shardStage (o : OrderIn) (list : HostRead) (data : List StageData)
  /-- SHARD_PUBLISH_SHARE (R276): SHARD_PUBLISH SHARE replaces the shard's reader list. -/
  | shardShare (o : OrderIn)
  /-- SHARD_PUBLISH_DROP (R276): SHARD_PUBLISH DROP makes a LIVE shard CLOSING. -/
  | shardDrop (o : OrderIn)
  /-- SHARD_DROP_COMPLETE (R284): When no request holds a CLOSING shard, its slots return to quota and it becomes FREE. -/
  | shardDropComplete (shard : Nat)
  /-- FENCE (R619): The order fences a unit, soft or hard, and moves its work elsewhere. -/
  | fence (o : OrderIn)
  /-- UNFENCE (R621): The order runs a fenced unit's self-test and returns it to service if it passes. -/
  | unfence (o : OrderIn)
  /-- SELFTEST (R657): The order runs the self-test of a unit, withdrawing a live coach first. -/
  | selftest (o : OrderIn)
  /-- SELFTEST_COMPLETE (R659): A self-test ends and its ORDER reply is written with OK or TEST_FAIL. -/
  | selftestComplete (unit : UnitId) (pass : Bool)
  /-- LOCATE (R644): The order starts or stops the 1 Hz locate pattern of the attention LED. -/
  | locate (o : OrderIn)
  /-- ROUTE_ADMISSION (R153): The turnpike tests a ROUTE request and admits, queues or refuses it. -/
  | routeAdmission (ctx : Nat)
  /-- QUEUE_RETEST (R160): The coachman tests its queued requests again after an event or every 4,096 CCLK. -/
  | queueRetest (cm : Nat)
  /-- QUEUE_TIMEOUT (R161): A queued request waiting longer than TP_QUEUE_LIMIT is refused with QUEUE_TIMEOUT. -/
  | queueTimeout (ctx : Nat)
  /-- BUDGET_SPENT (R152): The request's cycle count reaches its budget and the request ends with BUDGET_SPENT. -/
  | budgetSpent (ctx : Nat)
  /-- SEGMENT (R370): Route instruction SEGMENT segments request input into a TOKENS list. -/
  | segment (ctx : Nat) (input : HostRead)
  /-- EMBED (R285): Route instruction EMBED runs the encoder model and writes a VECTOR list. -/
  | embed (ctx : Nat) (vector sketch : List (BitVec 8))
  /-- GATHER (R442): Route instruction GATHER looks up hashed table rows or keys. -/
  | gather (ctx : Nat)
  /-- UPDATE (R443): Route instruction UPDATE adds delta rows into a hashed table through deferred commands. -/
  | update (ctx : Nat)
  /-- PROBE (R287): Route instruction PROBE scores centroids and chooses partitions per round. -/
  | probe (ctx : Nat)
  /-- SCAN (R292): Route instruction SCAN scans sketches of chosen partitions and selects the top k. -/
  | scan (ctx : Nat)
  /-- WALK (R295): Route instruction WALK expands a beam over the neighbour graph. -/
  | walk (ctx : Nat)
  /-- HOP (R295): A walk hop expands the best unexpanded beam entry once its record has arrived. -/
  | hop (ctx shard : Nat)
  /-- REMOTE_WAIT_EXPIRY (R300): An owning module does not answer within SKE_REMOTE_WAIT and the step ends with SHARD_UNREACHABLE. -/
  | remoteWaitExpiry (ctx : Nat)
  /-- RERANK (R343): Route instruction RERANK scores candidates exactly, optionally cross-encodes and fuses, and selects. -/
  | rerank (ctx : Nat) (cross : List (BitVec 32))
  /-- PACK (R351): Route instruction PACK fills a template with passages and history under a token budget. -/
  | pack (ctx : Nat)
  /-- PREFILL (R412): Route instruction PREFILL writes keys and values of new tokens into the context store. -/
  | prefill (ctx : Nat) (kv : List KvToken) (next : List (BitVec 32))
  /-- DECODE (R414): Route instruction DECODE generates tokens in rounds. -/
  | decode (ctx : Nat)
  /-- DECODE_ROUND (R414): One decode round samples, drafts, runs a tentative pass and accepts tokens. -/
  | decodeRound (ctx : Nat) (r : RoundData)
  /-- SPEC (R420): Route instruction SPEC sets or clears the draft model and draft length. -/
  | spec (ctx : Nat)
  /-- MASK (R377): Route instruction MASK sets the grammar object and start state in the text record. -/
  | mask (ctx : Nat)
  /-- STOPS (R379): Route instruction STOPS replaces or clears the stop strings. -/
  | stops (ctx : Nat)
  /-- DETOK (R380): Route instruction DETOK detokenizes a TOKENS list into text replies. -/
  | detok (ctx : Nat)
  /-- BRANCH (R127): Route instruction BRANCH compares a route register and jumps on its condition. -/
  | branch (ctx : Nat)
  /-- REPLY (R135): Route instruction REPLY writes one STREAM reply with route registers or a list copy. -/
  | reply (ctx : Nat)
  /-- YIELD (R137): Route instruction YIELD ends the request with DONE YIELDED keeping the resume point. -/
  | yield (ctx : Nat)
  /-- END (R136): Route instruction END writes the last DONE reply and makes the context IDLE. -/
  | endRoute (ctx : Nat)
  /-- DISPATCH (R164): The coachman presents a ready tile task and dispatches it to a chosen coach. -/
  | dispatch (cm : Nat)
  /-- DISPATCH_ARRIVAL (R166): A dispatch reaches the coach, which starts the task or its restore. -/
  | dispatchArrival (coach : Nat)
  /-- RESTORE_COMPLETE (R213): A restore from a save image completes and the task resumes at RESUME_PC. -/
  | restoreComplete (coach : Nat)
  /-- PREEMPTION_DECISION (R165): A ready DECODE task finds no idle coach and the turnpike picks a GENERAL task to pre-empt. -/
  | preemptionDecision (cm : Nat)
  /-- PREEMPTION_REQUEST_ARRIVAL (R210): A pre-emption request reaches the coach and is held pending until the next RELAY or TEND. -/
  | preemptionRequestArrival (coach : Nat)
  /-- SAVE_COMPLETE (R167): A task save finishes, the coach becomes idle and sends its completion notice. -/
  | saveComplete (coach : Nat)
  /-- COMPLETION_NOTICE (R165): A coach's completion notice reaches the hub; the task commits or returns to the ready set. -/
  | completionNotice (coach : Nat)
  /-- SWAP_OUT (R170): The turnpike takes victims to free pages, packing them to the coach house or dropping them. -/
  | swapOut (cm : Nat)
  /-- SWAP_OUT_COMPLETE (R170): A swap image is written and the context becomes SWAPPED. -/
  | swapOutComplete (ctx : Nat)
  /-- SWAP_IN (R170): A needing context's swap image is read back into resident pages. -/
  | swapIn (ctx : Nat)
  /-- SWAP_IN_COMPLETE (R145): Swap-in completes and the context returns to PREV_STATE. -/
  | swapInComplete (ctx : Nat) (lost : Bool)
  /-- ADD (R195): C-slot ADD adds two scalar registers. -/
  | add (k : Slot) (d a b : Nat)
  /-- SUB (R195): C-slot SUB subtracts two scalar registers. -/
  | sub (k : Slot) (d a b : Nat)
  /-- AND (R195): C-slot AND is a bitwise and. -/
  | and (k : Slot) (d a b : Nat)
  /-- OR (R195): C-slot OR is a bitwise or. -/
  | or (k : Slot) (d a b : Nat)
  /-- XOR (R195): C-slot XOR is a bitwise exclusive or. -/
  | xor (k : Slot) (d a b : Nat)
  /-- SHIFT (R195): C-slot SHIFT shifts a scalar register. -/
  | shift (k : Slot) (d a b fn : Nat)
  /-- MUL (R195): C-slot MUL multiplies two scalar registers. -/
  | mul (k : Slot) (d a b : Nat)
  /-- ADDI (R195): C-slot ADDI adds a signed immediate. -/
  | addi (k : Slot) (d a : Nat) (imm : BitVec 10)
  /-- LI (R195): C-slot LI loads a sign-extended immediate. -/
  | li (k : Slot) (d : Nat) (imm : BitVec 16)
  /-- LUI (R195): C-slot LUI loads an immediate into the upper half. -/
  | lui (k : Slot) (d : Nat) (imm : BitVec 16)
  /-- CMP (R195): C-slot CMP compares scalars into a predicate. -/
  | cmp (k : Slot) (d a b fn : Nat)
  /-- PLOG (R195): C-slot PLOG combines predicates. -/
  | plog (k : Slot) (d a b fn : Nat)
  /-- AADD (R195): C-slot AADD adds a scalar to an address register. -/
  | aadd (k : Slot) (d a b : Nat)
  /-- AADDI (R195): C-slot AADDI adds a scaled immediate to an address register. -/
  | aaddi (k : Slot) (d a : Nat) (imm : BitVec 10)
  /-- ASET (R195): C-slot ASET sets an address register from two scalars. -/
  | aset (k : Slot) (d a b : Nat)
  /-- AGET (R195): C-slot AGET reads part of an address register. -/
  | aget (k : Slot) (d a fn : Nat)
  /-- BR (R192): C-slot BR branches when its predicate holds. -/
  | br (k : Slot) (rel : BitVec 16)
  /-- LOOP (R196): C-slot LOOP starts a hardware loop level. -/
  | loop (k : Slot) (a len : Nat)
  /-- WAIT (R200): C-slot WAIT waits until every tag in its mask is idle. -/
  | wait (k : Slot) (tags : BitVec 16)
  /-- RELAY (R210): C-slot RELAY marks a relay point and saves the task when a pre-emption is pending. -/
  | relay (k : Slot) (final : Bool) (id : Nat)
  /-- RELAY_OVERDUE (R211): A relay stretch passes 65,536 counted CCLK without a RELAY and the task faults. -/
  | relayOverdue (coach : Nat)
  /-- TEND (R214): C-slot TEND ends the task with a code and sends the completion notice. -/
  | tend (k : Slot) (s : Nat)
  /-- CSRR (R208): C-slot CSRR reads a control register. -/
  | csrr (k : Slot) (s csr : Nat)
  /-- CSRW (R208): C-slot CSRW writes a control register by its access code. -/
  | csrw (k : Slot) (s csr : Nat)
  /-- VLD (R197): L-slot VLD loads 256 bytes into a vector register. -/
  | vld (k : Slot) (v an : Nat) (post : Bool) (off : BitVec 12)
  /-- VST (R197): L-slot VST stores a vector register. -/
  | vst (k : Slot) (v an : Nat) (post : Bool) (off : BitVec 12)
  /-- SLD (R197): L-slot SLD loads a scalar. -/
  | sld (k : Slot) (s an : Nat) (off : BitVec 12)
  /-- SST (R197): L-slot SST stores a scalar. -/
  | sst (k : Slot) (s an : Nat) (off : BitVec 12)
  /-- ACCST (R247): L-slot ACCST stores an accumulator tile with conversion. -/
  | accst (k : Slot) (acc an conv : Nat)
  /-- ACCLD (R197): L-slot ACCLD loads an accumulator tile. -/
  | accld (k : Slot) (acc an conv : Nat)
  /-- VEXT (R197): L-slot VEXT extracts a lane into a scalar. -/
  | vext (k : Slot) (s v lane : Nat)
  /-- VINS (R197): L-slot VINS inserts a scalar into one or every lane. -/
  | vins (k : Slot) (v s lane : Nat) (bc : Bool)
  /-- MOVE (R199): L-slot MOVE starts a tagged copy between coach SRAM and memory. -/
  | move (k : Slot) (tag an ab sl : Nat) (out : Bool)
  /-- MOVE_COMPLETION (R199): A MOVE finishes and its tag goes idle. -/
  | moveCompletion (coach tag : Nat)
  /-- UCMD (R201): L-slot UCMD sends a tagged or deferred command to a unit station. -/
  | ucmd (k : Slot) (tag an station quarter : Nat) (defer : Bool)
  /-- SEND (R202): L-slot SEND hands a collective contribution to the Cibin logic. -/
  | send (k : Slot) (tag an : Nat)
  /-- RECV (R202): L-slot RECV hands a collective destination to the Cibin logic. -/
  | recv (k : Slot) (tag an : Nat)
  /-- VADD (R204): V-slot VADD adds lanes. -/
  | vadd (k : Slot) (vd va vb ty : Nat)
  /-- VSUB (R204): V-slot VSUB subtracts lanes. -/
  | vsub (k : Slot) (vd va vb ty : Nat)
  /-- VMUL (R204): V-slot VMUL multiplies lanes. -/
  | vmul (k : Slot) (vd va vb ty : Nat)
  /-- VFMA (R248): V-slot VFMA fused multiply-adds lanes. -/
  | vfma (k : Slot) (vd va vb : Nat)
  /-- VMAX (R249): V-slot VMAX takes lane maxima. -/
  | vmax (k : Slot) (vd va vb ty : Nat)
  /-- VMIN (R249): V-slot VMIN takes lane minima. -/
  | vmin (k : Slot) (vd va vb ty : Nat)
  /-- VLOGIC (R204): V-slot VLOGIC performs bitwise lane logic. -/
  | vlogic (k : Slot) (vd va vb fn : Nat)
  /-- VSHIFT (R204): V-slot VSHIFT shifts lanes. -/
  | vshift (k : Slot) (vd va vb fn : Nat)
  /-- VPOPC (R204): V-slot VPOPC counts ones of lane XOR. -/
  | vpopc (k : Slot) (vd va vb : Nat)
  /-- VCMP (R249): V-slot VCMP compares lanes into a predicate. -/
  | vcmp (k : Slot) (pd va vb ty cond : Nat)
  /-- VSEL (R204): V-slot VSEL selects lanes by predicate. -/
  | vsel (k : Slot) (vd va vb p : Nat)
  /-- VCVT (R245): V-slot VCVT converts lanes between formats. -/
  | vcvt (k : Slot) (vd va fn : Nat)
  /-- VFUNC (R250): V-slot VFUNC computes EXP2, LOG2, RCP or RSQRT. -/
  | vfunc (k : Slot) (vd va fn : Nat)
  /-- VRED (R205): V-slot VRED reduces lanes by SUM, MOMENTS, MAX or MIN. -/
  | vred (k : Slot) (vd va ty mode : Nat) (addTo : Bool)
  /-- VPERM (R204): V-slot VPERM permutes lanes. -/
  | vperm (k : Slot) (vd va vb : Nat)
  /-- VMOV (R204): V-slot VMOV copies a vector register. -/
  | vmov (k : Slot) (vd va : Nat)
  /-- MLDW (R220): M-slot MLDW loads a weight tile into an array's shadow buffer. -/
  | mldw (k : Slot) (ma an fmt : Nat)
  /-- MPASS (R207): M-slot MPASS streams activation rows through an array into accumulator tiles. -/
  | mpass (k : Slot) (ma an acc sn ch : Nat) (addTo quad swap agen : Bool)
  /-- MZERO (R206): M-slot MZERO zeroes accumulator tiles. -/
  | mzero (k : Slot) (tiles : BitVec 8)
  /-- MACCV (R206): M-slot MACCV moves two tile rows into a vector register. -/
  | maccv (k : Slot) (acc j v : Nat)
  /-- MVACC (R206): M-slot MVACC moves a vector register into two tile rows. -/
  | mvacc (k : Slot) (acc j v : Nat)
  /-- TURN_BOUNDARY (R288): A sketch engine's turn ends and the next shard's turn starts, forming passes. -/
  | turnBoundary (engine : Nat)
  /-- PASS_COMPLETE (R290): A sketch pass finishes its rows and its lanes' survivors are written. -/
  | passComplete (engine : Nat)
  /-- SELECT (R310): Selection unit SELECT takes the top k, or argmax, of one row. -/
  | select (quarter : Nat)
  /-- MERGE (R322): Selection unit MERGE merges lists, removes duplicates and selects. -/
  | merge (quarter : Nat)
  /-- OPEN (R325): Selection unit OPEN starts a chained row in a state record. -/
  | openRow (quarter : Nat)
  /-- HIST (R330): Selection unit HIST adds a segment to the current histogram level. -/
  | hist (quarter : Nat)
  /-- THRESH (R330): Selection unit THRESH closes a histogram level. -/
  | thresh (quarter : Nat)
  /-- EMIT (R330): Selection unit EMIT emits the selected elements of a segment. -/
  | emit (quarter : Nat)
  /-- CLOSE (R315): Selection unit CLOSE writes padding, sorts and reports the sums. -/
  | closeRow (quarter : Nat)
  /-- SEGMENTER_COMMAND (R375): A segmenter lane normalises and segments a command's input. -/
  | segmenterCommand (lane : Nat)
  /-- REINS_START (R394): Reins START sets the grammar state and computes its mask. -/
  | reinsStart (quarter : Nat)
  /-- REINS_STEP (R390): Reins STEP advances the grammar by one token. -/
  | reinsStep (quarter : Nat)
  /-- REINS_QUERY (R394): Reins QUERY reports the current mask. -/
  | reinsQuery (quarter : Nat)
  /-- REINS_COMMIT (R394): Reins COMMIT clears the undo entries. -/
  | reinsCommit (quarter : Nat)
  /-- REINS_ROLLBACK (R396): Reins ROLLBACK restores the newest undo entries. -/
  | reinsRollback (quarter : Nat)
  /-- LOOKUP (R446): Gather LOOKUP fetches table rows for keys, optionally max-pooled. -/
  | lookup (quarter : Nat)
  /-- GTU_UPDATE (R448): Gather UPDATE sums deltas per row and writes each row once. -/
  | gtuUpdate (quarter : Nat)
  /-- KEYS (R446): Gather KEYS writes the formed keys as 8-byte entries. -/
  | keys (quarter : Nat)
  /-- HOT_ROW_MIGRATION (R457): The migration lane drains a slot and fills it with the candidate row. -/
  | hotRowMigration (quarter : Nat)
  /-- MIGRATION_COMMIT (R459): A hot-row copy commits in one NCLK and its slot becomes FREE or VALID. -/
  | migrationCommit (quarter : Nat)
  /-- OBJ_WRITE (R479): Object command WRITE copies host bytes into an object. -/
  | objWrite (data : HostRead) (decl : Option ModelDecl)
  /-- OBJECT_RELEASE_COMPLETE (R479): A RELEASING object's holds reach zero, its pages are freed and the entry becomes FREE. -/
  | objectReleaseComplete (tenant obj : Nat)
  /-- PAGE_MOVE (R487): A migration engine starts moving a context page between tiers. -/
  | pageMove (quarter page : Nat)
  /-- PAGE_MOVE_COMMIT (R487): A page copy commits, or is abandoned when DIRTY. -/
  | pageMoveCommit (quarter : Nat)
  /-- PAGE_HOLD_EXPIRY (R484): A freed context page returns to its pool after the hold time. -/
  | pageHoldExpiry (page : Nat)
  /-- SLOT_READ (R501): Slot command READ copies slots to a destination. -/
  | slotRead (src : SlotSource)
  /-- SLOT_WRITE (R501): Slot command WRITE copies data into slots. -/
  | slotWrite (src : SlotSource) (data : HostRead)
  /-- WRITE_COMPLETION (R503): A slot write is accepted into the write buffer with its journaled map entry and completion is reported. -/
  | writeCompletion (part : Nat)
  /-- SLOT_DISCARD (R501): Slot command DISCARD makes held slots not held. -/
  | slotDiscard (src : SlotSource)
  /-- TO_OBJ (R501): Slot command TO_OBJ reads slots into an object. -/
  | toObj (src : SlotSource) (decl : Option ModelDecl)
  /-- READ_TURN (R505): A die's read turn senses and transfers up to 3 slot reads of its owner. -/
  | readTurn (die : Nat) (results : List ReadResult)
  /-- PROGRAM_TURN (R505): A die's odd turn carries programs, erases and garbage collection. -/
  | programTurn (die : Nat) (work : ProgramWork)
  /-- COPY (R521): Dray COPY copies bytes through the funnel. -/
  | copy (chan : Nat) (data : HostRead)
  /-- DEINT (R527): Dray DEINT splits interleaved audio into channel regions. -/
  | deint (chan : Nat) (data : HostRead)
  /-- INT (R527): Dray INT interleaves channel regions into frames. -/
  | int (chan : Nat) (data : HostRead)
  /-- PLANE_SPLIT (R528): Dray PLANE_SPLIT splits packed elements into bit planes. -/
  | planeSplit (chan : Nat) (data : HostRead)
  /-- PLANE_JOIN (R528): Dray PLANE_JOIN joins bit planes into packed elements. -/
  | planeJoin (chan : Nat) (data : HostRead)
  /-- DRAY_READBACK (R532): The read-back of the last write returns and the descriptor completes. -/
  | drayReadback (chan : Nat) (fail : Bool)
  /-- IDLE (R550): An IDLE word is received, carrying only its trailer. -/
  | idleWord (port : Nat) (w : LinkWord) (refHops : Nat)
  /-- COLL (R561): A collective flit is received and combined into its collective. -/
  | coll (port : Nat) (w : LinkWord) (key : List (BitVec 8))
  /-- MEM_RD (R566): A remote memory read flit is received and served. -/
  | memRd (port : Nat) (w : LinkWord) (addr units : Nat)
  /-- MEM_WR (R566): A remote memory write flit is received and applied. -/
  | memWr (port : Nat) (w : LinkWord) (addr : Nat) (data : List (BitVec 8))
  /-- MEM_RSP (R566): A remote memory response flit is received. -/
  | memRsp (port : Nat) (w : LinkWord) (data : List (BitVec 8))
  /-- WORK (R299): A WORK message of fan-out or table work arrives and runs on the owning module. -/
  | work (port : Nat) (w : LinkWord) (m : WorkMsg)
  /-- RESULT (R298): A RESULT message returns a per-shard list or rows to the home module. -/
  | result (port : Nat) (w : LinkWord) (m : ResultMsg)
  /-- NAK (R553): A NAK reaches the sender, which replays from the named flit. -/
  | nak (port seq : Nat)
  /-- REPLAY_TIMEOUT (R553): A flit unanswered for 2L + 1 link cycles is replayed. -/
  | replayTimeout (port : Nat)
  /-- PORT_RETRAIN (R553): A DOWN port retrains every 65,536 link cycles. -/
  | portRetrain (port : Nat) (ok : Bool) (latency : Nat)
  /-- PREPARE (R559): A member receives a commit PREPARE, checks the decision and answers YES or NO. -/
  | prepare (d : CommitMsg)
  /-- COMMIT_DECISION (R559): By c + 2L + 8 the coordinator sends APPLY or ABORT. -/
  | commitDecision (id : Nat) (answers : List (Nat × BitVec 16))
  /-- APPLY (R559): A member receives APPLY and holds the decision for apply cycle A. -/
  | apply (coord id : Nat)
  /-- ABORT (R559): A member receives ABORT and releases what it held. -/
  | abort (coord id : Nat) (code : BitVec 16)
  /-- LEAVE (R568): A member announces LEAVE and the lead declares it lost. -/
  | leave (pos : Nat)
  /-- LOST (R568): A LOST flit naming a position and apply cycle arrives. -/
  | lost (pos cycle : Nat)
  /-- LOST_WAIT_EXPIRY (R568): No path reaches a position for CB_LOST_WAIT link cycles. -/
  | lostWaitExpiry (pos badPorts : Nat)
  /-- CB_TIMEOUT (R564): CB_COLL_TIMEOUT expires for a collective tag, which completes with CB_TIMEOUT. -/
  | cbTimeout (coach tag : Nat)
  /-- ALL_REDUCE (R562): Collective ALL_REDUCE reduces contributions and returns the result to all. -/
  | allReduce (cid members : Nat)
  /-- REDUCE_SCATTER (R561): Collective REDUCE_SCATTER returns each participant its slice of the reduction. -/
  | reduceScatter (cid members : Nat)
  /-- ALL_GATHER (R561): Collective ALL_GATHER concatenates every contribution. -/
  | allGather (cid members : Nat)
  /-- BROADCAST (R561): Collective BROADCAST copies the root's contribution to all. -/
  | broadcast (cid members : Nat)
  /-- POINT (R561): Collective POINT sends one contribution to PEER. -/
  | point (cid members : Nat)
  /-- DOM_WORK (R577): A domain WORK frame arrives and its DTID is mapped to a local tenant. -/
  | domWork (port : Nat) (f : DomFrame) (m : WorkMsg)
  /-- DOM_RESULT (R576): A domain RESULT frame arrives in PSN order. -/
  | domResult (port : Nat) (f : DomFrame) (m : ResultMsg)
  /-- ACK (R576): A domain ACK frame arrives and advances the go-back-N window. -/
  | ack (port : Nat) (f : DomFrame)
  /-- DOMAIN_RTO (R576): CB_DOM_RTO passes without progress and the sender retransmits or marks the module unreachable. -/
  | domainRto (module : Nat)
  /-- DIR_REPORT (R578): A DIR_REPORT frame updates the domain lead's shard directory. -/
  | dirReport (port : Nat) (f : DomFrame) (entry : DirEntry)
  /-- DIR_QUERY (R578): A DIR_QUERY frame is answered by the domain lead. -/
  | dirQuery (port : Nat) (f : DomFrame) (module shard : Nat)
  /-- DIR_ANSWER (R578): A DIR_ANSWER frame fills CB_DIR_DATA and completes the query. -/
  | dirAnswer (port : Nat) (f : DomFrame) (entry : Option DirEntry)
  /-- CB_DIR_QUERY (R579): A write starts a directory query to the domain lead. -/
  | cbDirQuery (value : BitVec 64)
  /-- CB_TEAM_CFG (R557): A write of the team configuration record is programmed by the Ostler for the next bring-up. -/
  | cbTeamCfg (value : BitVec 64)
  /-- NEGOTIATE_ALGORITHMS (R602): SPDM NEGOTIATE_ALGORITHMS is answered. -/
  | negotiateAlgorithms (asym hash : Nat)
  /-- GET_CERTIFICATE (R602): SPDM GET_CERTIFICATE returns the slot 0 chain. -/
  | getCertificate (slot : Nat)
  /-- CHALLENGE (R602): SPDM CHALLENGE is answered signed with the alias key. -/
  | challenge (slot : Nat)
  /-- GET_MEASUREMENTS (R603): SPDM GET_MEASUREMENTS returns signed measurement blocks. -/
  | getMeasurements (index : Nat)
  /-- DEBUG_CHALLENGE (R605): A debug unlock request receives a fresh challenge with a nonce. -/
  | debugChallenge (level : Nat)
  /-- DEBUG_RESPONSE (R606): A signed debug response is checked and the debug level raised if allowed. -/
  | debugResponse (r : DebugResp)
  /-- SEC_LOCK (R597): A W1S write sets ISOLATE, forcing every SHARED mode bit to 0. -/
  | secLock (value : BitVec 64)
  /-- SCRUB (R612): The memory controllers read and correct every line at least once every 24 hours. -/
  | scrub (corrected uncorrectable : List Nat)
  /-- COACH_FAULT (R617): A coach does not idle within its pre-emption bound plus 1,024 CCLK and is hard-fenced. -/
  | coachFault (coach : Nat)
  /-- POWER_INTERVAL (R628): Every 10 us the power controller compares averaged power with the limit and adjusts S_POWER. -/
  | powerInterval (vin iin watts : Nat)
  /-- SHUTDOWN (R631): A shutdown cause stops main conversion after LEAVE and logging. -/
  | shutdown (cause : Nat)
  /-- SENSOR_SAMPLE (R642): The Ostler samples a group of sensors at its interval. -/
  | sensorSample (readings : List (Nat × BitVec 16))
  /-- OST_LOG_ACK (R640): A write of OST_LOG_ACK marks records consumed and rearms LOG_FULL. -/
  | ostLogAck (value : BitVec 64)
  /-- CAGE_MODULE_PLUGGED (R46): A plugged cage module declares its power class and is enabled or held in low power. -/
  | cageModulePlugged (cage watts : Nat)
  /-- ORDER (R644): An out-of-band ORDER message is presented at the order port at Ostler rank. -/
  | order (record : List (BitVec 8))
  /-- LOG_READ (R643): An out-of-band LOG_READ message returns log records. -/
  | logRead (seq count : Nat)
  /-- TRANSFER_COMPLETE (R645): The last image byte arrives and verification starts. -/
  | transferComplete (data : ImageData)
  /-- CALIBRATION_STEP (R648): A memory controller runs a calibration step within its slot budget. -/
  | calibrationStep (hbm : Bool) (chan slots : Nat)
  /-- MAINTENANCE_WITHDRAWAL (R649): The Ostler withdraws a coach for a maintenance slot, or defers it. -/
  | maintenanceWithdrawal (coach dueTick : Nat)
  /-- WITHDRAWAL_END (R649): A maintenance slot ends and the coach returns to service. -/
  | withdrawalEnd (coach : Nat)
  /-- HUB_LB_CTRL (R653): A write selects and starts or stops a loopback. -/
  | hubLbCtrl (byOstler : Bool) (value : BitVec 64)
  /-- HUB_LB_STATUS (R665): A W1C write clears REFUSED. -/
  | hubLbStatus (value : BitVec 64)
  /-- HUB_CLK_STATUS (R73): A W1C write clears REF_LOST. -/
  | hubClkStatus (value : BitVec 64)
  /-- SLU_CMD_COUNT (R337): An RC read returns and clears the selection command count. -/
  | sluCmdCount (quarter : Nat)
  /-- SLU_ELEM_COUNT (R337): An RC read returns and clears the selection element count. -/
  | sluElemCount (quarter : Nat)
  /-- SLU_REFUSE_COUNT (R337): An RC read returns and clears the selection refusal count. -/
  | sluRefuseCount (quarter : Nat)
  /-- RNU_HIT_COUNT (R401): An RC read returns and clears the mask cache hit count. -/
  | rnuHitCount (quarter : Nat)
  /-- RNU_MISS_COUNT (R401): An RC read returns and clears the mask cache miss count. -/
  | rnuMissCount (quarter : Nat)
  /-- GTU_CMD_COUNT (R460): An RC read returns and clears the gather command count. -/
  | gtuCmdCount (quarter : Nat)
  /-- GTU_ROW_COUNT (R460): An RC read returns and clears the gather row count. -/
  | gtuRowCount (quarter : Nat)
  /-- GTU_MIGRATE_COUNT (R460): An RC read returns and clears the hot-row migration count. -/
  | gtuMigrateCount (quarter : Nat)
  /-- GTU_ABANDON_COUNT (R460): An RC read returns and clears the abandoned migration count. -/
  | gtuAbandonCount (quarter : Nat)
  /-- GTU_UPD_FAIL_COUNT (R460): An RC read returns and clears the failed deferred update count. -/
  | gtuUpdFailCount (quarter : Nat)
  /-- REGISTER_WRITE (R11): A write to a register with no row of its own acts by its access code. -/
  | registerWrite (w : RegWrite)
  /-- PORT_DOWN (R553): A team port that receives no valid word for 64 link cycles takes state DOWN and its traffic moves to a relay path. -/
  | portDown (port : Nat)
  /-- FAILED_WORD (R552): A received team-port word fails its CRC, CYCLE or TYPE check and is answered NAK. -/
  | failedWord (port : Nat) (w : LinkWord)
  /-- TRAIN_WORD (R556): A TRAIN word arrives carrying REF_HOPS and MODULE, and at lockstep the lead's link cycle 0 and L, from which the member starts counting link cycles. -/
  | trainWord (port : Nat) (t : TrainInfo)
  /-- DISCARDED_FRAME (R575): A received domain frame that is tagged, has the wrong EtherType, FCS, address or domain header is discarded and counted in CB_DOM_DROP_COUNT. -/
  | discardedFrame (port : Nat) (f : DomFrame)
  /-- LOOPBACK_FOLLOWER (R654): The host link partner directs the PCI Express link into loopback, and the module acts as loopback follower. -/
  | loopbackFollower (on : Bool)
  /-- LOOPBACK_LANE_LOCK (R655): A lane in loopback gains or loses lock to the test pattern, changing HUB_LB_STATUS.LOCK. -/
  | loopbackLaneLock (lane : Nat) (locked : Bool) (errors : Nat)
  /-- DOMAIN_PCS_LOCK (R579): A domain port's 800GBASE-R PCS gains or loses lock and FEC alignment, changing CB_DPORTn. -/
  | domainPcsLock (port : Nat) (pcs fec : Bool)
  /-- PERST_N (R61): PERST_N goes low and a fundamental reset takes place. -/
  | perstN
  /-- BRINGUP_START (R66): Main bring-up starts once PERST_N is high and main conversion has run for 30 ms. -/
  | bringupStart
  /-- PLL_LOCK (R67): The master PLL locks and bring-up stage PLL_LOCK ends. -/
  | pllLock
  /-- FW_LOAD (R67): The Ostler verifies the signed image and loads hub, coachman and kernel firmware. -/
  | fwLoad
  /-- LOCAL_READY (R67): Local units are live; a lone module enters READY and a lead starts inviting members. -/
  | localReady
  /-- JOIN_LATE (R71): 5,000 ms after the lead's LOCAL_READY without a complete team, JOIN_LATE is set. -/
  | joinLate
  /-- READY (R70): Every expected member is in lockstep, TEAM_CHANGE is set and the module enters READY. -/
  | ready
  /-- DEVICE_READINESS_STATUS (R80): The configuration space first answers and the Device Readiness Status message is sent. -/
  | deviceReadinessStatus
  /-- VF_ENABLE (R80): A write setting VF Enable makes the module send one Function Readiness Status message per VF. -/
  | vfEnable
  /-- REF_LOST (R60): The PLL reference has no edge for 1 us and the PLL enters holdover. -/
  | refLost
  /-- REF_HOLDOVER_EXPIRY (R60): No reference returns within 10 ms; a member leaves its team, a lead or lone module takes a main reset. -/
  | refHoldoverExpiry
  /-- FLR_PF0 (R117): An FLR on PF0 clears VF Enable and resets every virtual function and the order page rings. -/
  | flrPf0
  /-- DECODE_WINDOW (R163): A 1,048,576-CCLK window ends and the decode share D is computed. -/
  | decodeWindow
  /-- DETOK_COMMAND (R387): The detokenizer maps tokens to bytes, holds back partial stops and releases text. -/
  | detokCommand
  /-- OBJ_CREATE (R479): Object command CREATE allocates an object in a tier. -/
  | objCreate
  /-- OBJ_READ (R479): Object command READ copies object bytes to the host. -/
  | objRead
  /-- OBJ_RELEASE (R479): Object command RELEASE makes an object RELEASING. -/
  | objRelease
  /-- MAP_CHECKPOINT (R512): The strongbox map is written to its flash checkpoint at least every 30 s. -/
  | mapCheckpoint
  /-- COMMIT_APPLY_CYCLE (R559): Link cycle A arrives and every member applies the decision. -/
  | commitApplyCycle
  /-- LOST_APPLY (R569): At cycle A every remaining member removes the lost position and ends its work. -/
  | lostApply
  /-- DIR_QUERY_TIMEOUT (R579): A directory query unanswered in 8 x CB_DOM_RTO completes with CB_DIR_DOWN. -/
  | dirQueryTimeout
  /-- GET_VERSION (R602): SPDM GET_VERSION is answered. -/
  | getVersion
  /-- GET_CAPABILITIES (R602): SPDM GET_CAPABILITIES is answered. -/
  | getCapabilities
  /-- GET_DIGESTS (R602): SPDM GET_DIGESTS is answered. -/
  | getDigests
  /-- CE_PERIOD (R616): A rolling correctable-error period ends and counts are logged and checked. -/
  | cePeriod
  /-- THERMAL_INTERVAL (R628): Every 1 ms S_THERMAL rises or falls by the sensor thresholds. -/
  | thermalInterval
  /-- AUTO_RESTART (R631): After 60 s with sensors cool and input in range, the Ostler restarts main conversion. -/
  | autoRestart
  /-- LEAK_SENSE (R642): The leak sensor fires and an event is logged within 1 ms. -/
  | leakSense
  /-- LOG_RECORD (R640): The Ostler programs a log record into the ring within 2 ms of its event. -/
  | logRecord
  /-- OST_NOW (R638): A read of OST_NOW returns TICK and latches the link cycle and progress number. -/
  | ostNow
  /-- FETCH (R645): OST_UPD_CTRL FETCH starts an image transfer from host memory. -/
  | fetch
  /-- DISCARD (R645): OST_UPD_CTRL DISCARD returns a STAGED image to IDLE. -/
  | discard
  /-- VERIFICATION_COMPLETE (R646): The staged image passes or fails verification and becomes STAGED or IDLE. -/
  | verificationComplete
  /-- ACTIVATE_FIRMWARE (R645): A PLDM ActivateFirmware request is presented as UPDATE_ACTIVATE at Ostler rank. -/
  | activateFirmware
  /-- CANCEL_UPDATE (R645): A PLDM CancelUpdate request returns a STAGED image to IDLE. -/
  | cancelUpdate
  /-- SCAN_RESET (R662): HUB_SCAN_CTRL OP RESET resets the scan chain. -/
  | scanReset
  /-- SHIFT_IR (R662): HUB_SCAN_CTRL OP SHIFT_IR shifts LENGTH bits through the instruction registers. -/
  | shiftIr
  /-- SHIFT_DR (R662): HUB_SCAN_CTRL OP SHIFT_DR shifts LENGTH bits through the data registers. -/
  | shiftDr
  /-- RUN_IDLE (R662): HUB_SCAN_CTRL OP RUN_IDLE moves the chain to run-test-idle. -/
  | runIdle
  /-- HUB_ORDER_APPLIED (R84): An RC read returns and clears the count of orders applied. -/
  | hubOrderApplied
  /-- HUB_ORDER_CONFLICT (R84): An RC read returns and clears the count of orders lost with CONFLICT. -/
  | hubOrderConflict
  /-- HUB_DMA_ERR (R84): An RC read returns and clears the count of failed read completions. -/
  | hubDmaErr
  /-- TP_ADMIT_COUNT (R176): An RC read returns and clears the admission count. -/
  | tpAdmitCount
  /-- TP_DENY_COUNT (R176): An RC read returns and clears the TP_DENY count. -/
  | tpDenyCount
  /-- TP_PREEMPT_COUNT (R176): An RC read returns and clears the save count. -/
  | tpPreemptCount
  /-- TP_SWAP_OUT_COUNT (R176): An RC read returns and clears the swap-out count. -/
  | tpSwapOutCount
  /-- TP_SWAP_IN_COUNT (R176): An RC read returns and clears the swap-in count. -/
  | tpSwapInCount
  /-- TP_DROP_COUNT (R176): An RC read returns and clears the drop count. -/
  | tpDropCount
  /-- SKE_PASS_COUNT (R303): An RC read returns and clears the pass count. -/
  | skePassCount
  /-- SKE_ROW_COUNT (R303): An RC read returns and clears the row count. -/
  | skeRowCount
  /-- TXU_SEG_COUNT (R401): An RC read returns and clears the segmenter command count. -/
  | txuSegCount
  /-- TXU_DETOK_COUNT (R401): An RC read returns and clears the detokenized token count. -/
  | txuDetokCount
  /-- CTX_PREFIX_HIT_COUNT (R432): An RC read returns and clears the prefix hit count. -/
  | ctxPrefixHitCount
  /-- CTX_PREFIX_MISS_COUNT (R432): An RC read returns and clears the prefix miss count. -/
  | ctxPrefixMissCount
  /-- CTX_DRAFTED_COUNT (R432): An RC read returns and clears the drafted token count. -/
  | ctxDraftedCount
  /-- CTX_ACCEPTED_COUNT (R432): An RC read returns and clears the accepted draft count. -/
  | ctxAcceptedCount
  /-- CTX_ROLLBACK_COUNT (R432): An RC read returns and clears the rollback count. -/
  | ctxRollbackCount
  /-- CTX_BLOCKS_READ (R432): An RC read returns and clears the blocks-read count. -/
  | ctxBlocksRead
  /-- MT_MIGRATE_COUNT (R493): An RC read returns and clears the page move count. -/
  | mtMigrateCount
  /-- MT_ABANDON_COUNT (R493): An RC read returns and clears the abandoned page move count. -/
  | mtAbandonCount
  /-- SB_READ_COUNT (R516): An RC read returns and clears the slot read count. -/
  | sbReadCount
  /-- SB_WRITE_BYTES (R516): An RC read returns and clears the programmed byte count. -/
  | sbWriteBytes
  /-- SB_REBUILD_COUNT (R516): An RC read returns and clears the XOR rebuild count. -/
  | sbRebuildCount
  /-- DR_DESC_COUNT (R542): An RC read returns and clears the descriptor count. -/
  | drDescCount
  /-- DR_BYTE_COUNT (R542): An RC read returns and clears the dray byte count. -/
  | drByteCount
  /-- DR_FAIL_COUNT (R542): An RC read returns and clears the failed deferred descriptor count. -/
  | drFailCount
  /-- CB_FLIT_ERR_COUNT (R579): An RC read returns and clears the failed word count. -/
  | cbFlitErrCount
  /-- CB_REPLAY_COUNT (R579): An RC read returns and clears the replay count. -/
  | cbReplayCount
  /-- CB_RELAY_COUNT (R579): An RC read returns and clears the relayed flit count. -/
  | cbRelayCount
  /-- CB_COLL_COUNT (R579): An RC read returns and clears the collective count. -/
  | cbCollCount
  /-- CB_DOM_DROP_COUNT (R579): An RC read returns and clears the dropped frame count. -/
  | cbDomDropCount
  /-- SEC_EVENT_COUNT (R608): An RC read returns and clears the security event count. -/
  | secEventCount
  /-- HUB_ERR_COUNT (R632): An RC read returns and clears the error counts. -/
  | hubErrCount
  /-- PWR_SKIP_COUNT (R632): An RC read returns and clears the swallowed CCLK count. -/
  | pwrSkipCount
  /-- OST_LOG_LOST (R650): An RC read returns and clears the overwritten record count. -/
  | ostLogLost
  /-- OST_DEFER_COUNT (R650): An RC read returns and clears the deferral count. -/
  | ostDeferCount
  /-- HUB_LB_ERR (R664): An RC read returns and clears the loopback error count. -/
  | hubLbErr
  /-- SLEW_COMPLETE (R59): The master PLL finishes slewing to its new reference, SLEWING clears and a member can report lock to the lead. -/
  | slewComplete
  /-- PLDM_TYPE5_TRANSFER (R645): An out-of-band PLDM Type 5 firmware update request starts a transfer into the staging area, discarding any staged image. -/
  | pldmTransfer
deriving DecidableEq, Repr

end Sys2Proof
end

