-- ==== Sys2Proof/Decode.lean ====
section
/-!
DEFINITION. Decode.lean: what words spell. The slots of a coach bundle are spelled by R189, R195, R197, R204 and R206: `decodeSlot`.
spec/opcode_table.json gives no row of this block any bits (every row's field list is empty), so no table word spells a command.
-/
namespace Sys2Proof

open Machine

/-- The C slot instruction of a word's OP and operands (R195); none for no operation and undefined opcodes. -/
def decodeC (k : Slot) (w : Nat) : Option Instr :=
  let d := bits w 21 16
  let a := bits w 15 10
  let b := bits w 9 4
  let fn := bits w 3 0
  let i10 := BitVec.ofNat 10 w
  let i16 := BitVec.ofNat 16 w
  match bits w 31 26 with
  | 0x01 => some (.add k d a b)
  | 0x02 => some (.sub k d a b)
  | 0x03 => some (.and k d a b)
  | 0x04 => some (.or k d a b)
  | 0x05 => some (.xor k d a b)
  | 0x06 => some (.shift k d a b fn)
  | 0x07 => some (.mul k d a b)
  | 0x08 => some (.addi k d a i10)
  | 0x09 => some (.li k d i16)
  | 0x0A => some (.lui k d i16)
  | 0x0B => some (.cmp k d a b fn)
  | 0x0C => some (.plog k d a b fn)
  | 0x0D => some (.aadd k d a b)
  | 0x0E => some (.aaddi k d a i10)
  | 0x0F => some (.aset k d a b)
  | 0x10 => some (.aget k d a fn)
  | 0x11 => some (.br k i16)
  | 0x12 => some (.loop k d (bits w 11 0))
  | 0x13 => some (.wait k i16)
  | 0x14 => some (.relay k (bit w 10) (bits w 7 0))
  | 0x15 => some (.tend k d)
  | 0x16 => some (.csrr k d (bits w 7 0))
  | 0x17 => some (.csrw k d (bits w 7 0))
  | _ => none

/-- The L slot instruction (R197). -/
def decodeL (k : Slot) (w : Nat) : Option Instr :=
  let off := BitVec.ofNat 12 w
  match bits w 31 26 with
  | 0x01 => some (.vld k (bits w 21 17) (bits w 16 13) (bit w 12) off)
  | 0x02 => some (.vst k (bits w 21 17) (bits w 16 13) (bit w 12) off)
  | 0x03 => some (.sld k (bits w 21 16) (bits w 15 12) off)
  | 0x04 => some (.sst k (bits w 21 16) (bits w 15 12) off)
  | 0x05 => some (.accst k (bits w 21 19) (bits w 18 15) (bits w 14 13))
  | 0x06 => some (.accld k (bits w 21 19) (bits w 18 15) (bits w 14 13))
  | 0x07 => some (.vext k (bits w 21 16) (bits w 15 11) (bits w 10 5))
  | 0x08 => some (.vins k (bits w 21 17) (bits w 16 11) (bits w 10 5) (bit w 4))
  | 0x09 => some (.move k (bits w 21 18) (bits w 17 14) (bits w 13 10) (bits w 9 4) (bit w 3))
  | 0x0A => some (.ucmd k (bits w 21 18) (bits w 17 14) (bits w 13 10) (bits w 9 8) (bit w 7))
  | 0x0B => some (.send k (bits w 21 18) (bits w 17 14))
  | 0x0C => some (.recv k (bits w 21 18) (bits w 17 14))
  | _ => none

/-- The V slot instruction (R204, R205). -/
def decodeV (k : Slot) (w : Nat) : Option Instr :=
  let vd := bits w 21 17
  let va := bits w 16 12
  let vb := bits w 11 7
  let ty := bits w 6 5
  match bits w 31 26 with
  | 0x01 => some (.vadd k vd va vb ty)
  | 0x02 => some (.vsub k vd va vb ty)
  | 0x03 => some (.vmul k vd va vb ty)
  | 0x04 => some (.vfma k vd va vb)
  | 0x05 => some (.vmax k vd va vb ty)
  | 0x06 => some (.vmin k vd va vb ty)
  | 0x07 => some (.vlogic k vd va vb (bits w 1 0))
  | 0x08 => some (.vshift k vd va vb (bits w 1 0))
  | 0x09 => some (.vpopc k vd va vb)
  | 0x0A => some (.vcmp k (bits w 19 17) va vb ty (bits w 2 0))
  | 0x0B => some (.vsel k vd va vb (bits w 2 0))
  | 0x0C => some (.vcvt k vd va (bits w 6 0))
  | 0x0D => some (.vfunc k vd va (bits w 1 0))
  | 0x0E => some (.vred k vd va ty (bits w 1 0) (bit w 2))
  | 0x0F => some (.vperm k vd va vb)
  | 0x10 => some (.vmov k vd va)
  | _ => none

/-- The M slot instruction (R206). -/
def decodeM (k : Slot) (w : Nat) : Option Instr :=
  match bits w 31 26 with
  | 0x01 => some (.mldw k (bits w 21 20) (bits w 19 16) (bits w 15 12))
  | 0x02 => some (.mpass k (bits w 21 20) (bits w 19 16) (bits w 15 13) (bits w 12 7) (bits w 6 5) (bit w 4) (bit w 3) (bit w 2) (bit w 1))
  | 0x03 => some (.mzero k (BitVec.ofNat 8 (w / 2 ^ 14)))
  | 0x04 => some (.maccv k (bits w 21 19) (bits w 18 15) (bits w 14 10))
  | 0x05 => some (.mvacc k (bits w 21 19) (bits w 18 15) (bits w 14 10))
  | _ => none

/-- The word of slot `no` (0 C, 1 L, 2 V, 3 M) of a bundle (R189). -/
def slotWord (bundle no : Nat) : Nat := bits bundle (32 * no + 31) (32 * no)

/-- The instruction that slot `no` of a bundle spells for a coach (R189): its PS and PN are those of the slot's frame. -/
def decodeSlot (no : Nat) (k : Slot) (w : Nat) : Option Instr :=
  if k.ps ≠ bits w 25 23 ∨ k.pn ≠ bit w 22 then none
  else match no with
    | 0 => decodeC k w
    | 1 => decodeL k w
    | 2 => decodeV k w
    | _ => decodeM k w

/-- The command that the `nbits` bits of `w` spell by the opcode table: none, since no row gives bits. -/
def decodeTableWord (_nbits _w : Nat) : Option Instr := none

end Sys2Proof
end

