-- ==== Sys2Proof/Config.lean ====
section
/-!
DEFINITION. Config.lean: the free values of the model. Each is opaque: nothing in Lean can tell its value. Functions
of an epoch (a counter in the state) give a fresh value each time.
-/
namespace Sys2Proof.Config

/-- Spare blocks left in the flash as shipped (R497, R517): the spec gives no number. -/
opaque spareBlocks : Nat
/-- Blocks in the erased reserve as shipped (R497). -/
opaque erasedBlocks : Nat
/-- A byte of memory that nothing has written (R479, R9), by epoch and device address. -/
opaque freeByte : Nat → Nat → Byte
/-- An undefined 32-bit element (R9), by epoch and place. -/
opaque freeWord : Nat → Nat → W32
/-- An undefined code or small number (R9), by epoch and place. -/
opaque freeNat : Nat → Nat → Nat
/-- Byte `i` of digest number `k` of R602 and R603, over the image with content number `c`. -/
opaque digest : Nat → Nat → Nat → Byte
/-- Byte `i` of the public alias key (k = 0) or of the alias certificate (k = 1) that the device secret and the measurement of
the image with content number `c` give (R601). -/
opaque aliasByte : Nat → Nat → Nat → Byte
/-- Routing identifier of PF0 (R79): the host's enumeration gives it. -/
opaque pf0Rid : Nat
/-- Highest rate in tenths of GT/s and highest width that the host's side of the link supports, and its Flit mode (R77, R78). -/
opaque hostRate : Nat
opaque hostWidth : Nat
opaque hostFlit : Bool
/-- Jegrasia's PCI-SIG Vendor ID (R81): the spec does not give the number. -/
opaque vendorId : Nat
/-- Bits that the boundary-scan chain shifts out in operation number n (R662). -/
opaque scanBits : Nat → W64
/-- Which of the results within the bound of R250 a VFUNC gives: by function and input alone. -/
opaque funcPick : Nat → W32 → Nat
/-- Header and relay table fields of a kernel of the signed firmware image (R186), by KERNEL_ID and place: the image's
content is no part of the spec. -/
opaque fwKernel : Nat → Nat → Nat
/-- What the largest count of a step takes beyond the terms that the spec gives in closed form (R156), in ungated CCLK: the unit's
reads of a model or of grammar tables, whose number the spec does not give. By opcode and entries of its input. -/
opaque stepExcess : Nat → Nat → Nat
/-- The collectives of a sliced PREFILL (R431, R565), which are the generator's kernels' matter: by object and tokens, for each its
operation, payload bytes, bytes read and bytes written. -/
opaque prefillColls : Nat → Nat → List (Nat × Nat × Nat × Nat)
/-- Key and value bytes of a block after packing to MXFP4 and unpacking (R171): the spec fixes no scale of a packed group. By
whether elements take 16 bits, and the bytes before. -/
opaque mxRound : Bool → List Byte → List Byte
/-- XSCALE of a sampling at temperature τ (R415): log2(e) / τ, whose rounding to F32 the spec does not give. -/
opaque sampleScale : W32 → W32
/-- Key and value bytes that the replay of a token log writes (R172), by generator and position. -/
opaque replayKv : Nat → Nat → List Byte
/-- Projections of the replayed keys (R407). -/
opaque replayDots : Nat → Nat → List (List W32)
/-- Token, key and value bytes of a position in a slice record (R409): this member's own kernels compute them. -/
opaque sliceKv : Nat → Nat → Nat × List Byte
/-- What a tile task of a step that is done by a unit of this module declares as its delivered CCLK (R159). -/
opaque fwCclk : Nat → Nat

end Sys2Proof.Config
end

