-- ==== Sys2Proof/Machine/Numbers.lean ====
section
/-!
DEFINITION. Machine/Numbers.lean: number formats, rounding and conversions (R240 to R250), and F32 arithmetic. A value is
read as an exact dyadic number, computed exactly and rounded once.
-/
namespace Sys2Proof.Machine

/-- The value of an element: NaN, an infinity, or sign × m × 2^e. -/
inductive Num
  | nan
  | inf (neg : Bool)
  | fin (neg : Bool) (m : Nat) (e : Int)
deriving DecidableEq, Repr

def Num.isNan : Num → Bool
  | .nan => true
  | _ => false

def Num.isInf : Num → Bool
  | .inf _ => true
  | _ => false

/-! ### Formats (R240) -/

/-- Special codes of a format. -/
inductive Special
  /-- Exponent all ones: infinity and NaN. -/
  | ieee
  /-- NaN only, at all ones (E4M3). -/
  | nanOnly
  /-- None (E2M1). -/
  | absent
deriving DecidableEq, Repr

/-- A floating-point format: exponent and fraction bits, bias, special codes. -/
structure Fmt where
  eb : Nat
  fb : Nat
  bias : Nat
  special : Special
deriving DecidableEq, Repr

def fp32 : Fmt := ⟨8, 23, 127, .ieee⟩
def bf16 : Fmt := ⟨8, 7, 127, .ieee⟩
def fp16 : Fmt := ⟨5, 10, 15, .ieee⟩
def e4m3 : Fmt := ⟨4, 3, 7, .nanOnly⟩
def e5m2 : Fmt := ⟨5, 2, 15, .ieee⟩
def e2m1 : Fmt := ⟨2, 1, 1, .absent⟩

def Fmt.signBit (f : Fmt) : Nat := 2 ^ (f.eb + f.fb)

/-- Encoding of the largest finite magnitude. -/
def Fmt.maxEnc (f : Fmt) : Nat :=
  match f.special with
  | .ieee => (2 ^ f.eb - 1) * 2 ^ f.fb - 1
  | .nanOnly => 2 ^ (f.eb + f.fb) - 2
  | .absent => 2 ^ (f.eb + f.fb) - 1

/-- The default NaN. -/
def Fmt.nanEnc (f : Fmt) : Nat :=
  match f.special with
  | .ieee => (2 ^ f.eb - 1) * 2 ^ f.fb + 2 ^ (f.fb - 1)
  | .nanOnly => 2 ^ (f.eb + f.fb) - 1
  | .absent => 0

def Fmt.infEnc (f : Fmt) : Nat := (2 ^ f.eb - 1) * 2 ^ f.fb

/-- The value of a code. -/
def Fmt.read (f : Fmt) (c : Nat) : Num :=
  let neg := bit c (f.eb + f.fb)
  let ex := c / 2 ^ f.fb % 2 ^ f.eb
  let fr := c % 2 ^ f.fb
  let emin : Int := 1 - (f.bias : Int) - (f.fb : Int)
  let val : Num := if ex = 0 then .fin neg fr emin else .fin neg (2 ^ f.fb + fr) (emin + (ex : Int) - 1)
  match f.special with
  | .ieee => if ex = 2 ^ f.eb - 1 then (if fr = 0 then .inf neg else .nan) else val
  | .nanOnly => if c % f.signBit = f.signBit - 1 then .nan else val
  | .absent => val

/-! ### Rounding (R244) -/

/-- m / 2^s rounded to nearest with ties to even, or toward zero; `sticky` says that the exact value lies strictly
above m by less than one of its units. -/
def shiftRound (rz : Bool) (m s : Nat) (sticky : Bool) : Nat :=
  let q := m / 2 ^ s
  if rz || s = 0 then q
  else
    let r := m % 2 ^ s
    let half := 2 ^ (s - 1)
    if half < r ∨ (r = half ∧ (sticky ∨ q % 2 = 1)) then q + 1 else q

/-- A magnitude m × 2^e in a format whose exponent range had no upper end: encoding (exponent and fraction fields in one
number). Subnormal results keep their fewer bits (R241). -/
def Fmt.roundMag (f : Fmt) (rz : Bool) (m : Nat) (e : Int) (sticky : Bool) : Nat :=
  if m = 0 then 0
  else
    let emin : Int := 1 - (f.bias : Int)
    let top : Int := max (e + (Nat.log2 m : Int)) emin
    let ulp : Int := top - (f.fb : Int)
    let sig := if ulp ≤ e then m * 2 ^ (e - ulp).toNat else shiftRound rz m (ulp - e).toNat sticky
    (top - emin).toNat * 2 ^ f.fb + sig

/-- m × 2^e is at least (or above, `strict`) M × 2^E. -/
def geDyadic (strict : Bool) (m : Nat) (e : Int) (bm : Nat) (be : Int) : Bool :=
  let lo := min e be
  let x := m * 2 ^ (e - lo).toNat
  let y := bm * 2 ^ (be - lo).toNat
  if strict then decide (y < x) else decide (y ≤ x)

/-- A magnitude lies out of range of the format (R246): at least the largest finite value plus half a unit in its last
place under nearest-even, above the largest finite value toward zero. -/
def Fmt.overflows (f : Fmt) (rz : Bool) (m : Nat) (e : Int) : Bool :=
  match f.read f.maxEnc with
  | .fin _ bm be => if rz then geDyadic true m e bm be else geDyadic false m e (2 * bm + 1) (be - 1)
  | _ => false

/-- Code and overflow of a value rounded once; an overflowing sum becomes an infinity (R255, F32 results). -/
def Fmt.round (f : Fmt) (neg : Bool) (m : Nat) (e : Int) (sticky : Bool) : Nat :=
  let mag := f.roundMag false m e sticky
  (if neg then f.signBit else 0) + (if f.maxEnc < mag then f.infEnc else mag)

/-- The F32 word of a value, rounded to nearest. -/
def Num.toF32 (x : Num) : W32 :=
  match x with
  | .nan => BitVec.ofNat 32 fp32.nanEnc
  | .inf n => BitVec.ofNat 32 ((if n then fp32.signBit else 0) + fp32.infEnc)
  | .fin n m e => BitVec.ofNat 32 (fp32.round n m e false)

def f32 (w : W32) : Num := fp32.read w.toNat

/-! ### Exact arithmetic on values -/

/-- Sum (R248): opposite infinities give NaN; an exact zero sum is +0 unless both operands are −0. -/
def Num.add (x y : Num) : Num :=
  match x, y with
  | .nan, _ => .nan
  | _, .nan => .nan
  | .inf a, .inf b => if a = b then .inf a else .nan
  | .inf a, .fin _ _ _ => .inf a
  | .fin _ _ _, .inf b => .inf b
  | .fin a m e, .fin b n g =>
    let lo := min e g
    let p := m * 2 ^ (e - lo).toNat
    let q := n * 2 ^ (g - lo).toNat
    if m = 0 ∧ n = 0 then .fin (a && b) 0 lo
    else if a = b then .fin a (p + q) lo
    else if p = q then .fin false 0 lo
    else if q < p then .fin a (p - q) lo
    else .fin b (q - p) lo

def Num.neg (x : Num) : Num :=
  match x with
  | .nan => .nan
  | .inf a => .inf (!a)
  | .fin a m e => .fin (!a) m e

/-- Product (R248): zero times infinity gives NaN. -/
def Num.mul (x y : Num) : Num :=
  match x, y with
  | .nan, _ => .nan
  | _, .nan => .nan
  | .inf a, .inf b => .inf (a != b)
  | .inf a, .fin b n _ => if n = 0 then .nan else .inf (a != b)
  | .fin a m _, .inf b => if m = 0 then .nan else .inf (a != b)
  | .fin a m e, .fin b n g => .fin (a != b) (m * n) (e + g)

/-- Value times 2^k. -/
def Num.scale (x : Num) (k : Int) : Num :=
  match x with
  | .fin a m e => .fin a m (e + k)
  | y => y

/-- x < y on values that are no NaN; −0 equals +0. -/
def Num.lt (x y : Num) : Bool :=
  match x, y with
  | .nan, _ => false
  | _, .nan => false
  | .inf a, .inf b => a && !b
  | .inf a, .fin _ _ _ => a
  | .fin _ _ _, .inf b => !b
  | .fin a m e, .fin b n g =>
    let lo := min e g
    let p : Int := (m * 2 ^ (e - lo).toNat : Nat)
    let q : Int := (n * 2 ^ (g - lo).toNat : Nat)
    decide ((if a then -p else p) < (if b then -q else q))

/-! ### F32 operations with one rounding -/

def addF32 (x y : W32) : W32 := ((f32 x).add (f32 y)).toF32
def subF32 (x y : W32) : W32 := ((f32 x).add (f32 y).neg).toF32
def mulF32 (x y : W32) : W32 := ((f32 x).mul (f32 y)).toF32
/-- d + a × b, exact, rounded once. -/
def fmaF32 (d a b : W32) : W32 := ((f32 d).add ((f32 a).mul (f32 b))).toF32

/-- x / y correctly rounded (R258), for a finite x and a finite y that is no zero. -/
def divF32 (x y : W32) : W32 :=
  match f32 x, f32 y with
  | .fin a m e, .fin b n g =>
    let num := m * 2 ^ 64
    let q := num / n
    BitVec.ofNat 32 (fp32.round (a != b) (2 * q + (if num % n = 0 then 0 else 1)) (e - g - 65) (num % n != 0))
  | .nan, _ => BitVec.ofNat 32 fp32.nanEnc
  | _, .nan => BitVec.ofNat 32 fp32.nanEnc
  | .inf _, .inf _ => BitVec.ofNat 32 fp32.nanEnc
  | .inf a, .fin b _ _ => (Num.inf (a != b)).toF32
  | .fin a _ _, .inf b => (Num.fin (a != b) 0 0).toF32

/-- −0 before +0 (R249). -/
def orderF32 (w : W32) : Int :=
  let v := w.toNat
  if v < 2 ^ 31 then (v : Int) else -1 - ((v - 2 ^ 31 : Nat) : Int)

def maxF32 (x y : W32) : W32 :=
  if (f32 x).isNan || (f32 y).isNan then BitVec.ofNat 32 fp32.nanEnc else if orderF32 x < orderF32 y then y else x

def minF32 (x y : W32) : W32 :=
  if (f32 x).isNan || (f32 y).isNan then BitVec.ofNat 32 fp32.nanEnc else if orderF32 y < orderF32 x then y else x

/-- A natural number as F32. -/
def natF32 (n : Nat) : W32 := (Num.fin false n 0).toF32

/-- An integer as F32 (R245). -/
def intF32 (i : Int) : W32 := (Num.fin (decide (i < 0)) i.natAbs 0).toF32

/-! ### Conversions (R245, R246) -/

/-- A conversion's result with its flags NAN_MADE, INF_MADE, SAT from bit 2. -/
structure Conv where
  val : Nat
  flags : BitVec 3
deriving DecidableEq, Repr

def flagNan : BitVec 3 := 4
def flagInf : BitVec 3 := 2
def flagSat : BitVec 3 := 1

/-- FP32 into a narrow floating-point format (R246). -/
def Fmt.convert (f : Fmt) (rz : Bool) (x : Num) : Conv :=
  let sgn := fun (n : Bool) => if n then f.signBit else 0
  match x with
  | .nan => if f.special = .absent then ⟨0, flagSat⟩ else ⟨f.nanEnc, 0⟩
  | .inf n => if f.special = .ieee then ⟨sgn n + f.infEnc, 0⟩ else ⟨sgn n + f.maxEnc, flagSat⟩
  | .fin n m e =>
    if f.overflows rz m e then
      if f.special = .ieee then (if rz then ⟨sgn n + f.maxEnc, 0⟩ else ⟨sgn n + f.infEnc, flagInf⟩)
      else ⟨sgn n + f.maxEnc, flagSat⟩
    else ⟨sgn n + f.roundMag rz m e false, 0⟩

/-- FP32 to E8M0 (R244, R246): floor of the base-2 logarithm. -/
def toE8m0 (x : Num) : Conv :=
  match x with
  | .nan => ⟨0xFF, 0⟩
  | .inf _ => ⟨0xFE, flagSat⟩
  | .fin _ m e =>
    if m = 0 then ⟨0, flagSat⟩
    else
      let k := e + (Nat.log2 m : Int) + 127
      if k < 0 then ⟨0, flagSat⟩ else if 254 < k then ⟨0xFE, flagSat⟩ else ⟨k.toNat, 0⟩

/-- A value rounded to an integer. -/
def Num.toInt (rz : Bool) (neg : Bool) (m : Nat) (e : Int) : Int :=
  let mag : Nat := if 0 ≤ e then m * 2 ^ e.toNat else shiftRound rz m (-e).toNat false
  if neg then -(mag : Int) else mag

/-- FP32 to an integer of a range, as `w` bits (R246). -/
def toIntConv (rz : Bool) (lo hi : Int) (w : Nat) (x : Num) : Conv :=
  let pack := fun (i : Int) => (i % (2 ^ w : Nat)).toNat
  match x with
  | .nan => ⟨0, flagSat⟩
  | .inf n => ⟨pack (if n then lo else hi), flagSat⟩
  | .fin n m e =>
    let i := Num.toInt rz n m e
    if i < lo then ⟨pack lo, flagSat⟩ else if hi < i then ⟨pack hi, flagSat⟩ else ⟨pack i, 0⟩

/-- A conversion code's result for one lane (R245). -/
def convertLane (rz : Bool) (fn : Nat) (w : W32) : Conv :=
  let x := f32 w
  let v := w.toNat
  let up := fun (n : Num) => (⟨(n.toF32).toNat, 0⟩ : Conv)
  match fn with
  | 0x00 => bf16.convert rz x
  | 0x01 => fp16.convert rz x
  | 0x02 => e4m3.convert rz x
  | 0x03 => e5m2.convert rz x
  | 0x04 => e2m1.convert rz x
  | 0x05 => toE8m0 x
  | 0x10 => up (bf16.read (v % 65536))
  | 0x11 => up (fp16.read (v % 65536))
  | 0x12 => up (e4m3.read (v % 256))
  | 0x13 => up (e5m2.read (v % 256))
  | 0x14 => up (e2m1.read (v % 16))
  | 0x15 => up (if v % 256 = 255 then .nan else .fin false 1 ((v % 256 : Nat) - 127))
  | 0x20 => toIntConv rz (-2147483648) 2147483647 32 x
  | 0x21 => toIntConv rz (-128) 127 8 x
  | 0x30 => let i := w.toInt
            ⟨(BitVec.ofNat 32 ((if decide (i < 0) then fp32.signBit else 0) + fp32.roundMag rz i.natAbs 0 false)).toNat, 0⟩
  | 0x31 => up (let i : Int := (BitVec.ofNat 8 v).toInt
                .fin (decide (i < 0)) i.natAbs 0)
  | 0x40 => toIntConv rz 0 4294967295 32 x
  | 0x50 => ⟨fp32.roundMag rz v 0 false, 0⟩
  | _ => ⟨0, 0⟩

/-- A conversion code of R245. -/
def convCode (fn : Nat) : Bool :=
  [0x00, 0x01, 0x02, 0x03, 0x04, 0x05, 0x10, 0x11, 0x12, 0x13, 0x14, 0x15, 0x20, 0x21, 0x30, 0x31, 0x40, 0x50].contains fn

/-! ### VFUNC (R250)

The spec bounds a result by units in the last place. The magnitudes within the bound are found exactly, and one of them is
taken by a free value of the input alone (Config.funcPick). -/

/-- Integer square root by bits, `n` of them. -/
def isqrt : Nat → Nat → Nat → Nat
  | 0, _, r => r
  | n + 1, v, r => if (r + 2 ^ n) * (r + 2 ^ n) ≤ v then isqrt n v (r + 2 ^ n) else isqrt n v r

/-- The value of a finite F32 magnitude in units of 2^g, g at most −149; infinity counts as 2^128. -/
def encValue (g : Int) (x : Nat) : Nat :=
  match fp32.read x with
  | .fin _ m e => m * 2 ^ (e - g).toNat
  | _ => 2 ^ (128 - g).toNat

/-- Encodings of F32 magnitudes within `k` units of m × 2^e (`sticky`: strictly above it, by less than its unit). -/
def nearEncs (k m : Nat) (e : Int) (sticky : Bool) : List Nat :=
  let lo := min (fp32.roundMag true m e sticky) (fp32.infEnc)
  if lo = fp32.infEnc then [lo]
  else
    -- the unit in the last place of the exact result, as a power of two
    let ulp : Int := max (e + (Nat.log2 m : Int) - 23) (-149)
    let g : Int := min e (min ulp (-149))
    let exact := m * 2 ^ (e - g).toNat
    let slack := if sticky then 2 ^ (e - g).toNat else 0
    let bound := k * 2 ^ (ulp - g).toNat
    let from_ := lo - 2 * k
    let to_ := min (lo + k) fp32.infEnc
    ((List.range (to_ + 1 - from_)).map (from_ + ·)).filter fun x =>
      let v := encValue g x
      decide (v ≤ exact + slack + bound) && decide (exact ≤ v + bound)

/-- One of the admitted magnitudes. -/
def pickFunc (fn : Nat) (w : W32) (neg : Bool) (l : List Nat) : W32 :=
  let v := l.getD (Config.funcPick fn w % max l.length 1) 0
  BitVec.ofNat 32 ((if neg then fp32.signBit else 0) + v)

/-- 2^(−i) roots of two in 96-bit fixed point, from sqrt 2 on. -/
def twoRoots : Nat → Nat → List Nat
  | 0, _ => []
  | n + 1, r =>
    let s := isqrt 97 (r * 2 ^ 96) 0
    s :: twoRoots n s

/-- 2^f × 2^96 for a fraction f given by its 64 leading bits. -/
def exp2Frac (f : Nat) : Nat :=
  ((twoRoots 64 (2 ^ 97)).zipIdx).foldl (fun acc p => if bit f (63 - p.2) then acc * p.1 / 2 ^ 96 else acc) (2 ^ 96)

/-- log2 of a mantissa in [1, 2), given × 2^96: its next `n` bits, as a number. -/
def log2Frac : Nat → Nat → Nat → Nat
  | 0, _, acc => acc
  | n + 1, x, acc =>
    let y := x * x / 2 ^ 96
    if 2 ^ 97 ≤ y then log2Frac n (y / 2) (2 * acc + 1) else log2Frac n y (2 * acc)

def exp2F32 (w : W32) : W32 :=
  match f32 w with
  | .nan => BitVec.ofNat 32 fp32.nanEnc
  | .inf n => if n then 0 else (Num.inf false).toF32
  | .fin n m e =>
    if m = 0 then natF32 1
    else if geDyadic false m e (if n then 256 else 128) 0 then (if n then pickFunc 0 w false [0, 1, 2] else (Num.inf false).toF32)
    else
      -- the input as an integer and a fraction of 64 bits
      let fx : Nat := if 0 ≤ e + 64 then m * 2 ^ (e + 64).toNat else m / 2 ^ (-(e + 64)).toNat
      let lost := decide (e + 64 < 0) && m % 2 ^ (-(e + 64)).toNat != 0
      let i : Int := if n then -((fx : Int)) - (if lost then 1 else 0) else fx
      let ip := i / (2 ^ 64 : Nat)
      let fp := (i % (2 ^ 64 : Nat)).toNat
      if fp = 0 ∧ !lost then BitVec.ofNat 32 (fp32.round false 1 ip false)
      else pickFunc 0 w false (nearEncs 2 (exp2Frac fp) (ip - 96) true)

def log2F32 (w : W32) : W32 :=
  match f32 w with
  | .nan => BitVec.ofNat 32 fp32.nanEnc
  | .inf n => if n then BitVec.ofNat 32 fp32.nanEnc else (Num.inf false).toF32
  | .fin n m e =>
    if m = 0 then (Num.inf true).toF32
    else if n then BitVec.ofNat 32 fp32.nanEnc
    else
      let k := Nat.log2 m
      let ip : Int := e + (k : Int)
      let frac := log2Frac 72 (m * 2 ^ (96 - k)) 0
      if m = 2 ^ k then
        (if ip = 0 then 0
         else pickFunc 1 w (decide (ip < 0)) (nearEncs 2 ip.natAbs 0 false))
      else
        let v : Int := ip * (2 ^ 72 : Nat) + frac
        -- a negative value's magnitude lies strictly below −v
        if 0 ≤ v then pickFunc 1 w false (nearEncs 2 v.natAbs (-72) true)
        else pickFunc 1 w true (nearEncs 2 (v.natAbs - 1) (-72) true)

def rcpF32 (w : W32) : W32 :=
  match f32 w with
  | .nan => BitVec.ofNat 32 fp32.nanEnc
  | .inf n => (Num.fin n 0 0).toF32
  | .fin n m e =>
    if m = 0 then (Num.inf n).toF32
    else pickFunc 2 w n (nearEncs 1 (2 ^ 96 / m) (-96 - e) (2 ^ 96 % m != 0))

def rsqrtF32 (w : W32) : W32 :=
  match f32 w with
  | .nan => BitVec.ofNat 32 fp32.nanEnc
  | .inf n => if n then BitVec.ofNat 32 fp32.nanEnc else 0
  | .fin n m e =>
    if m = 0 then (Num.inf n).toF32
    else if n then BitVec.ofNat 32 fp32.nanEnc
    else
      -- 1 / sqrt(m × 2^e) = sqrt(2^200 / m') × 2^(−100 − e'/2) with e' even
      let m' := if e % 2 = 0 then m else 2 * m
      let e' := if e % 2 = 0 then e else e - 1
      let q := 2 ^ 200 / m'
      let r := isqrt 101 q 0
      pickFunc 3 w false (nearEncs 1 r (-100 - e' / 2) (r * r * m' != 2 ^ 200))

/-! ### Matrix accumulation (R252 to R256) -/

/-- A chunk sum in the short format: 16-bit significand, no exponent limits, nearest with ties to even. -/
def Num.short (x : Num) : Num :=
  match x with
  | .fin n m e =>
    let len := Nat.log2 m + 1
    if len ≤ 16 then .fin n m e
    else .fin n (shiftRound false m (len - 16) false) (e + ((len - 16 : Nat) : Int))
  | y => y

/-- Sum of one chunk's products, in array-row order. -/
def chunkSum : List Num → Num
  | [] => .fin false 0 0
  | p :: ps => ps.foldl (fun acc q => (acc.add q).short) p.short

/-- A column: chunk sums, each with its scale, promoted in order (R255). -/
def promote : List Num → W32
  | [] => 0
  | c :: cs => cs.foldl (fun (acc : W32) d => ((f32 acc).add d).toF32) c.toF32

/-- Split a list into runs of `n`. -/
def chunks {α : Type} (n : Nat) (l : List α) : List (List α) :=
  (List.range (ceilDiv l.length (max n 1))).map fun i => (l.drop (max n 1 * i)).take (max n 1)

/-! ### Reductions (R257 to R259) -/

/-- One level of the tree: neighbours added. -/
def treeLevel : List W32 → List W32
  | x :: y :: rest => addF32 x y :: treeLevel rest
  | l => l

/-- The fixed binary tree over 64 lanes. -/
def treeSum (l : List W32) : W32 :=
  ((List.range 6).foldl (fun acc _ => treeLevel acc) l).headD 0

end Sys2Proof.Machine
end

