-- ==== Sys2Proof/Machine/Codes.lean ====
section
/-!
DEFINITION. Machine/Codes.lean: the status codes of R107 and their names, origin by origin, and which of them are
qualified or halting (R133).
-/
namespace Sys2Proof.Machine.Codes

def ok : Code := 0x0000
def badRsvd : Code := 0x0001
def badRecord : Code := 0x0002
def badContext : Code := 0x0003
def contextBusy : Code := 0x0004
def dmaError : Code := 0x0005
def conflict : Code := 0x0006
def notPermitted : Code := 0x0007
def badTarget : Code := 0x0008
def badOrder : Code := 0x0009
def badRoute : Code := 0x0101
def routeInvalid : Code := 0x0102
def routeBusy : Code := 0x0103
def notResumable : Code := 0x0104
def contextInUse : Code := 0x0105
def contextNotAlloc : Code := 0x0106
def contextFreed : Code := 0x0107
def yielded : Code := 0x0108
def listKind : Code := 0x0109
def outTrunc : Code := 0x010A
def noOutbuf : Code := 0x010B
def tpDeny : Code := 0x0201
def tpQueued : Code := 0x0202
def budgetSpent : Code := 0x0203
def recomputed : Code := 0x0204
def kernelBad : Code := 0x0301
def sramRange : Code := 0x0302
def misaligned : Code := 0x0303
def operandRange : Code := 0x0304
def xlateFault : Code := 0x0305
def outputRange : Code := 0x0306
def tagState : Code := 0x0307
def relayOverdue : Code := 0x0308
def relayMissing : Code := 0x0309
def deferPlace : Code := 0x030A
def tendCode : Code := 0x030B
def short : Code := 0x0401
def vectorMismatch : Code := 0x0402
def shardAccess : Code := 0x0403
def shardClosed : Code := 0x0404
def shardBad : Code := 0x0405
def shardInUse : Code := 0x0406
def shardBusy : Code := 0x0407
def stageBad : Code := 0x0408
def epochSpent : Code := 0x0409
def setBad : Code := 0x040A
def shardUnreachable : Code := 0x040B
def tooLong : Code := 0x0501
def kRange : Code := 0x0502
def sluOperand : Code := 0x0503
def stateBad : Code := 0x0504
def targetRange : Code := 0x0505
def sluXlate : Code := 0x0506
def listTableBad : Code := 0x0507
def templateBad : Code := 0x0601
def budgetSmall : Code := 0x0602
def packTrunc : Code := 0x0603
def cacheFull : Code := 0x0604
def fusionBad : Code := 0x0605
def modelMismatch : Code := 0x0606
def truncated : Code := 0x0701
def modelBad : Code := 0x0702
def noVocab : Code := 0x0703
def tokenRange : Code := 0x0704
def stopsBad : Code := 0x0705
def stopped : Code := 0x0706
def grammarBad : Code := 0x0707
def tokenRejected : Code := 0x0708
def reinsOperand : Code := 0x0709
def grammarDead : Code := 0x070A
def forcedEnd : Code := 0x070B
def ctxFull : Code := 0x0801
def noNext : Code := 0x0802
def genMismatch : Code := 0x0803
def draftBad : Code := 0x0804
def ctxLimit : Code := 0x0805
def adapterBad : Code := 0x0806
def adapterBusy : Code := 0x0807
def noToken : Code := 0x0808
def gtuTableBad : Code := 0x0901
def gtuWrongUnit : Code := 0x0902
def gtuOperand : Code := 0x0903
def gtuTarget : Code := 0x0904
def gtuXlate : Code := 0x0905
def gtuCountMismatch : Code := 0x0906
def gtuNoUpdate : Code := 0x0907
def mtQuotaHbm : Code := 0x0A01
def mtQuotaDdr : Code := 0x0A02
def mtQuotaPages : Code := 0x0A03
def mtQuotaSlots : Code := 0x0A04
def mtNoSpace : Code := 0x0A05
def noObject : Code := 0x0A06
def objInUse : Code := 0x0A07
def objBad : Code := 0x0A08
def mtHint : Code := 0x0A09
def mtOperand : Code := 0x0A0A
def mtTenantOff : Code := 0x0A0B
def sbRo : Code := 0x0B01
def sbFull : Code := 0x0B02
def sbMapFull : Code := 0x0B03
def sbNotHeld : Code := 0x0B04
def sbLost : Code := 0x0B05
def sbSlotRange : Code := 0x0B06
def sbOperand : Code := 0x0B07
def drOperand : Code := 0x0C01
def drSpace : Code := 0x0C02
def drTarget : Code := 0x0C03
def drXlate : Code := 0x0C04
def drFenced : Code := 0x0C05
def cbTimeout : Code := 0x0D01
def teamLost : Code := 0x0D02
def cbDescBad : Code := 0x0D03
def cbMismatch : Code := 0x0D04
def cbCidBusy : Code := 0x0D05
def cbNoTeam : Code := 0x0D06
def cbDirDown : Code := 0x0D07
def secTenantOn : Code := 0x0E01
def tenantNotOn : Code := 0x0E02
def tenantClosed : Code := 0x0E03
def secRange : Code := 0x0E04
def secDtid : Code := 0x0E05
def secDtidMismatch : Code := 0x0E06
def secKeyFail : Code := 0x0E07
def secDebug : Code := 0x0E08
def secDebugBad : Code := 0x0E09
def memPoison : Code := 0x0F01
def memLost : Code := 0x0F02
def ctxLost : Code := 0x0F03
def unitFenced : Code := 0x0F04
def fenceTest : Code := 0x0F05
def fencePending : Code := 0x0F06
def fenceState : Code := 0x0F07
def deferred : Code := 0x0F08
def updNone : Code := 0x0F09
def updBad : Code := 0x0F0A
def updBusy : Code := 0x0F0B
def ostMainOff : Code := 0x0F0C
def testFail : Code := 0x0F0D
def testLive : Code := 0x0F0E
def testKind : Code := 0x0F0F

/-- A route goes on after these codes (R133): OK and every code marked qualified in its chapter (kernel codes: R214). -/
def continues (c : Code) : Bool :=
  [ok, outTrunc, noOutbuf, recomputed, short, packTrunc, truncated, stopped, forcedEnd, ctxLimit, sbNotHeld].contains c ||
    decide (0x380 ≤ c.toNat ∧ c.toNat ≤ 0x3BF)

/-- A route halts on these codes (R133, R403, R581). -/
def halts (c : Code) : Bool := [grammarDead, teamLost].contains c

/-- The code without a kernel's end code 0 reading as a number: low 16 bits of a TEND operand (R107). -/
def ofNat (n : Nat) : Code := BitVec.ofNat 16 n

end Sys2Proof.Machine.Codes
end

