-- ==== Sys2Proof/Machine/State.lean ====
section
/-!
DEFINITION. Machine/State.lean: everything the spec gives the FX-9420, as plain data, and its value after reset.
Each group of fields stands in a structure of its own, named after the unit that holds it; numbered things
(pages, tenants, contexts, coaches, objects, shards, ports, dies) stand in sorted tables whose unlisted entries
read as the default named beside them. A `W1C`, `RC` or `RO` register of the spec that only shows other state is
computed from that state (Machine/Registers.lean) and has no field here.
-/
namespace Sys2Proof.Machine

/-! ### Clocks, reset and bring-up (03_clocks_reset.md) -/

/-- The bring-up stages of R67 and R76, `mapLoad` standing for stage 0x5. -/
inductive Stage
  | held | pllLock | fwLoad | train | selftest | mapLoad | localReady | teamJoin | ready | test | failed
deriving DecidableEq, Repr

/-- The kinds of main reset (R61), widest first, and none of the function-level kind. -/
inductive ResetKind
  | aoPowerOn | mainPowerOn | fundamental | warm
deriving DecidableEq, Repr

/-- J1, J15 and the clock and reset block (R41, R42, R58 to R76). -/
structure Clk where
  /-- J1 is in range and the always-on domain runs (R42). -/
  j1Up : Bool
  /-- Main conversion runs (R42). -/
  mainOn : Bool
  /-- Level of MATE_N is low: seated (R42, R47). -/
  mated : Bool
  /-- Level of PERST_N is high (R47, R66). -/
  perstHigh : Bool
  /-- Straps as sampled: BOOT1, BOOT0, SOLO, TPOS2 to TPOS0 from the high bit (R50, R74). -/
  straps : BitVec 6
  /-- HUB_RESET_CAUSE [7:0] (R75), sticky. -/
  cause : Byte
  /-- HUB_BRINGUP.STAGE (R76). -/
  stage : Stage
  /-- The main reset whose bring-up is in progress (R63). -/
  resetting : Option ResetKind
  /-- TRAIN runs in full: an AO power-on came before (R61). -/
  cold : Bool
  /-- SELFTEST has ended; MAP_LOAD runs beside it (R67). -/
  selftestDone : Bool
  /-- MAP_LOAD has ended. -/
  mapDone : Bool
  /-- TICK at which main conversion started (R66). -/
  convTick : Nat
  /-- TICK at which the R66 timeline began, none before it begins; HUB_BRINGUP.ELAPSED counts from it. -/
  startTick : Option Nat
  /-- TICK at which LOCAL_READY ended; JOIN_LATE counts from it (R71). -/
  localReadyTick : Nat
  /-- HUB_BRINGUP flags (R76). -/
  rebuild : Bool
  joinLate : Bool
  journal : Bool
  /-- HUB_CLK_STATUS (R73); `refNow` says that REF_LOST was set in this CCLK (R11). -/
  refLost : Bool
  refNow : Bool
  slewing : Bool
  holdover : Bool
  locked : Bool
  refSrc : BitVec 4
  /-- The Ostler runs on OCLK, not on REFCLK (R55). -/
  onOclk : Bool
  /-- The J15 REFCLK is gone and stage HELD waits for it (R60). -/
  waitRef : Bool
  /-- A warm module reset took effect in this CCLK (R667). -/
  resetNow : Bool
  /-- Ungated CCLK since the master PLL first locked: the module's time base. -/
  cclk : Nat
  /-- CCLK delivered to the coaches, skipped cycles not counted (R12, R626). -/
  delivered : Nat
  /-- Device Readiness Status sent since the start of R66 (R80). -/
  drsSent : Bool
deriving DecidableEq, Repr

/-! ### Management flash, Ostler, log (22_ostler.md) -/

/-- A firmware image area of the management flash (R599, R636). -/
structure Image where
  /-- The signature verifies against a key fixed in the boot ROM (R599). -/
  sigOk : Bool
  /-- Security version number. -/
  svn : W32
  /-- Length in bytes. -/
  len : Nat
  /-- It is a production test image (R663). -/
  testImage : Bool
  /-- Number that stands for the image's content: what its SHA-384 measurement is of (R601, R603). -/
  content : Nat
deriving DecidableEq, Repr

/-- A log record (R639); its 64 bytes are `logBytes`. -/
structure LogRec where
  seq : Nat
  tick : Nat
  aoCount : Nat
  mainCount : Nat
  prog : Nat
  link : Nat
  cls : Nat
  severity : Nat
  code : Code
  unit : Option UnitId
  tenant : Option Nat
  linkValid : Bool
  data : Nat
deriving DecidableEq, Repr

/-- What the management flash holds (R636): kept through every reset. -/
structure Flash where
  /-- AO power-ons since manufacture (R639). -/
  aoCount : Nat
  /-- Roles: the areas (0 A, 1 B, 2 C) that are primary, backup and staging. -/
  primary : Nat
  backup : Nat
  staging : Nat
  /-- Roles before the activation under trial (R647). -/
  oldRoles : Option (Nat × Nat × Nat)
  images : Tab Image
  minSvn : W32
  /-- Fence record (R621). -/
  fences : List UnitId
  /-- Memory units to fence and to unfence at the next bring-up (R622), layout of HUB_FENCE_MEM. -/
  pendFence : W32
  pendUnfence : W32
  /-- Saved training values present (R61). -/
  training : Bool
  /-- Team configuration record (R557): module number and expected positions. -/
  teamModule : Nat
  teamExpected : Byte
  /-- Log ring (R640), oldest first, and the SEQ of the next record. -/
  log : List LogRec
  nextSeq : Nat
deriving DecidableEq, Repr

/-- Update states of R645. -/
inductive UpdState
  | idle | receiving | verifying | staged | activating
deriving DecidableEq, Repr

/-- One cage of J3 to J14 (R46, R642). -/
structure Cage where
  plugged : Bool
  watts : Nat
  /-- Held in low-power mode with its lanes disabled. -/
  lowPower : Bool
deriving DecidableEq, Repr

/-- An event the Ostler has still to write into the log (R640). -/
structure LogEvent where
  tick : Nat
  prog : Nat
  link : Option Nat
  cls : Nat
  severity : Nat
  code : Code
  unit : Option UnitId
  tenant : Option Nat
  data : Nat
  mainCount : Nat
deriving DecidableEq, Repr

/-- A self-test of a unit (R621, R657 to R660). -/
structure TestRun where
  unit : UnitId
  issuer : Issuer
  tag : W64
  /-- Started by UNFENCE, not by SELFTEST. -/
  unfence : Bool
  /-- The unit is withdrawn and the test itself runs (a coach is first saved, R658). -/
  started : Bool
  /-- TICK of the order; a coach test that cannot start within OST_CAL_CTRL.DEFER_MS of it is deferred (R658). -/
  due : Nat
  /-- Its issuer's ring went with a function-level reset: no reply is owed (R105, R117). -/
  silent : Bool
deriving DecidableEq, Repr

/-- The Ostler (R635 to R651), its registers and the test block (R664). -/
structure Ost where
  /-- TICK (R637) and the fifths of an OCLK beyond it. -/
  tick : Nat
  tickSub : Nat
  /-- Main bring-ups since the AO power-on (R639). -/
  mainCount : Nat
  nowLink : W64
  nowProg : W64
  logAck : W64
  logSel : W64
  logLost : W32
  /-- LOG_FULL not yet set since the last write of OST_LOG_ACK (R640). -/
  logFullArmed : Bool
  events : List LogEvent
  updState : UpdState
  updResult : Byte
  updSvn : W32
  updAddr : W64
  updLen : Nat
  /-- The transfer that runs was started by FETCH, so that it reads host memory (R645). -/
  updHost : Bool
  /-- The reply owed to UPDATE_ACTIVATE while ACTIVATING is decided by the reset (R647). -/
  calWithdraw : Nat
  calDeferMs : Nat
  calPeriod : Nat
  deferCount : W32
  /-- Slots used per channel (0 to 7 HBM, 8 to 31 DDR) in the current window of 500,000 OCLK, and the window. -/
  calWindow : Nat
  calUsed : Tab Nat
  /-- Coaches withdrawn for maintenance (R649), or whose withdrawal has been asked for. -/
  withdrawn : List Nat
  /-- Locate request (R51, R644). -/
  locate : Bool
  cages : Tab Cage
  tests : List TestRun
  /-- HUB_LB_CTRL, HUB_LB_STATUS, HUB_LB_ERR, HUB_TEST_LAST (R664, R665). -/
  lbCtrl : W64
  lbRefused : Bool
  /-- REFUSED was set in this CCLK (R11). -/
  lbRefusedNow : Bool
  lbLock : BitVec 16
  lbErr : W32
  /-- CCLK in which the Ostler last wrote HUB_LB_CTRL (R656). -/
  lbOstlerCclk : Option Nat
  testLast : W64
  /-- The host link's loopback follower is on (R654). -/
  follower : Bool
  /-- HUB_SCAN_CTRL and HUB_SCAN_DATA (R662), and how many scan operations have ended. -/
  scanBusy : Bool
  scanOp : Nat
  scanLen : Nat
  scanData : W64
  scanCount : Nat
deriving DecidableEq, Repr

/-! ### Reliability, fencing and power (21_reliability_power.md) -/

/-- Fences, error counts and the power controller. -/
structure Rel where
  /-- Fenced units (R618); HUB_FENCE_* show them. -/
  fenced : List UnitId
  /-- Correctable errors in the current period: coaches by number, memory units (0 to 7 HBM, 8 to 31 DDR). -/
  coachCe : Tab Nat
  memCe : Tab Nat
  /-- CCLK of each uncorrectable line of a memory unit (R616). -/
  uncorr : Tab (List Nat)
  ceLimitMem : Nat
  ceLimitCoach : Nat
  errCorr : W32
  errUncorr : W32
  /-- Poisoned 64-byte lines, by address / 64 (R612). -/
  poison : List Nat
  /-- The memory loss procedure has run and holds until a reset (R623). -/
  memLost : Bool
  sPower : Nat
  sThermal : Nat
  /-- The skip level in force, taken from the larger of the two at a period boundary (R626). -/
  skip : Nat
  capFail : Bool
  flowLow : Bool
  leak : Bool
  hot : Bool
  power : BitVec 16
  autoRestart : Bool
  capLimit : Nat
  /-- The limit that the controller uses: PWR_CAP as of its last interval (R632). -/
  limitNow : Nat
  vin : BitVec 16
  iin : BitVec 16
  sensorSel : BitVec 7
  sensors : Tab (BitVec 16)
  skipCount : W32
  lastShutdown : BitVec 16
  /-- Main conversion is off after a shutdown of R631; the cause of the next start is 0x06. -/
  shutHold : Bool
  shutTick : Nat
  /-- Intervals of R628 that S_POWER has stood at 56 above the limit, and above 4,000 W (R629). -/
  capFailRun : Nat
  over4000Run : Nat
  /-- Intervals above 62.0 V and above 90 A at the largest skip (R625). -/
  overVRun : Nat
  overIRun : Nat
  /-- Milliseconds of coolant flow below 3.0 L/min (R630). -/
  lowFlowMs : Nat
deriving DecidableEq, Repr

/-! ### Tenants, keys, security (20_security.md) -/

inductive TenState
  | off | on | closing
deriving DecidableEq, Repr

/-- Quotas of R488 with NEAR and HINT of R489. -/
structure Quota where
  hbm : Nat
  ddr : Nat
  pages : Nat
  slots : Nat
  near : Nat
  pinHbm : Bool
  preferDdr : Bool
  noMigrate : Bool
deriving DecidableEq, Repr

/-- A stored route version (R119): its number and its instructions of 16 bytes. -/
structure RouteVersion where
  routeId : Nat
  version : Nat
  /-- The version that new admissions take; an older one is held by contexts. -/
  current : Bool
  code : List (List Byte)
deriving DecidableEq, Repr

/-- An adapter configuration version (R427): bindings (adapter slot, object). -/
structure AdapterVersion where
  version : Nat
  current : Bool
  binds : List (Nat × Nat)
deriving DecidableEq, Repr

/-- A teardown of a CLOSING tenant (R587). -/
structure Closing where
  erase : Bool
  issuer : Issuer
  tag : W64
  /-- Its issuer's ring went with a function-level reset: no reply is owed (R105, R117). -/
  silent : Bool
deriving DecidableEq, Repr

/-- A stored slot key (R591). -/
structure SlotKey where
  dtid : W32
  /-- The record unwraps under the storage root key. -/
  unwraps : Bool
deriving DecidableEq, Repr

/-- An entry of the tenant table (R582) with what the module keeps beside it. -/
structure Tenant where
  state : TenState
  hintOk : Bool
  dtid : W32
  ctxBase : Nat
  ctxCount : Nat
  /-- A memory key exists (R590). -/
  memKey : Bool
  quota : Quota
  /-- Coach house write budget in bytes (R514). -/
  chBudget : Nat
  routes : List RouteVersion
  adapters : List AdapterVersion
  /-- Version number last given to each route identifier (R122). -/
  routeLast : Tab Nat
  closing : Option Closing
deriving DecidableEq, Repr

/-- Security logic (R604 to R609) and the SPDM responder (R602). -/
structure Sec where
  isolate : Bool
  svn : W32
  debug : Nat
  backup : Bool
  pufOk : Bool
  tenantSel : BitVec 12
  eventCount : W32
  lastEvent : Nat
  lastTenant : Nat
  /-- Open debug challenge: level, nonce number, issue TICK (R605). -/
  challenge : Option (Nat × Nat × Nat)
  /-- The alias key and its certificate, by the content number of the verified image that they are derived from with the
  device secret (R601); none before the boot ROM has verified one. -/
  alias_ : Option Nat
  /-- Numbers drawn from the random generator (R590). -/
  drawn : Nat
  /-- SPDM negotiation: version given, capabilities given, algorithms agreed (R602). -/
  spdmVersion : Bool
  spdmCaps : Bool
  spdmAlgs : Bool
deriving DecidableEq, Repr

/-! ### Coaches (07_coach_isa.md, 08_matrix_arrays.md): types also used by the turnpike -/

/-- A relay table entry (R209): the live register mask and the used SRAM ranges in 64-byte units. -/
structure RelayEntry where
  live : W64
  ranges : List (Nat × Nat)
deriving DecidableEq, Repr

/-- A kernel image as checked at its load (R186, R188). -/
structure Kernel where
  firmware : Bool
  kernelId : Nat
  /-- Tenant and object it was loaded for (R595); firmware images are shared. -/
  tenant : Nat
  obj : Nat
  bundles : Nat
  tileCclk : Nat
  saveMax : Nat
  relays : List RelayEntry
  size : Nat
  /-- Its bundles, each a word of 128 bits (R189); none known for a firmware image, whose code belongs to the firmware. -/
  code : List Nat := []
deriving DecidableEq, Repr

/-- One loop level (R196, R212): first and last bundle of the body, iterations remaining. -/
structure LoopLevel where
  first : Nat
  last : Nat
  remaining : Nat
deriving DecidableEq, Repr



/-! ### Key-value frames (14_context_store.md) -/

/-- One position of a frame: token, the key bytes of its layers and then the value bytes (R406), and the dot products of its keys with
the rows of PROJ(g), group by group (R407). -/
structure KvSlot where
  token : Nat
  kv : List Byte
  dots : List (List W32)
deriving DecidableEq, Repr

/-- A key-value frame (R405); its FILL is the number of its slots. -/
structure Frame where
  refs : Nat
  tenant : Nat
  adapterVer : Nat
  gen : Nat
  firstPos : Nat
  slots : List KvSlot
  pages : List Nat
  /-- Key and value bytes of the whole block, and whether its elements take 16 bits (R171). -/
  bytes : Nat
  wide : Bool
  /-- Key bytes of one position in one layer, H × D × e (R406). -/
  row : Nat := 0
deriving DecidableEq, Repr

/-- Table work that came from another member, and where its answer goes (R450). -/
structure Forward where
  domain : Bool
  dest : Nat
  msg : WorkMsg
deriving DecidableEq, Repr

/-- A unit command on its way to or in a unit's queue (R201, R203). -/
structure UnitCmd where
  station : Nat
  quarter : Nat
  /-- The issuing coach; none for the hub paths of R23. -/
  coach : Option Nat
  tag : Nat
  desc : Nat
  /-- Tile task that issued it; its record is written only while that task still runs there. -/
  task : Nat
  tenant : Nat
  ctx : Nat
  decode : Bool
  firmware : Bool
  deferred : Bool
  ranges : List (Nat × Nat)
  bytes : List Byte
  /-- Arrival order at the unit (R333), and the CCLK of the arrival. -/
  seq : Nat
  arrived : Nat := 0
  /-- A batch that another member forwarded (R449, R450). -/
  forwarded : Option Forward := none
deriving DecidableEq, Repr

/-- A save image (R212): the header fields and the 64 + L bytes, and whether it has been poisoned. -/
structure SaveImage where
  relayId : Nat
  live : W64
  ranges : List (Nat × Nat)
  bytes : List Byte
  tenant : Nat
  /-- LIVE bits of weight buffers whose block cannot carry their format (R238). -/
  odd : List Nat
  /-- What the task goes on from beside the image: its uncommitted writes, the deferred commands it holds, and whether a RELAY
  with FINAL = 1 has issued (R33, R185, R203). -/
  overlay : List Host.Cell := []
  deferred : List UnitCmd := []
  finalSeen : Bool := false
deriving DecidableEq, Repr

/-! ### Host interface (04_host_interface.md) -/

/-- A reply before it takes its ring slot (R104). `admitAt` is the CCLK of admission that CYCLES counts from,
none where the request was never admitted. -/
structure Reply where
  cls : Nat
  code : Code
  outbuf : Bool
  last : Bool
  ctx : Nat
  tag : W64
  step : Nat
  seq : Nat
  aux : Nat
  payload : List Byte
  admitAt : Option Nat
deriving DecidableEq, Repr

/-- A doorbell page or the PF0 order page (R89 to R98). -/
structure Page where
  reqBase : W64
  reqSize : BitVec 5
  rplBase : W64
  rplSize : BitVec 5
  enable : Bool
  reqPi : W32
  reqCi : W32
  rplPi : W32
  rplCi : W32
  /-- PHASE of the current lap (R97). -/
  phase : Bool
  /-- DMA_FAULT, CFG_BAD, RPL_CI_BAD, REQ_OVERRUN from bit 3 (R91). -/
  err : BitVec 4
  /-- Bits of it set in this CCLK (R11). -/
  errNow : BitVec 4
  /-- Reply slots reserved by fetched requests with no reply yet (R96). -/
  reserved : Nat
  /-- Fetched requests that still owe their reply with LAST (R92). -/
  owed : Nat
  /-- Replies that wait for a slot, oldest first (R98). -/
  waiting : List Reply
deriving DecidableEq, Repr

/-- An order fetched from a ring, at the order port (R103, R111). -/
structure PortOrder where
  code : Nat
  order : OrderIn
deriving DecidableEq, Repr

/-- What leaves the module by a way other than memory of its own: posted writes to the host, PCI Express messages,
results on the management paths, security responses, log records read out. -/
inductive HostOut
  | write (addr : Nat) (bytes : List Byte) (relaxed : Bool)
  | poisonedWrite (addr : Nat)
  | drs
  /-- A Function Readiness Status message of the function with this routing identifier (R79, R80). -/
  | frs (rid : Nat)
  | orderResult (issuer : Issuer) (tag : W64) (code : Code)
  | spdm (request : Nat) (bytes : List Byte) (signed : Bool)
  | spdmError (request : Nat)
  | debugChallenge (level nonce : Nat) (identity : List Byte) (svn : W32)
  | debugResult (code : Code)
  | logRecords (recs : List (List Byte))
  | pldm (code : Code)
  | mctpError
deriving DecidableEq, Repr

/-- What the PCI Express link and its configuration space hold beside VF Enable (R77 to R82). -/
structure Pcie where
  /-- The link is in L0 (R78): its rate in tenths of GT/s, its width in lanes, and Flit mode. -/
  up : Bool
  rate : Nat
  width : Nat
  flit : Bool
  /-- Routing identifier of PF0: bus number [15:8], device and function [7:0]. -/
  rid : Nat
  /-- Max Payload Size and Max Read Request Size in force, in bytes. -/
  mps : Nat
  mrrs : Nat
  /-- Functions in D3hot, 0 PF0 and 1 to 256 the virtual functions; the others are in D0. -/
  d3hot : List Nat
deriving DecidableEq, Repr

/-- The host interface. -/
structure HostSt where
  /-- Attention summaries (R109) by page; a tenant not listed has `attnBase`. -/
  attn : Tab Byte
  attnBase : Byte
  /-- Attention bits set in this CCLK, by page and in every summary (R110). -/
  attnNow : Tab Byte
  attnAllNow : Byte
  /-- Every RC register that is not zero as of the start of this CCLK, by its offset in the hub region (R11). -/
  rcBase : Tab W32
  /-- Pages 0 to 4095 are the tenants', page 4096 is PF0's order page. -/
  pages : Tab Page
  orderApplied : W32
  orderConflict : W32
  dmaErr : W32
  vfEnable : Bool
  pcie : Pcie
  /-- The page last fetched in the rotation of R95. -/
  fetchLast : Nat
  /-- Fetched orders waiting at the order port. -/
  port : List PortOrder
  /-- Orders that were waiting there when a function-level reset of their function took effect: they are dropped (R118). -/
  dropped : List PortOrder
  /-- Rank of the last order presented in this CCLK (R111, R114). -/
  rankNow : Option Nat
  /-- Targets of the orders applied in this CCLK: kind and identifier (R114). -/
  appliedNow : List (Nat × Nat)
  /-- Functions whose FLR took effect in this CCLK, 0 standing for PF0 (R118). -/
  flrNow : List Nat
  /-- Result of the last register read. -/
  readData : W64
  out : List HostOut
deriving DecidableEq, Repr

/-! ### Routes, contexts, turnpike (05_routes.md, 06_turnpike.md) -/

/-- Context states of R144. -/
inductive CtxState
  | free | idle | admitted | running | blocked | swapped | halted
deriving DecidableEq, Repr

/-- A list handle (R129). -/
structure ListHandle where
  kind : Nat
  count : Nat
  /-- In 64-byte units from the base of the context range. -/
  offset : Nat
deriving DecidableEq, Repr

/-- Amounts of the four quota tiers (R488). -/
structure Tiers where
  hbm : Nat
  ddr : Nat
  pages : Nat
  slots : Nat
deriving DecidableEq, Repr

/-- Why a compute step's commit waits (R298, R98). -/
inductive StepWait
  /-- Its tile task has not completed. -/
  | task
  /-- SCAN queries are in the sketch engines, or remote shards have not answered (R289, R298). -/
  | search
  /-- WALK hops or DECODE rounds are still to come. -/
  | rounds
deriving DecidableEq, Repr

/-- Who issued a command to the text unit, as the issuing coach adds it in hardware (R374): class, coach, output ranges, and the
CCLK of its arrival. -/
structure TextIssue where
  decode : Bool
  coach : Nat
  ranges : List (Nat × Nat)
  arrived : Nat
deriving DecidableEq, Repr

/-- No issuer yet. -/
def TextIssue.new : TextIssue := ⟨false, 0, [], 0⟩

/-- A segmenter command of a SEGMENT step (R370, R374): the context, the model object, and the input from RG[RA] on: how many
bytes remain and as many of them as the cut of R370 looks at. -/
structure SegCmd where
  ctx : Nat
  obj : Nat
  remain : Nat
  input : List Byte
  issue : TextIssue := TextIssue.new
deriving DecidableEq, Repr

/-- A detokenizer command of a DETOK step (R387). -/
structure DetokCmd where
  ctx : Nat
  tokens : List Nat
  issue : TextIssue := TextIssue.new
deriving DecidableEq, Repr

/-- A unit command that the kernel of a step's tile task issues once it runs (R23). -/
inductive StepCmd
  | unit (c : UnitCmd)
  | segment (c : SegCmd)
  | detok (c : DetokCmd)
deriving DecidableEq, Repr

/-- What a compute step will commit (R131, R133, R126). -/
structure StepResult where
  code : Code
  /-- New list for LD: kind, entries, bytes. -/
  ld : Option (Nat × Nat × List Byte)
  rd : Option W64
  /-- RERANK's drop counts (R126). -/
  drops : Option (Nat × Nat × Nat)
  /-- PACK's attribution for the output buffer, the summary first (R357). -/
  summary : List (List Byte)
  /-- The step names LD as a list of candidates written by this request (R340). -/
  ownList : Bool
  /-- Addresses to write at the commit: text record, lists (R33). -/
  writes : List (Nat × List Byte)
  /-- Unit commands released when the step commits (R203, R443). -/
  deferred : List UnitCmd
deriving DecidableEq, Repr

/-- A CANDIDATES entry (R273): identifier, SCORE, SET_IDX, FLAGS, CACHE. -/
structure Cand where
  id : Nat
  score : W32
  setIdx : Nat
  flags : Nat
  cache : Nat
deriving DecidableEq, Repr

/-- A survivor of a scan (R291): place of its partition in LB, row, sketch score b − 2h and the entry it gives. -/
structure Survivor where
  place : Nat
  row : Nat
  score : Int
  cand : Cand
deriving DecidableEq, Repr

/-- One shard's part of a SCAN in progress (R289 to R293). -/
structure ShardQuery where
  setIdx : Nat
  shard : Nat
  /-- Module that owns the shard; none: this module. -/
  module : Option Nat
  epoch : Nat
  /-- Partitions of the current round whose pass has not completed: place in LB and partition number. -/
  pending : List (Nat × Nat)
  /-- Partitions of the later rounds: round, place in LB, partition. -/
  later : List (Nat × Nat × Nat)
  /-- Counted rows by score (R291), and the survivors so far. -/
  hist : List (Int × Nat)
  survivors : List Survivor
  /-- A remote shard's list, once it came back, with BIRTH and DEATH of its entries where their tails were asked for (R340). -/
  remote : List Cand
  tails : List (Nat × Nat × Nat) := []
  done : Bool
deriving DecidableEq, Repr

/-- An entry of a walk's beam (R295): the candidate, its row and tail, and whether it is expanded. -/
structure BeamEnt where
  cand : Cand
  row : Nat
  score : Int
  expanded : Bool
  /-- Visible and passing the filter: it may be returned (R297). -/
  ret : Bool
  /-- Its record fetch has been issued (R296). -/
  fetched : Bool
deriving DecidableEq, Repr

/-- A WALK in progress on one shard (R295, R296). -/
structure WalkRun where
  setIdx : Nat
  shard : Nat
  module : Option Nat
  epoch : Nat
  beam : List BeamEnt
  /-- Identifiers this walk has discovered. -/
  seen : List Nat
  hops : Nat
  done : Bool
deriving DecidableEq, Repr

/-- The search of a SCAN or WALK: query vector and sketch (R271), filter, operands. -/
structure SearchRun where
  vec : List Byte
  sketch : List Byte
  fmt : Nat
  dim : Nat
  mask : W64
  any : Bool
  k : Nat
  round : Nat
  widen : Bool
  prefetch : Nat
  maxHops : Nat
  reference : Bool
  queries : List ShardQuery
  walks : List WalkRun
  /-- RERANK and PACK: the input candidates, and whether their list was written by a step of the request (R340). -/
  cands : List Cand := []
  own : Bool := false
  /-- RERANK and PACK: the tails have come and the records have been asked for (R340). -/
  fetching : Bool := false
  /-- Answers that wait for pages of the record cache. -/
  parked : List ResultMsg := []
deriving DecidableEq, Repr

/-- Decode progress of a DECODE step (R414): tokens emitted so far, oldest first, and whether the reins unit has been given its
first command (R392). -/
structure DecodeRun where
  tokens : List Nat
  started : Bool
deriving DecidableEq, Repr

/-- A PREFILL whose positions are written and not yet accepted (R412): its tokens, the output at the last position, the
generator, and the prefix entries matched; none where the context held positions already (R424, R425). -/
structure PrefillRun where
  tokens : List Nat
  next : List W32
  gen : Nat
  chain : Option (List Nat)
deriving DecidableEq, Repr

/-- A RERANK whose feedback rows are still to come from other members (R343): the model's scores, then the candidates of the
later stages with exact and cross-encoder scores, the drop counts, and the rows that have come and are owed. -/
structure RerankRun where
  cross : List W32
  ents : List (Cand × W32 × W32)
  drops : Nat × Nat × Nat
  rows : List (Nat × List W32)
  owed : List (Nat × List Nat)
deriving DecidableEq, Repr

/-- The compute step that a context runs. -/
structure StepRun where
  step : Nat
  opcode : Nat
  wait : StepWait
  /-- Tile tasks still to complete. -/
  tasks : Nat
  result : Option StepResult
  search : Option SearchRun
  decode : Option DecodeRun
  rerank : Option RerankRun
  prefill : Option PrefillRun
  /-- Objects held from the step's start to its end (R480), by tenant × 4096 + number. -/
  holds : List Nat
  /-- CCLK at which a wait for other modules began (R300). -/
  remoteSince : Nat
  /-- Code with which its tile tasks have ended so far (R214), 0 OK. -/
  endCode : Code := 0
  /-- Unit commands that its tile task issues when it first runs (R23). -/
  cmds : List StepCmd := []
  /-- Quarter in which its last tile task to end ran (R24). -/
  quarter : Option Nat := none
deriving DecidableEq, Repr

/-- A ROUTE request that its context holds (R99, R101). -/
structure Req where
  admitted : Bool
  queued : Bool
  tag : W64
  queue : Bool
  ackQueued : Bool
  routeId : Nat
  budget : Nat
  args : List W64
  inAddr : Nat
  inLen : Nat
  outAddr : Nat
  outLen : Nat
  /-- CCLK of arrival in the turnpike queue, and the reason of the last failed test (R160, R161). -/
  arrival : Nat
  reason : Nat
  /-- The estimate field that a refusal of that test would carry (R154). -/
  est : Nat := 0
  /-- Its reply slot reservation is still unused (R96). -/
  reservation : Bool
  /-- Bytes written at OUT_ADDR so far, and the last qualified code (R134, R136). -/
  outOff : Nat
  qualified : Option Code
  /-- Need reserved at admission and not yet drawn (R490). -/
  need : Tiers
  /-- Declared coach CCLK in Q not yet completed (R159). -/
  share : Nat
  /-- Epochs pinned by the request: shard, epoch (R281). -/
  pins : List (Nat × Nat)
  /-- Passage records fetched for the request: global identifier and 4,096 bytes (R274). -/
  records : List (Nat × List Byte)
  /-- Context pages of the record cache, and the passages whose reads are under way. -/
  cachePages : List Nat
  fetching : List Nat := []
  /-- List handles written by a search step of this request (R340). -/
  ownLists : List Nat
  /-- Shards of this module that the request holds (R284), and module and shard of every one that it has asked of others. -/
  shards : List Nat
  asked : List (Nat × Nat) := []
  /-- The budget is spent, or the request stopped, and its last task has still to leave its coach (R152). -/
  ending : Option Code
  /-- AUX of that FAILED reply (R215). -/
  endingAux : Nat
  /-- The last reply waits for its slot (R98); then the context takes this state. -/
  finish : Option CtxState
deriving DecidableEq, Repr

/-- A block table entry (R408). -/
structure BlockEnt where
  sharedRef : Bool
  frame : Nat
deriving DecidableEq, Repr

/-- What swapping has done with a context's frames (R170 to R173): their image's size in bytes, and once it lies in the
coach house the frames it holds. -/
inductive SwapState
  | none
  | out (bytes : Nat)
  | held (frames : List Frame) (bytes : Nat)
  | inn (frames : List Frame) (bytes : Nat)
deriving DecidableEq, Repr

/-- A context table entry (R141, R142), its request, its running step and its block table (R408). -/
structure Ctx where
  tenant : Nat
  state : CtxState
  prev : CtxState
  pc : Nat
  recompute : Bool
  yielded : Bool
  specOpen : Bool
  prefixShared : Bool
  freeing : Bool
  routeVer : Nat
  routeId : Nat
  /-- A route version is held (a running request, or a yielded context, R122). -/
  routeHeld : Bool
  tag : W64
  budget : Nat
  seq : Nat
  lastCode : Code
  admitAt : Nat
  progSeq : Nat
  kvLen : Nat
  adapterVer : Nat
  /-- The adapter version is held (R428). -/
  adapterHeld : Bool
  blockTable : Nat
  textRec : Nat
  rg : Tab W64
  lh : Tab ListHandle
  /-- Context-range pages of each list, and of the block table, text record, record cache and logs. -/
  listPages : Tab (List Nat)
  pages : List Nat
  req : Option Req
  step : Option StepRun
  /-- A reply waits for a slot (R98). -/
  replyWait : Bool
  /-- Draft object and length of SPEC (R420). -/
  spec : Option (Nat × Nat)
  /-- Block table (R408) and the token log with its generator object (R172). -/
  blocks : List BlockEnt
  sharedBlocks : Nat
  gen : Nat
  pendTok : Option Nat
  nextRec : Option (List W32)
  draftTable : List BlockEnt
  draftLen : Nat
  tokenLog : List Nat
  swap : SwapState
  /-- Context pages of the frames that a swap released; they stay counted (R488). -/
  swapPages : Nat
  /-- CONTEXT_FREE's issuer and tag, answered when the teardown completes (R149). -/
  freeReply : Option (Issuer × W64)
  /-- The code with which the teardown ends the request (R149, R587, R613). -/
  freeCode : Code
deriving DecidableEq, Repr

/-- A tile task (R32, R164). -/
structure TileTask where
  id : Nat
  ctx : Nat
  decode : Bool
  order : Nat
  prefQ : Nat
  /-- Kernel image: object number (0: firmware) and KERNEL_ID (R186). -/
  kernelObj : Nat
  kernelId : Nat
  /-- Declared delivered CCLK (R159) and largest save image. -/
  cclk : Nat
  maxSave : Nat
  /-- Save image to resume from (R212). -/
  image : Option SaveImage
  /-- Task arguments 1 to 15 and address arguments 0 to 7 (R184), output ranges (R185). -/
  sArgs : List W32
  aArgs : List W48
  ranges : List (Nat × Nat)
deriving DecidableEq, Repr

/-- The turnpikes of the eight coachmen and the assist counters (R143, R151 to R179). -/
structure Tp where
  ceiling : Nat
  floor : Nat
  queueLimit : W32
  queueAge : W32
  share : Nat
  window : Nat
  windowStart : Nat
  /-- Delivered CCLK spent on DECODE tasks in the current window (R163). -/
  decodeCclk : Nat
  admitCount : W32
  denyCount : W32
  preemptCount : W32
  swapOutCount : W32
  swapInCount : W32
  dropCount : W32
  progSeq : Nat
  /-- Q of R159. -/
  q : Nat
  /-- Queue of each coachman: context numbers in order of arrival (R160). -/
  queues : Tab (List Nat)
  /-- Ready set of each coachman (R164). -/
  ready : Tab (List TileTask)
  /-- Tile tasks made so far. -/
  nextTask : Nat
deriving DecidableEq, Repr

/-! ### Coaches -/

/-- What holds a busy tag (R199). -/
inductive TagKind
  | move | ucmd | send | recv
deriving DecidableEq, Repr

/-- A busy or faulted tag K0 to K15 (R199). -/
structure TagSt where
  busy : Bool
  kind : TagKind
  /-- Local address of the descriptor; the completion record goes to it + 64. -/
  desc : Nat
  /-- A MOVE: bytes, local address, tenant virtual address, direction out. -/
  bytes : Nat
  localAddr : Nat
  memAddr : Nat
  out : Bool
  /-- A MOVE met a translation fault; the next WAIT that names the tag raises it (R199). -/
  fault : Bool
  /-- A collective: identifier and CCLK of issue. -/
  cid : Nat
  since : Nat
deriving DecidableEq, Repr

/-- A weight buffer (R219): its format, none where undefined, and its 2,048 bytes. -/
structure WBuf where
  fmt : Option Nat
  bytes : List Byte
deriving DecidableEq, Repr

/-- Exceptions of R215 with the slot that raised them (0 C, 1 L, 2 V, 3 M, 4 the stretch limit). -/
structure Exn where
  slot : Nat
  code : Code
deriving DecidableEq, Repr

/-- A row of a stream (R220, R222, R223): CCLK after the issue in which it is read, where its bytes and its scale bytes lie (none:
a row of zeros), and what has been read. -/
structure SramRow where
  after : Nat
  addr : Option Nat
  scaleAddr : Nat
  bytes : List Byte
  scales : List Byte
deriving DecidableEq, Repr

/-- A weight load or an activation stream in progress (R220, R223): the array, the issue CCLK, the operands of the pass, and the
accumulator rows as they stood before it: tile, row, values. -/
structure SramStream where
  ma : Nat
  load : Bool
  start : Nat
  acc : Nat
  ch : Nat
  addTo : Bool
  quad : Bool
  fmt : Nat
  weights : List Byte
  before : List (Nat × Nat × List W32)
  rows : List SramRow
deriving DecidableEq, Repr

/-- What a slot of a bundle will write when the bundle ends (R190): no slot of a bundle sees another's result. -/
inductive SlotWr
  | s (i : Nat) (v : W32)
  | a (i : Nat) (v : W48)
  | v (i : Nat) (lanes : List W32)
  | p (i : Nat) (v : W64)
  /-- Row `row` of tile `t`, columns from `col`. -/
  | accRow (t row col : Nat) (xs : List W32)
  | shadow (ma : Nat) (b : WBuf)
  | swap (ma : Nat)
  | sram (addr : Nat) (bytes : List Byte)
  /-- Flags set by a result (R251): NAN_MADE, INF_MADE, SAT from bit 2. -/
  | flags (f : BitVec 3)
  /-- W1C of CO_FPFLAGS and write of CO_ROUND (R208). -/
  | clearFlags (f : BitVec 3)
  | round (r : Bool)
  | branch (pc : Nat)
  | loop (count len : Nat)
  | tag (k : Nat) (t : TagSt)
  | stream (s : SramStream)
  | clearFault (k : Nat)
  | ucmd (c : UnitCmd)
  | collective (k : Nat) (send : Bool) (desc : List Byte)
  | remoteWait (on : Bool)
  | relay (final : Bool) (id : Nat)
  | tend (code : Code)
deriving DecidableEq, Repr

/-- What a coach does (R165 to R167, R214, R215). -/
inductive CoachSt
  | idle
  /-- Dispatched; the dispatch crosses the control port (R166). -/
  | arriving
  | restoring
  | running
  | saving
  /-- Ending with a code and AUX; it waits for its SEND and RECV tags (R215). -/
  | ending
deriving DecidableEq, Repr

/-- A completion notice on its way to the hub (R165, R214, R215). -/
inductive Notice
  | done (code : Code) (aux : Nat)
  | saved (image : SaveImage)
  | discarded
deriving DecidableEq, Repr

/-- A coach (R182). -/
structure Coach where
  st : CoachSt
  task : Option TileTask
  tenant : Nat
  kernel : Option Kernel
  /-- CCLK of the dispatch; a dispatch of the same CCLK may displace it (R34). -/
  dispatchCclk : Nat
  /-- Output ranges of the task in tenant virtual addresses (R185). -/
  ranges : List (Nat × Nat)
  s : Tab W32
  a : Tab W48
  v : Tab (List W32)
  p : Tab W64
  /-- Rows of the accumulator tiles: tile × 32 + row. -/
  acc : Tab (List W32)
  wa : Tab WBuf
  ws : Tab WBuf
  pc : Nat
  /-- Active loop levels, innermost first. -/
  loops : List LoopLevel
  tags : Tab TagSt
  fpflags : BitVec 3
  round : Bool
  tile : Nat
  /-- `clk.delivered` minus CO_CYCLES. -/
  cycleBase : Int
  /-- `clk.delivered` minus CO_STRETCH, and the delivered count at which a remote wait began (R211). -/
  stretchBase : Int
  remoteFrom : Option Nat
  /-- The bundle after a WAIT that stood in a remote wait must hold RELAY (R200). -/
  relayDue : Bool
  /-- A RELAY with FINAL = 1 has issued in the task (R203). -/
  finalSeen : Bool
  deferred : List UnitCmd
  /-- Writes to memory outside SRAM, by device address, not yet committed (R185). -/
  overlay : List Host.Cell
  /-- A pre-emption request is on its way, and one has arrived (R166, R210). -/
  preemptSent : Bool
  preempt : Bool
  /-- The DECODE task that the pre-emption makes room for (R165). -/
  preemptFor : Option Nat
  /-- The task is to be discarded at its next RELAY (R167). -/
  discard : Bool
  /-- Slots of the bundle now issuing. -/
  bundle : List SlotWr
  bundleRelay : Bool
  bundleExn : List Exn
  /-- Which of them have come: 0 C, 1 L, 2 V, 3 M. -/
  slots : List Nat
  /-- Number that the free values of undefined registers and SRAM depend on (R9, R184, R213). -/
  epoch : Nat
  /-- Tenant tags (R594). -/
  vTag : Tab Nat
  accTag : Tab Nat
  waTag : Tab Nat
  wsTag : Tab Nat
  lineTag : Tab Nat
  /-- Resident images, least recently dispatched first (R187). -/
  images : List Kernel
  endCode : Code
  endAux : Nat
  image : Option SaveImage
  notice : Option Notice
  /-- Streams whose last row is still to be read (R220, R223). -/
  streams : List SramStream
  /-- Delivered CCLK in which the next bundle may issue at the earliest (R190, R192). -/
  ready : Nat
deriving DecidableEq, Repr

/-! ### Passage index and sketch engines (10_sketch_search.md) -/

inductive ShardState
  | live | staging | closing
deriving DecidableEq, Repr

/-- A shard that is not FREE (R275, R276); its descriptor lies in the strongbox (R65). -/
structure Shard where
  state : ShardState
  owner : Nat
  epoch : Nat
  readers : List Nat
  fmt : Nat
  dim : Nat
  sketch : Nat
  parts : Nat
  capacity : Nat
  centroids : Nat
  directory : Nat
  sketches : Nat
  tails : Nat
  locators : Nat
  /-- CCLK in which the epoch last advanced (R281). -/
  advanced : Option Nat := none
  /-- DROP's issuer and tag, answered when the drop completes. -/
  dropReply : Option (Issuer × W64)
deriving DecidableEq, Repr

/-- A query waiting on a shard (R289): one partition of one shard's part of a context's SCAN. -/
structure EngQuery where
  ctx : Nat
  setIdx : Nat
  shard : Nat
  place : Nat
  part : Nat
deriving DecidableEq, Repr

/-- A pass of a sketch engine: one partition, up to 64 queries (R289). -/
structure Pass where
  shard : Nat
  part : Nat
  queries : List EngQuery
  /-- FILL as read at the start of the pass (R290); none before. -/
  fill : Option Nat := none
deriving DecidableEq, Repr

/-- A sketch engine e (R288): its turn, waiting queries in order of arrival, passes formed and not completed. -/
structure Engine where
  /-- Index 0 to 7 of the turn in the cycle: shard e + 8 × turn. -/
  turn : Nat
  /-- Mode and turn length in force since the last turn boundary. -/
  shared : Bool
  length : Nat
  since : Nat
  waiting : List EngQuery
  passes : List Pass
deriving DecidableEq, Repr

/-- Work on a shard of this module for another one (R298, R299): how its answer goes back, the tenant here, the CCLK of its arrival,
tile tasks still to complete, the search, its staging area, and the answer once it is formed. -/
structure WorkRun where
  domain : Bool
  dest : Nat
  msg : WorkMsg
  tenant : Nat
  since : Nat
  tasks : Nat
  run : SearchRun
  records : List (Nat × List Byte)
  pages : List Nat
  fetching : List Nat
  result : Option ResultMsg
deriving DecidableEq, Repr

structure Ske where
  shared : Bool
  turnLen : Nat
  remoteWait : W32
  passCount : W32
  rowCount : W32
  engines : Tab Engine
  shards : Tab Shard
  /-- Requests of other modules that hold a shard here: module, context, shard, pinned epoch (R281, R284). -/
  remote : List (Nat × Nat × Nat × Nat)
  /-- Work in progress for other modules, by the number that its tasks and queries carry in place of a context's. -/
  works : Tab WorkRun := []
  nextWork : Nat := 0
deriving DecidableEq, Repr

/-! ### Selection units, text unit, reins units (11_selection.md, 13_text.md) -/

/-- A selection unit (R333, R337): the first command of the queue is the running one. -/
structure Slu where
  queue : List UnitCmd
  cmdCount : W32
  elemCount : W32
  refuseCount : W32
deriving DecidableEq, Repr

/-- The text unit (R374, R387, R401). -/
structure Txu where
  segQ : List SegCmd
  detokQ : List DetokCmd
  hostBound : W32
  segCount : W32
  detokCount : W32
  /-- CCLK in which each segmenter lane falls free (R374). -/
  laneFree : Tab Nat
deriving DecidableEq, Repr

/-- A mask cache slot (R397). -/
structure MaskKey where
  slot : Nat
  tenant : Nat
  obj : Nat
  gstate : Nat
  top : Nat
  full : Bool
deriving DecidableEq, Repr

/-- A reins unit (R397, R401): its cache, least recently used first. -/
structure Rnu where
  shared : Bool
  queue : List UnitCmd
  hit : W32
  miss : W32
  cache : List MaskKey
deriving DecidableEq, Repr

/-! ### Context store (14_context_store.md) -/

/-- A valid prefix index entry (R423). -/
structure PrefixEnt where
  frame : Nat
  parent : Option Nat
  gen : Nat
  adapterVer : Nat
  stamp : Nat
deriving DecidableEq, Repr

/-- The slice record of a context homed on another module of the team (R409): this member's block table, as places of its
frames, and the coach house slots that a swap image of them takes (R174). -/
structure Slice where
  tenant : Nat
  gen : Nat
  kvLen : Nat
  blocks : List Nat
  image : Nat
  /-- The frames of its swap image, and whether pages for their return have been taken. -/
  held : List Frame := []
  coming : Bool := false
deriving DecidableEq, Repr

structure CtxStore where
  /-- Frames by their place in the context range, in 64-byte units. -/
  frames : Tab Frame
  prefixes : Tab PrefixEnt
  hitCount : W32
  missCount : W32
  draftedCount : W32
  acceptedCount : W32
  rollbackCount : W32
  blocksRead : W32
  /-- Slice records by home position × 131,072 + context (R409). -/
  slices : Tab Slice
deriving DecidableEq, Repr

/-! ### Memory tiers (16_memory_tiers.md) -/

/-- Object states (R476). -/
inductive ObjState
  | live | releasing
deriving DecidableEq, Repr

/-- An entry of an object directory that is not FREE (R476). -/
structure Obj where
  kind : Nat
  hbm : Bool
  quarter : Nat
  size : Nat
  base : Nat
  state : ObjState
  /-- The release was made by an FLR or a TENANT_DISABLE: it waits for steps and commands alone (R480). -/
  forced : Bool
  /-- The declared fields of a model object (R477), once its declaration block is written. -/
  decl : Option ModelDecl
deriving DecidableEq, Repr

/-- A context page map entry that is VALID (R485). -/
structure PageEnt where
  tenant : Nat
  hbm : Bool
  quarter : Nat
  migrating : Bool
  dirty : Bool
  noMove : Bool
  heat : Nat
  stamp : Nat
  page : Nat
deriving DecidableEq, Repr

/-- A move of one page in progress (R487): the old page is the one the map entry names. -/
structure PageMove where
  page : Nat
  toHbm : Bool
  newPage : Nat
  /-- The page was freed during the move; both copies are freed. -/
  freed : Bool
  /-- CCLK at which MIGRATING was set. -/
  since : Nat
  /-- The page to promote into the one this demotion frees (R486). -/
  promoteNext : Option Nat
deriving DecidableEq, Repr

/-- A physical pool page within the hold time (R484). -/
structure HeldPage where
  hbm : Bool
  quarter : Nat
  page : Nat
  /-- CCLK at which it was freed. -/
  since : Nat
deriving DecidableEq, Repr

/-- A running object command's outcome is decided by its row; MT_OBJ_STATUS shows BUSY until then. -/
structure Mt where
  shared : Bool
  poolHbm : Nat
  poolDdr : Nat
  demote : Nat
  promote : Nat
  period : Nat
  migrateCount : W32
  abandonCount : W32
  useSel : BitVec 12
  objBusy : Bool
  objCode : Code
  objCmd : List Byte
  /-- Objects by tenant × 4096 + number. -/
  objs : Tab Obj
  /-- Valid context page map entries by page number. -/
  map : Tab PageEnt
  held : List HeldPage
  /-- Per quarter: the page candidate, the move in progress, the rotating hand (R486, R487). -/
  candidate : Tab Nat
  moves : Tab PageMove
  hand : Tab Nat
deriving DecidableEq, Repr

/-! ### Gather units (15_gather_tables.md) -/

/-- A migration ledger entry (R458): table, row and summed delta. -/
structure LedgerEnt where
  table : Nat
  row : Nat
  delta : List W32
deriving DecidableEq, Repr

/-- The migration lane (R457): the table's tenant and address, the hot slot, and what is copied. `draining` tells
step 1 (slot to BASE_A) from step 2 (BASE_A to slot). -/
structure Lane where
  tenant : Nat
  table : Nat
  obj : Nat
  slot : Nat
  /-- The row being copied, and the row promoted afterwards. -/
  row : Nat
  newRow : Nat
  draining : Bool
  /-- The copy read so far (the whole row, read when the step began). -/
  copy : List Byte
deriving DecidableEq, Repr

/-- A running LOOKUP that waits for rows of other members (R450): what each position still owes, and what has come. Rows of
sub-table B are numbered from 2^40. -/
structure GtuWait where
  cmd : UnitCmd
  owed : List (Nat × List Nat)
  got : List (Nat × List W32)
deriving DecidableEq, Repr

/-- A gather unit (R449, R460). -/
structure Gtu where
  queue : List UnitCmd
  cmdCount : W32
  rowCount : W32
  hotSample : BitVec 16
  hotEvict : BitVec 16
  migrateCount : W32
  abandonCount : W32
  updFailCount : W32
  failTenant : Nat
  failCode : Code
  lane : Option Lane
  /-- A candidate row waiting for the lane: tenant, table address, object, row. -/
  candidate : Option (Nat × Nat × Nat × Nat)
  ledger : List LedgerEnt
  wait : Option GtuWait
deriving DecidableEq, Repr

/-! ### Strongbox (17_strongbox.md) -/

/-- Where a slot's 4,096 bytes lie (R495, R512): die, block, page, slot within the page. -/
structure Place where
  die : Nat
  block : Nat
  page : Nat
  sub : Nat
deriving DecidableEq, Repr

/-- A held slot of a tenant's slot space (R498). -/
structure SbSlot where
  data : List Byte
  /-- Two members of its stripe were lost (R507). -/
  lost : Bool
  /-- The shard that holds it as a passage record. -/
  shard : Option Nat
  /-- None while the bytes lie in the write buffer only (R503). -/
  place : Option Place
  /-- The part of the write buffer that took it, 0 to 7 a coachman's, 8 the command path's (R503). -/
  part : Nat
  /-- Write sequence of its slot header (R495). -/
  wseq : Nat
deriving DecidableEq, Repr

/-- A slot write whose completion has not been reported (R503): the kernel's command, none for the command path; the slots
not accepted into the write buffer yet, with their bytes; how many are, and the code it will report. -/
structure SbWrite where
  tenant : Nat
  cmd : Option UnitCmd
  rest : List (Nat × List Byte)
  done : Nat
  code : Code
deriving DecidableEq, Repr

/-- A slot read waiting in a die's queue (R505): its owner 0 to 8, the job and the place in it that it serves. -/
structure SbRead where
  owner : Nat
  job : Nat
  index : Nat
  tenant : Nat
  slot : Nat
  /-- Bytes as of the map look-up (R502), and where they lie. -/
  data : List Byte
  place : Place
  /-- Recovery (R507): soft sensing asked for. -/
  recovery : Bool
  admitAt : Nat
  seq : Nat
  /-- A record fetch: whose it is, and the passage (R274, R299). -/
  fetch : Option (Nat × Nat) := none
deriving DecidableEq, Repr

/-- A running READ or TO_OBJ of several slots (R501), delivered in slot order. -/
structure SbJob where
  id : Nat
  /-- The kernel's command, none for SB_CMD_GO. -/
  cmd : Option UnitCmd
  op : Nat
  tenant : Nat
  addr : Nat
  count : Nat
  /-- Slots delivered, and the later ones read already. -/
  next : Nat
  buf : Tab (List Byte)
  /-- SB_NOT_HELD once a slot was not held. -/
  code : Code
  /-- Declared fields of the model object that TO_OBJ fills (R477). -/
  decl : Option ModelDecl
deriving DecidableEq, Repr

structure Sb where
  shared : Bool
  readOnly : Bool
  spare : Nat
  erased : Nat
  cmd : List Byte
  busy : Bool
  code : Code
  doneCount : Nat
  chSel : BitVec 12
  readCount : W32
  writeBytes : W32
  rebuildCount : W32
  /-- Held slots by tenant × 2^40 + number. -/
  slots : Tab SbSlot
  /-- Passage slot counter of each tenant (R498). -/
  counter : Tab Nat
  /-- Kernel commands waiting at STATION 0xA. -/
  queue : List UnitCmd
  writes : Tab (List SbWrite)
  reads : Tab (List SbRead)
  jobs : List SbJob
  /-- Place in the 18-turn cycle of each die (R505). -/
  turns : Tab Nat
  /-- Erase counts by die × 8192 + block, retired blocks and blocks that hold programmed pages. -/
  erases : Tab Nat
  retired : List Nat
  /-- Pages programmed in each block that is not erased, by the same key. -/
  blocks : Tab Nat
  /-- Next write sequence, read order and job number. -/
  nextSeq : Nat
  ckpt : Bool
  /-- Journaled changes that the checkpoint being written takes in. -/
  ckptFrom : Nat
  rebuilding : Bool
  /-- Slot changes not in the last checkpoint (journaled, R512). -/
  journal : Nat
  /-- The last loss of power found slot writes outstanding (R512). -/
  replay : Bool
  /-- Coach house slots used by images (R513). -/
  chUsed : Nat
deriving DecidableEq, Repr

/-! ### Drays (18_drays.md) -/

/-- A dray channel (R534, R543): its first queued descriptor is the running one; `moved` says that its accesses are
done and its read-back is awaited, with BYTES and D. -/
structure DrChan where
  queue : List UnitCmd
  moved : Option (Nat × Nat)
deriving DecidableEq, Repr

structure Dr where
  hostBound : W32
  descCount : W32
  byteCount : W32
  failCount : W32
  failChan : Nat
  failTenant : Nat
  failCode : Code
  chans : Tab DrChan
deriving DecidableEq, Repr

/-! ### Cibin link (19_cibin.md) -/

inductive PortState
  | disabled | training | up | down | miswired | misfit
deriving DecidableEq, Repr

/-- A flit kept until it is acknowledged (R553), with the link cycle it was sent in. -/
structure SentFlit where
  word : LinkWord
  cycle : Nat
deriving DecidableEq, Repr

/-- A team port (R545 to R555). -/
structure Port where
  state : PortState
  partner : Option Nat
  latency : Nat
  refHops : Nat
  isRef : Bool
  relaying : Bool
  txSeq : Nat
  rxSeq : Nat
  credits : Nat
  replay : List SentFlit
  /-- Flits that wait for a credit or for room in the replay buffer (R550, R553). -/
  sendQ : List LinkWord
  /-- NAKs in a row for one SEQ, that SEQ, failed CYCLE checks in a row, link cycle of the last valid word. -/
  nakRun : Nat
  nakSeq : Nat
  cycleFail : Nat
  lastValid : Nat
  /-- Link cycle in which the port went DOWN (R553). -/
  downSince : Nat
deriving DecidableEq, Repr

structure DPort where
  pcs : Bool
  fec : Bool
deriving DecidableEq, Repr

/-- The kind of a team commit's standing on this module (R559). -/
structure Commit where
  msg : CommitMsg
  /-- Its issuer is of this module. -/
  own : Bool
  /-- APPLY has been received or sent. -/
  applied : Bool
  /-- Its issuer's ring went with a function-level reset: no reply is owed (R105, R116). -/
  silent : Bool
deriving DecidableEq, Repr

/-- A collective on this module (R561): its identifier and members, the descriptor (empty while only other members' flits
have come), this module's tags, contributions. -/
structure Coll where
  cid : Nat
  members : Nat
  desc : List Byte
  send : Option (Nat × Nat)
  recv : Option (Nat × Nat × Nat)
  /-- Link cycles in which the counts of the two descriptors expire (R564). -/
  sendCycle : Nat
  recvCycle : Nat
  /-- Flit payloads by position × 8,192 + OFFSET, and the fields that other members' descriptors carry. -/
  parts : Tab (List Byte)
  keys : List (List Byte)
deriving DecidableEq, Repr

/-- Transport state toward a module of the domain (R576). -/
structure Pair where
  txPsn : W32
  rxPsn : W32
  /-- Oldest unacknowledged PSN is `ackPsn`; retransmissions without progress; port offset. -/
  ackPsn : W32
  retries : Nat
  portOff : Nat
  /-- CCLK of the last progress. -/
  since : Nat
  /-- CCLK until which the module counts as unreachable. -/
  deadUntil : Nat
deriving DecidableEq, Repr

/-- What the Cibin logic sends, in order (the words and frames themselves are formed by R547 to R552 and R575). -/
inductive CbOut
  | word (port : Nat) (w : LinkWord)
  | ackDecision (port ack ackSeq credit : Nat)
  | work (module : Nat) (domain : Bool) (m : WorkMsg)
  | result (module : Nat) (domain : Bool) (m : ResultMsg)
  | prepare (pos : Nat) (d : CommitMsg)
  | answer (pos id : Nat) (code : Code)
  | decision (pos id : Nat) (apply : Bool) (code : Code)
  /-- A LOST notice to `dest`: the position lost, the cause and the apply cycle (R568). -/
  | lost (dest pos cause apply : Nat)
  | leave
  | train (L expected : Nat)
  /-- The lead's transmission on a team port, which invites the member there (R70 step 2). -/
  | invite (port : Nat)
  /-- A member's report of lock to the lead, on its port (R70 step 3). -/
  | lockReport (port module : Nat)
  | domAck (module : Nat) (psn : W32)
  | dirReport (module : Nat) (e : DirEntry)
  | dirQuery (module askModule askShard : Nat)
  | dirAnswer (module : Nat) (e : Option DirEntry)
  | memRsp (pos id : Nat) (bytes : List Byte) (poison : Bool)
  /-- A participant's descriptor fields, beside the flits of its contribution (R561, R563). -/
  | collPart (pos cid : Nat) (key : List Byte)
  | retransmit (module port : Nat) (psn : W32)
deriving DecidableEq, Repr

structure Cb where
  present : Byte
  expected : Byte
  size : Nat
  lockstep : Bool
  lead : Bool
  l : Nat
  /-- Link cycle number and CCLK of the next one (R556). -/
  linkCycle : Nat
  linkSub : Nat
  collTimeout : W32
  retryLimit : Nat
  lostWait : W32
  domEnable : BitVec 4
  module : Nat
  etype : Nat
  oui : Nat
  domLead : Nat
  domRto : Nat
  flitErr : W32
  replayCount : W32
  relayCount : W32
  collCount : W32
  domDrop : W32
  dirBusy : Bool
  dirValid : Bool
  dirCode : Code
  dirData : List W64
  dirSince : Nat
  /-- Team configuration record write pending its 10 ms (R557) is held in Flash. -/
  teamMods : Tab Nat
  ports : Tab Port
  dports : Tab DPort
  commits : List Commit
  nextCommit : Nat
  colls : List Coll
  /-- Declared losses with their apply cycles (R568), and the cycle since which no path reaches a position. -/
  lostPending : List (Nat × Nat)
  /-- SRC, TYPE, ID and OFFSET of the flits taken last from each position (R554). -/
  recent : List (List Nat)
  noPath : Tab Nat
  pairs : Tab Pair
  /-- The shard directory by module × 64 + shard (R578), held by the domain lead. -/
  directory : Tab DirEntry
  out : List CbOut
  /-- Responses to remote reads that the hub firmware made (R466, R566), by ID. -/
  memRsps : Tab (List Byte)
  /-- A member was lost and the team is not yet complete again (R571). -/
  broken : Bool
  /-- The lead transmits on its team ports, and keeps doing so (R70 step 2, R71). -/
  inviting : Bool
deriving DecidableEq, Repr

/-! ### The block -/

/-- All state of the module but the queue of waiting commands. -/
structure Block where
  clk : Clk
  flash : Flash
  ost : Ost
  rel : Rel
  sec : Sec
  host : HostSt
  tp : Tp
  store : CtxStore
  mt : Mt
  ske : Ske
  txu : Txu
  /-- The four selection, reins and gather units. -/
  slu : Tab Slu
  rnu : Tab Rnu
  gtu : Tab Gtu
  sb : Sb
  dr : Dr
  cb : Cb
  /-- Tenant table by tenant number (R582). -/
  tenants : Tab Tenant
  /-- Stored slot keys by tenant number (R591). -/
  slotKeys : Tab SlotKey
  /-- Context table entries that are not FREE (R140). -/
  ctxs : Tab Ctx
  /-- Commands at stations whose chapters give no command layout (0x0, 0x1, 0x6, 0x8, 0xB of R201). -/
  otherQ : List UnitCmd
  /-- Unit commands that have arrived at a station so far (R333). -/
  arrivals : Nat
  /-- Coaches by number (R182). -/
  coaches : Tab Coach
  /-- Memory by device physical address (R464). -/
  mem : List Host.Cell
  /-- Counter that free values are drawn with. -/
  epoch : Nat
deriving DecidableEq, Repr

/-- The FX-9420 as a block: the commands that wait, first in, first out, and everything else. -/
structure State where
  pending : List Instr
  b : Block
deriving DecidableEq, Repr

/-- Reasons a command could stop with a fault. The spec gives every command of the table its effect, so no meaning
raises one; the type is kept for the interface. -/
inductive Fault
  /-- Raised by no meaning. Safe. -/
  | none
deriving DecidableEq, Repr

/-- Reasons a command could be refused. -/
inductive Refusal
  /-- Raised by the arm of a command that has no meaning yet, by name. Safe. -/
  | notModelled (mnemonic : String)
deriving DecidableEq, Repr

/-! ### Values of unlisted entries -/

/-- A page after reset (R92 to R98). PHASE starts at 1: DESIGN CHOICE, see the assumption log. -/
def Page.new : Page :=
  ⟨0, 0, 0, 0, false, 0, 0, 0, 0, true, 0, 0, 0, 0, []⟩

def TagSt.new : TagSt := ⟨false, .move, 0, 0, 0, 0, false, false, 0, 0⟩

def WBuf.new : WBuf := ⟨some 0, []⟩

/-- A coach after reset: idle, every register zero (DESIGN CHOICE where the spec gives no value, assumption 6), no image resident. -/
def Coach.new : Coach :=
  { st := .idle, task := none, tenant := 0, kernel := none, dispatchCclk := 0, ranges := [], s := [], a := [], v := []
    p := [], acc := [], wa := [], ws := [], pc := 0, loops := [], tags := [], fpflags := 0, round := false, tile := 0
    cycleBase := 0, stretchBase := 0, remoteFrom := none, relayDue := false, finalSeen := false, deferred := []
    overlay := [], preemptSent := false, preempt := false, preemptFor := none, discard := false, bundle := [], bundleRelay := false
    bundleExn := [], slots := [], epoch := 0, vTag := [], accTag := [], waTag := [], wsTag := [], lineTag := [], images := []
    endCode := 0, endAux := 0, image := none, notice := none, streams := [], ready := 0 }

def Quota.new : Quota := ⟨0, 0, 0, 0, 0, false, false, false⟩

/-- A tenant table entry that is OFF (R582). -/
def Tenant.new : Tenant :=
  ⟨.off, false, 0, 0, 0, false, Quota.new, 0, [], [], [], none⟩

def Tiers.zero : Tiers := ⟨0, 0, 0, 0⟩

/-- A FREE context table entry: every field zero (R142). -/
def Ctx.new : Ctx :=
  { tenant := 0, state := .free, prev := .free, pc := 0, recompute := false, yielded := false, specOpen := false
    prefixShared := false, freeing := false, routeVer := 0, routeId := 0, routeHeld := false, tag := 0, budget := 0
    seq := 0, lastCode := 0, admitAt := 0, progSeq := 0, kvLen := 0, adapterVer := 0, adapterHeld := false
    blockTable := 0, textRec := 0, rg := [], lh := [], listPages := [], pages := [], req := none, step := none, replyWait := false
    spec := none, blocks := [], sharedBlocks := 0, gen := 0, pendTok := none, nextRec := none, draftTable := []
    draftLen := 0, tokenLog := [], swap := .none, swapPages := 0, freeReply := none, freeCode := 0 }

def Engine.new (e : Nat) : Engine := ⟨0, false, 0x4000, e - e, [], []⟩

def Slu.new : Slu := ⟨[], 0, 0, 0⟩
def Rnu.new : Rnu := ⟨false, [], 0, 0, []⟩
def Gtu.new : Gtu := ⟨[], 0, 0, 0x100, 4, 0, 0, 0, 0, 0, none, none, [], none⟩
def DrChan.new : DrChan := ⟨[], none⟩
def Pair.new : Pair := ⟨0, 0, 0, 0, 0, 0, 0⟩
def DPort.new : DPort := ⟨false, false⟩
def Port.new : Port :=
  ⟨.disabled, none, 0, 0, false, false, 0, 0, 512, [], [], 0, 0, 0, 0, 0⟩
def Cage.new : Cage := ⟨false, 0, false⟩

/-! ### Reset -/
/-- Clocks after an AO power-on (R61, R72): straps open (R48), cause 0x01 (R75), main conversion off. -/
def Clk.new : Clk :=
  { j1Up := true, mainOn := false, mated := false, perstHigh := false, straps := 0b111111, cause := 0x01
    stage := .held, resetting := none, cold := true, selftestDone := false, mapDone := false, convTick := 0, startTick := none
    localReadyTick := 0, rebuild := false, joinLate := false, journal := false, refLost := false, refNow := false, slewing := false
    holdover := false, locked := false, refSrc := 0, onOclk := false, waitRef := false, resetNow := false, cclk := 0
    delivered := 0, drsSent := false }

/-- Management flash as shipped (R636): roles A primary, B backup, C staging; no fence, an empty log, the team record
never written (R557). Contents that R2 leaves to the factory are DESIGN CHOICES. -/
def Flash.new : Flash :=
  { aoCount := 1, primary := 0, backup := 1, staging := 2, oldRoles := none
    images := [(0, ⟨true, 0, 4096, false, 0⟩), (1, ⟨true, 0, 4096, false, 0⟩)], minSvn := 0, fences := []
    pendFence := 0, pendUnfence := 0, training := false, teamModule := 0, teamExpected := 1, log := [], nextSeq := 1 }

/-- The log event of a reset (R641, class 0x01): DATA carries the cause. -/
def resetEvent (tick prog : Nat) (cause mainCount : Nat) : LogEvent :=
  ⟨tick, prog, none, 0x01, 0, BitVec.ofNat 16 cause, none, none, cause, mainCount⟩

/-- The Ostler after an AO power-on (R650, R651, R664). -/
def Ost.new : Ost :=
  { tick := 0, tickSub := 0, mainCount := 0, nowLink := 0, nowProg := 0, logAck := 0, logSel := 0, logLost := 0
    logFullArmed := true, events := [resetEvent 0 0 0x01 0], updState := .idle, updResult := 0, updSvn := 0
    updAddr := 0, updLen := 0, updHost := false, calWithdraw := 4, calDeferMs := 16, calPeriod := 256, deferCount := 0, calWindow := 0
    calUsed := [], withdrawn := [], locate := false, cages := [], tests := [], lbCtrl := 0, lbRefused := false
    lbRefusedNow := false, lbLock := 0, lbErr := 0, lbOstlerCclk := none, testLast := 0, follower := false, scanBusy := false, scanOp := 0
    scanLen := 0, scanData := 0, scanCount := 0 }

/-- Reliability and power after a main reset (R632, R633). -/
def Rel.new : Rel :=
  { fenced := [], coachCe := [], memCe := [], uncorr := [], ceLimitMem := 0x1000, ceLimitCoach := 0x40, errCorr := 0
    errUncorr := 0, poison := [], memLost := false, sPower := 0, sThermal := 0, skip := 0, capFail := false
    flowLow := false, leak := false, hot := false, power := 0, autoRestart := true, capLimit := 4000
    limitNow := 4000, vin := 0, iin := 0, sensorSel := 0, sensors := [], skipCount := 0, lastShutdown := 0
    shutHold := false, shutTick := 0, capFailRun := 0, over4000Run := 0, overVRun := 0, overIRun := 0
    lowFlowMs := 0 }

/-- Security logic after a main reset (R608, R609). -/
def Sec.new : Sec :=
  { isolate := false, svn := 0, debug := 0, backup := false, pufOk := false, tenantSel := 0, eventCount := 0
    lastEvent := 0, lastTenant := 0, challenge := none, alias_ := none, drawn := 0, spdmVersion := false, spdmCaps := false
    spdmAlgs := false }

/-- The link before it trains (R77, R78). Max Payload Size 128 and Max Read Request Size 512 bytes are PCI Express's own
values before configuration (PRESUMED, assumption 122); the routing identifier is what the host's enumeration gives (a free value). -/
def Pcie.new : Pcie := ⟨false, 0, 0, false, Config.pf0Rid, 128, 512, []⟩

/-- The host interface after a main reset (R84, R89). -/
def HostSt.new : HostSt :=
  { attn := [], attnBase := 0, attnNow := [], attnAllNow := 0, rcBase := [], pages := [], orderApplied := 0, orderConflict := 0
    dmaErr := 0, vfEnable := false, pcie := Pcie.new, fetchLast := 0, port := [], dropped := [], rankNow := none, appliedNow := [], flrNow := [], readData := 0, out := [] }

/-- The turnpike after a main reset (R176 to R179). -/
def Tp.new : Tp :=
  { ceiling := 0x58, floor := 0x1C0, queueLimit := 0x2FAF, queueAge := 0x989, share := 0, window := 0
    windowStart := 0, decodeCclk := 0, admitCount := 0, denyCount := 0, preemptCount := 0, swapOutCount := 0
    swapInCount := 0, dropCount := 0, progSeq := 0, q := 0, queues := [], ready := [], nextTask := 0 }

def CtxStore.new : CtxStore := ⟨[], [], 0, 0, 0, 0, 0, 0, []⟩

/-- Memory tiers after a main reset (R493). -/
def Mt.new : Mt :=
  { shared := false, poolHbm := 0x80, poolDdr := 0x400, demote := 0x2, promote := 0x8, period := 0x65C
    migrateCount := 0, abandonCount := 0, useSel := 0, objBusy := false, objCode := 0
    objCmd := List.replicate 64 0, objs := [], map := [], held := [], candidate := [], moves := [], hand := [] }

def Ske.new : Ske :=
  { shared := false, turnLen := 0x4000, remoteWait := 0x3000, passCount := 0, rowCount := 0, engines := [], shards := [], remote := [] }

def Txu.new : Txu := ⟨[], [], 0xD06, 0, 0, []⟩

/-- The strongbox as shipped (R516, R517): no slot held; the numbers of spare blocks and erased blocks are
free (Config). -/
def Sb.new : Sb :=
  { shared := false, readOnly := false, spare := Config.spareBlocks, erased := Config.erasedBlocks
    cmd := List.replicate 64 0, busy := false, code := 0, doneCount := 0, chSel := 0, readCount := 0, writeBytes := 0
    rebuildCount := 0, slots := [], counter := [], queue := [], writes := [], reads := [], jobs := [], turns := []
    erases := [], retired := [], blocks := [], nextSeq := 0, ckpt := false, ckptFrom := 0, rebuilding := false, journal := 0, replay := false
    chUsed := 0 }

def Dr.new : Dr := ⟨0xD06, 0, 0, 0, 0, 0, 0, []⟩

/-- The Cibin link after a main reset (R579, R580). -/
def Cb.new : Cb :=
  { present := 0, expected := 0, size := 0, lockstep := false, lead := false, l := 0, linkCycle := 0, linkSub := 0
    collTimeout := 0x40000, retryLimit := 4, lostWait := 0x1000, domEnable := 0, module := 0, etype := 0x88B5
    oui := 0x020000, domLead := 0, domRto := 0x10, flitErr := 0, replayCount := 0, relayCount := 0, collCount := 0
    domDrop := 0, dirBusy := false, dirValid := false, dirCode := 0, dirData := List.replicate 10 0, dirSince := 0
    teamMods := [], ports := [], dports := [], commits := [], nextCommit := 0, colls := [], lostPending := [], recent := []
    noPath := [], pairs := [], directory := [], out := [], memRsps := [], broken := false, inviting := false }

/-- The module right after an AO power-on with open straps, main conversion still off. -/
def Block.new : Block :=
  { clk := Clk.new, flash := Flash.new, ost := Ost.new, rel := Rel.new, sec := Sec.new, host := HostSt.new
    tp := Tp.new, store := CtxStore.new, mt := Mt.new, ske := Ske.new, txu := Txu.new, slu := [], rnu := [], gtu := []
    sb := Sb.new, dr := Dr.new, cb := Cb.new, tenants := [], slotKeys := [], ctxs := [], otherQ := [], arrivals := 0, coaches := [], mem := []
    epoch := 0 }

/-- The machine right after reset (R61): the queue of commands is empty. -/
def State.reset : State := { pending := [], b := Block.new }

end Sys2Proof.Machine
end

