-- ==== Sys2Proof/Machine/Tab.lean ====
section
/-!
DEFINITION. Machine/Tab.lean: reading and writing a sorted table (Sys2Proof.Tab), which every numbered group of
registers, queues, entries or bytes of the block is kept in.
-/
namespace Sys2Proof.Machine

/-- The value listed at `i`, if any. -/
def tabFind? {α : Type} (i : Nat) : Tab α → Option α
  | [] => none
  | (j, v) :: rest => if i = j then some v else tabFind? i rest

/-- The value at `i`, `d` where none is listed. -/
def tabGet {α : Type} (d : α) (i : Nat) (t : Tab α) : α := (tabFind? i t).getD d

/-- Write `v` at `i`, keeping the numbers strictly rising. -/
def tabSet {α : Type} (i : Nat) (v : α) : Tab α → Tab α
  | [] => [(i, v)]
  | (j, w) :: rest =>
    if i < j then (i, v) :: (j, w) :: rest
    else if i = j then (i, v) :: rest
    else (j, w) :: tabSet i v rest

/-- The table with its entries listed in rising order, an earlier entry standing before a later one of its number. -/
def tabCanon {α : Type} (t : Tab α) : Tab α := t.foldr (fun c acc => tabSet c.1 c.2 acc) []

/-- Take the entry at `i` out. -/
def tabErase {α : Type} (i : Nat) (t : Tab α) : Tab α := t.filter fun p => p.1 != i

/-- Replace the value at `i` by `f` of it. -/
def tabMod {α : Type} (d : α) (i : Nat) (f : α → α) (t : Tab α) : Tab α := tabSet i (f (tabGet d i t)) t

/-- Replace every listed value by `f` of its number and itself. -/
def tabMap {α β : Type} (f : Nat → α → β) (t : Tab α) : Tab β := t.map fun p => (p.1, f p.1 p.2)

/-- The numbers strictly rise. -/
def tabWf {α : Type} : Tab α → Bool
  | [] => true
  | [_] => true
  | (i, _) :: (j, w) :: rest => decide (i < j) && tabWf ((j, w) :: rest)

/-- The least number that does not stand in `l` (a placement by lowest free number). -/
def leastFree (l : List Nat) : Nat :=
  ((List.range (l.length + 1)).find? fun n => !l.contains n).getD 0

/-- Insert into a list sorted by `le`, after its equals. -/
def insertBy {α : Type} (le : α → α → Bool) (x : α) : List α → List α
  | [] => [x]
  | y :: ys => if le y x then y :: insertBy le x ys else x :: y :: ys

/-- Sort by `le`, keeping equals in their order. -/
def sortBy {α : Type} (le : α → α → Bool) (l : List α) : List α :=
  l.foldl (fun acc x => insertBy le x acc) []

/-- The entry at `i` of a list replaced by `f` of it. -/
def listMod {α : Type} (i : Nat) (f : α → α) (l : List α) : List α := l.modify i f

/-- The sum of a list of numbers. -/
def natSum (l : List Nat) : Nat := l.foldl (· + ·) 0

end Sys2Proof.Machine
end

