-- ==== Sys2Proof/Machine/KvFrames.lean ====
section
/-!
DEFINITION. Machine/KvFrames.lean: a key-value frame as bytes of the context range (R405 to R407): header region, sketches,
tokens, sums, and where the keys and values of each slot, head and layer lie.
-/
namespace Sys2Proof.Machine

/-- SUMSg of a frame, in slot order (R407). -/
def Frame.sums (x : Frame) (g : Nat) : List W32 :=
  x.slots.foldl (fun acc s => (acc.zip (s.dots.getD g [])).map fun p => addF32 p.1 p.2) (List.replicate 256 0)

/-- SKETCHg: bit j set when SUMSg[j] is at least zero, −0 included (R407). A NaN sum is not at least zero. -/
def Frame.sketch (x : Frame) (g : Nat) : List Bool :=
  (x.sums g).map fun w =>
    let m := w.toNat % 2 ^ 31
    if m = 0 then true else if 0x7F800000 < m then false else !w.getLsbD 31

/-- LB of R406: the key bytes of one layer over the 64 slots of a frame. -/
def Frame.lb (x : Frame) : Nat := 64 * x.row

/-- Where the keys of a slot and layer begin in a frame (R406): H × D × e bytes, head after head. -/
def Frame.keyAt (x : Frame) (layer slot : Nat) : Nat := 0x5000 + layer * x.lb + slot * x.row

/-- Where the values of a slot and layer begin in a frame of `layers` layers (R406). -/
def Frame.valueAt (x : Frame) (layers layer slot : Nat) : Nat := 0x5000 + (layers + layer) * x.lb + slot * x.row

/-- Byte `i` of the key and value region (R406): half-layer, slot and place in it. A slot keeps its keys layer after layer, then
its values. -/
def Frame.kvByte (x : Frame) (i : Nat) : Option Byte :=
  match x.slots[i % x.lb / x.row]? with
  | some s => some (s.kv.getD (i / x.lb * x.row + i % x.row) 0)
  | none => none

/-- The header fields of a frame (R405). -/
def Frame.header (x : Frame) : List Byte :=
  le 4 x.refs ++ le 4 (x.tenant * 2 ^ 20 + x.slots.length) ++ le 4 (x.adapterVer * 2 ^ 16 + x.gen) ++ le 4 x.firstPos

/-- Byte `off` of a frame (R405, R406); none where its value is undefined: a slot that is not written (R9). -/
def Frame.byte (x : Frame) (off : Nat) : Option Byte :=
  if off < 0x40 then some (x.header.getD off 0)
  else if off < 0x240 then
    let bs := x.sketch ((off - 0x40) / 32)
    some (BitVec.ofNat 8 ((List.range 8).foldl (fun acc j => acc + if bs.getD (8 * (off % 32) + j) false then 2 ^ j else 0) 0))
  else if off < 0x340 then (x.slots[(off - 0x240) / 4]?).map fun s => (le 4 s.token).getD (off % 4) 0
  else if off < 0x400 then some 0
  else if off < 0x4400 then some ((le 4 (((x.sums ((off - 0x400) / 1024)).getD (off % 1024 / 4) 0).toNat)).getD (off % 4) 0)
  else if off < 0x5000 then some 0
  else if x.row = 0 then none
  else if off - 0x5000 < x.bytes then x.kvByte (off - 0x5000)
  else none

/-- The frame that holds a byte of the context range, by its offset there, and the place in it (R405, R408). -/
def CtxStore.frameAt (c : CtxStore) (off : Nat) : Option (Frame × Nat) :=
  (c.frames.find? fun e => decide (e.1 * 64 ≤ off) && decide (off < e.1 * 64 + 65536 * e.2.pages.length)).map fun e => (e.2, off - e.1 * 64)

/-- The header of a context's block table (R408): byte `off` below 0x28. The places of the token log, of the next-token record and of
the draft table are the module's own and stand in no rule: none. -/
def Ctx.tableHead (c : Ctx) (off : Nat) : Option Byte :=
  let head := le 4 c.blocks.length ++ le 4 c.sharedBlocks ++ le 4 (if c.kvLen = 0 then 0 else c.gen) ++
    le 4 (c.pendTok.getD 0 * 256 + (if c.pendTok.isSome then 2 else 0) + (if c.nextRec.isSome then 1 else 0))
  if off < 0x10 then some (head.getD off 0)
  else if off < 0x18 then (if c.nextRec.isSome then none else some 0)
  else if off < 0x20 then (if c.draftTable.isEmpty then some 0 else none)
  else if off < 0x28 then none
  else some 0

/-- An entry of a block table (R408): SHARED_REF and the frame. -/
def BlockEnt.bytes (e : BlockEnt) : List Byte := le 8 (e.frame + if e.sharedRef then 2 ^ 63 else 0)

/-- Byte `off` of a context's block table (R408); none where its value is undefined: beyond the entries in use (R9). -/
def Ctx.tableByte (c : Ctx) (off : Nat) : Option Byte :=
  if off < 0x40 then c.tableHead off
  else (c.blocks[(off - 0x40) / 8]?).map fun e => e.bytes.getD (off % 8) 0

/-- The context whose block table's first page holds a byte of the context range, by its offset there (R408). -/
def tableAt (cs : List (Nat × Ctx)) (off : Nat) : Option Ctx :=
  ((cs.find? fun c => decide (c.2.state ≠ .free) && decide (c.2.blockTable ≤ off) && decide (off < c.2.blockTable + 65536)).map (·.2))

end Sys2Proof.Machine
end

