-- ==== Sys2Proof/Machine/Ops.lean ====
section
/-!
DEFINITION. Machine/Ops.lean: the named operations over the block's state that the meanings share: time, log and
attention, memory by device address and by tenant virtual address, quotas and context pages, and replies.
-/
namespace Sys2Proof.Machine

/-- What a command leaves, with its memory in canonical form: a memory that it changed is listed in rising order. -/
def Block.settled (old b : Block) : Block :=
  { b with mem := if b.mem = old.mem then b.mem else tabCanon b.mem }

/-- The outcome of a command: every command answers a next state, and leaves the queue alone. -/
def State.run (s : State) (f : Block → Block) : Host.Outcome State Fault Refusal :=
  .next { s with b := s.b.settled (f s.b) }

/-! ### Entries of the numbered groups -/

def Block.ctx (b : Block) (n : Nat) : Ctx := tabGet Ctx.new n b.ctxs

/-- Write a context table entry; a FREE entry is not listed. -/
def Block.setCtx (b : Block) (n : Nat) (c : Ctx) : Block :=
  { b with ctxs := if c.state = .free then tabErase n b.ctxs else tabSet n c b.ctxs }

def Block.modCtx (b : Block) (n : Nat) (f : Ctx → Ctx) : Block := b.setCtx n (f (b.ctx n))

def Block.ten (b : Block) (t : Nat) : Tenant := tabGet Tenant.new t b.tenants

def Block.modTen (b : Block) (t : Nat) (f : Tenant → Tenant) : Block :=
  { b with tenants := tabMod Tenant.new t f b.tenants }

def Block.coach (b : Block) (n : Nat) : Coach := tabGet Coach.new n b.coaches

def Block.modCoach (b : Block) (n : Nat) (f : Coach → Coach) : Block :=
  { b with coaches := tabMod Coach.new n f b.coaches }

def Block.page (b : Block) (p : Nat) : Page := tabGet Page.new p b.host.pages

def Block.modPage (b : Block) (p : Nat) (f : Page → Page) : Block :=
  { b with host := { b.host with pages := tabMod Page.new p f b.host.pages } }

def Block.sluQ (b : Block) (q : Nat) : Slu := tabGet Slu.new q b.slu
def Block.modSlu (b : Block) (q : Nat) (f : Slu → Slu) : Block := { b with slu := tabMod Slu.new q f b.slu }
def Block.rnuQ (b : Block) (q : Nat) : Rnu := tabGet Rnu.new q b.rnu
def Block.modRnu (b : Block) (q : Nat) (f : Rnu → Rnu) : Block := { b with rnu := tabMod Rnu.new q f b.rnu }
def Block.gtuQ (b : Block) (q : Nat) : Gtu := tabGet Gtu.new q b.gtu
def Block.modGtu (b : Block) (q : Nat) (f : Gtu → Gtu) : Block := { b with gtu := tabMod Gtu.new q f b.gtu }
def Block.port (b : Block) (p : Nat) : Port := tabGet Port.new p b.cb.ports
def Block.modPort (b : Block) (p : Nat) (f : Port → Port) : Block :=
  { b with cb := { b.cb with ports := tabMod Port.new p f b.cb.ports } }
def Block.engine (b : Block) (e : Nat) : Engine := tabGet (Engine.new e) e b.ske.engines
def Block.modEngine (b : Block) (e : Nat) (f : Engine → Engine) : Block :=
  { b with ske := { b.ske with engines := tabMod (Engine.new e) e f b.ske.engines } }

/-- The order page of PF0 among the doorbell pages (R81, R82). -/
def pf0Page : Nat := 4096

/-- Send something that leaves the module (posted writes, messages, results on the management paths). -/
def Block.emit (b : Block) (o : HostOut) : Block := { b with host := { b.host with out := b.host.out ++ [o] } }

/-- Send over the Cibin link. -/
def Block.cbEmit (b : Block) (o : CbOut) : Block := { b with cb := { b.cb with out := b.cb.out ++ [o] } }

/-- Draw a fresh number for a free value. -/
def Block.nextEpoch (b : Block) : Block := { b with epoch := b.epoch + 1 }

/-! ### Log and attention -/

/-- Hand an event to the Ostler for its log (R615, R639 to R641): class, severity, code, unit, tenant, DATA. -/
def Block.log (b : Block) (cls sev : Nat) (code : Code) (unit : Option UnitId) (tenant : Option Nat) (data : Nat) :
    Block :=
  let e : LogEvent :=
    { tick := b.ost.tick, prog := if b.clk.mainOn then b.tp.progSeq else 0
      link := if b.cb.lockstep then some b.cb.linkCycle else none
      cls := cls, severity := sev, code := code, unit := unit, tenant := tenant, data := data, mainCount := b.ost.mainCount }
  { b with ost := { b.ost with events := b.ost.events ++ [e] } }

/-- The attention summary of a page (R109). -/
def HostSt.attnOf (h : HostSt) (p : Nat) : Byte := tabGet h.attnBase p h.attn

/-- Attention bit numbers of R109 within the summary: 7 SECURITY to 0 MGMT_EVENT. -/
def attnSecurity : Nat := 7
def attnUpdateStaged : Nat := 6
def attnTeamChange : Nat := 5
def attnLogFull : Nat := 4
def attnQuotaNear : Nat := 3
def attnThermal : Nat := 2
def attnDegraded : Nat := 1
def attnMgmtEvent : Nat := 0

/-- Set an attention bit in one summary (R109, R110). -/
def Block.attnSet (b : Block) (bitNo page : Nat) : Block :=
  let m := BitVec.ofNat 8 (2 ^ bitNo)
  { b with host := { b.host with
      attn := tabSet page (b.host.attnOf page ||| m) b.host.attn
      attnNow := tabSet page (tabGet 0 page b.host.attnNow ||| m) b.host.attnNow } }

/-- Set an attention bit for PF0 (R109). -/
def Block.attnPf0 (b : Block) (bitNo : Nat) : Block := b.attnSet bitNo pf0Page

/-- Set an attention bit for PF0 and one tenant (R109). -/
def Block.attnTen (b : Block) (bitNo t : Nat) : Block := (b.attnSet bitNo pf0Page).attnSet bitNo t

/-- Set an attention bit for PF0 and every tenant (R109). -/
def Block.attnAll (b : Block) (bitNo : Nat) : Block :=
  let m := BitVec.ofNat 8 (2 ^ bitNo)
  { b with host := { b.host with
      attn := tabMap (fun _ v => v ||| m) b.host.attn, attnBase := b.host.attnBase ||| m
      attnAllNow := b.host.attnAllNow ||| m } }

/-- Attention bits of a page set in this CCLK (R110). -/
def HostSt.setNow (h : HostSt) (p : Nat) : Byte := tabGet 0 p h.attnNow ||| h.attnAllNow

/-- The RC registers by their offset in the hub region (R11 and the register tables); HUB_ERR_COUNT as its two halves. -/
def Block.rcList (b : Block) : Tab W32 :=
  let four := fun (base step off : Nat) (get : Nat → W32) => (List.range 4).map fun q => (base + step * q + off, get q)
  [(0x0008, b.host.orderApplied), (0x0010, b.host.orderConflict), (0x0018, b.host.dmaErr),
   (0x2030, b.tp.admitCount), (0x2038, b.tp.denyCount), (0x2040, b.tp.preemptCount), (0x2048, b.tp.swapOutCount),
   (0x2050, b.tp.swapInCount), (0x2058, b.tp.dropCount), (0x3018, b.ske.passCount), (0x3020, b.ske.rowCount)] ++
  four 0x4000 0x40 0x08 (fun q => (b.sluQ q).cmdCount) ++ four 0x4000 0x40 0x10 (fun q => (b.sluQ q).elemCount) ++
  four 0x4000 0x40 0x18 (fun q => (b.sluQ q).refuseCount) ++
  [(0x5010, b.txu.segCount), (0x5018, b.txu.detokCount)] ++
  four 0x5100 0x40 0x10 (fun q => (b.rnuQ q).hit) ++ four 0x5100 0x40 0x18 (fun q => (b.rnuQ q).miss) ++
  [(0x6008, b.store.hitCount), (0x6010, b.store.missCount), (0x6018, b.store.draftedCount), (0x6020, b.store.acceptedCount),
   (0x6028, b.store.rollbackCount), (0x6030, b.store.blocksRead)] ++
  four 0x7000 0x80 0x08 (fun q => (b.gtuQ q).cmdCount) ++ four 0x7000 0x80 0x10 (fun q => (b.gtuQ q).rowCount) ++
  four 0x7000 0x80 0x28 (fun q => (b.gtuQ q).migrateCount) ++ four 0x7000 0x80 0x30 (fun q => (b.gtuQ q).abandonCount) ++
  four 0x7000 0x80 0x38 (fun q => (b.gtuQ q).updFailCount) ++
  [(0x8020, b.mt.migrateCount), (0x8028, b.mt.abandonCount), (0x9040, b.sb.readCount), (0x9048, b.sb.writeBytes),
   (0x9050, b.sb.rebuildCount), (0xA008, b.dr.descCount), (0xA010, b.dr.byteCount), (0xA018, b.dr.failCount),
   (0xB020, b.cb.flitErr), (0xB028, b.cb.replayCount), (0xB030, b.cb.relayCount), (0xB038, b.cb.collCount),
   (0xB068, b.cb.domDrop), (0xC028, b.sec.eventCount), (0xD070, b.rel.errCorr), (0xD074, b.rel.errUncorr),
   (0xD0A8, b.rel.skipCount), (0xE040, b.ost.logLost), (0xE070, b.ost.deferCount), (0xF010, b.ost.lbErr)]

/-! ### Fences and coaches -/

def Block.fenced (b : Block) (kind idx : Nat) : Bool := b.rel.fenced.contains ⟨kind, idx⟩

/-- Live coaches (R175): those not fenced. -/
def Block.liveCoaches (b : Block) : Nat := 512 - (b.rel.fenced.filter fun u => u.kind == 1).length

/-- Coaches withdrawn for a self-test (R175, R658). -/
def Block.testWithdrawn (b : Block) : List Nat :=
  (b.ost.tests.filter fun t => t.started && t.unit.kind == 1 && !b.fenced 1 t.unit.index).map (·.unit.index)

/-- N of R159: live coaches not withdrawn for test. -/
def Block.nCoaches (b : Block) : Nat := b.liveCoaches - b.testWithdrawn.length

/-- Main domain running: main conversion on and no reset stage HELD. -/
def Block.mainUp (b : Block) : Bool := b.clk.mainOn && b.clk.stage != .held

/-! ### Time -/

/-- CCLK `j` of a period of 64 is swallowed at skip level `s` (R626). -/
def swallowed (s j : Nat) : Bool := decide (j * s / 64 < (j + 1) * s / 64)

/-- Coaches that spend a delivered CCLK on a DECODE task (R163). -/
def Block.decodeCoaches (b : Block) : Nat :=
  (b.coaches.filter fun k => (k.2.st == .running || k.2.st == .restoring || k.2.st == .saving) &&
    match k.2.task with
    | some t => t.decode
    | none => false).length

/-- The counts advance by one ungated CCLK (R626, R637, R556); before the master PLL locks, by one cycle of the 100 MHz
REFCLK instead. -/
def Block.passCclk (b : Block) : Block :=
  if !b.clk.j1Up then b
  else if !b.clk.locked then { b with ost := { b.ost with tick := b.ost.tick + 5 } }
  else
    let j := b.clk.cclk % 64
    let skip := if j = 0 then max b.rel.sPower b.rel.sThermal else b.rel.skip
    let sw := swallowed skip j
    let sub := b.ost.tickSub + 2
    let ost := if 5 ≤ sub then { b.ost with tick := b.ost.tick + 1, tickSub := sub - 5 }
      else { b.ost with tickSub := sub }
    let cb := if b.cb.lockstep then
        (if b.cb.linkSub = 2 then { b.cb with linkCycle := b.cb.linkCycle + 1, linkSub := 0 }
         else { b.cb with linkSub := b.cb.linkSub + 1 })
      else b.cb
    { b with
      tp := { b.tp with decodeCclk := b.tp.decodeCclk + (if sw then 0 else b.decodeCoaches) }
      clk := { b.clk with cclk := b.clk.cclk + 1, delivered := b.clk.delivered + (if sw then 0 else 1) }
      rel := { b.rel with skip := skip, skipCount := if sw then sat32 b.rel.skipCount 1 else b.rel.skipCount }
      ost := ost, cb := cb }

/-- One CCLK passes: the counts advance, the order port takes its next orders, and what lasts one CCLK is forgotten (R11, R110,
R114, R118, R667). -/
def Block.tick (b : Block) : Block :=
  let b := b.passCclk
  { b with
    clk := { b.clk with refNow := false, resetNow := false }
    ost := { b.ost with lbRefusedNow := false }
    host := { b.host with
      rankNow := none, appliedNow := [], flrNow := [], attnNow := [], attnAllNow := 0
      rcBase := b.rcList.filter fun r => r.2 != 0
      pages := tabMap (fun _ (p : Page) => { p with errNow := 0 }) b.host.pages } }

/-- The value of an RC register as of the start of this CCLK (R11). -/
def Block.rcOld (b : Block) (off : Nat) : W32 := tabGet 0 off b.host.rcBase

/-- A host access that stands in the queue after an event of this CCLK that it would meet is one of the next CCLK: the accesses of
a CCLK are queued before its events (DESIGN CHOICE, assumption 3), so that the event of one CCLK wins over the access (R11). -/
def Block.afterEvents (b : Block) (met : Bool) : Block := if met then b.tick else b

/-- A host write of a register of the hub region: while the main domain answers, and not in the CCLK of a warm module reset, whose
writes are discarded (R83, R667). -/
def Block.hubWrite (b : Block) (f : Block → Block) : Block := if b.mainUp && !b.clk.resetNow then f b else b

/-- A host read came back with UR, CA or poison: HUB_DMA_ERR counts it (R84). -/
def Block.dmaFailed (b : Block) : Block := { b with host := { b.host with dmaErr := sat32 b.host.dmaErr 1 } }

/-! ### Clock conversions (R12, R157) -/

/-- Delivered CCLK under skip level s (R157). -/
def convD (s d : Nat) : Nat := ceilDiv (d * 64) (64 - s)
/-- NCLK in ungated CCLK. -/
def convN (n : Nat) : Nat := ceilDiv (3 * n) 4
/-- FCLK and MCLK in ungated CCLK. -/
def convF (f : Nat) : Nat := ceilDiv (5 * f) 4

/-- Link cycles in ungated CCLK. -/
def convL (k : Nat) : Nat := 3 * k

/-! ### Memory by device address (R464) -/

/-- Base of the context range (R464). -/
def ctxRangeBase : Nat := 0x1000_0000_0000

/-- A byte of memory; where nothing has written, a free value (R9, R479). -/
def Block.readByte (b : Block) (a : Nat) : Byte := (tabFind? a b.mem).getD (Config.freeByte b.epoch a)

def Block.readMem (b : Block) (a n : Nat) : List Byte := (List.range n).map fun i => b.readByte (a + i)

/-- A byte of the context range that the context store keeps as its own data: of a key-value frame (R405, R406) or of a block table
(R408). The inner none is a byte whose value is undefined. -/
def Block.storeByte (b : Block) (off : Nat) : Option (Option Byte) :=
  match b.store.frameAt off with
  | some (x, o) => some (x.byte o)
  | none => (tableAt b.ctxs off).map fun c => c.tableByte (off - c.blockTable)

/-- The byte that a read of the machine sees: the context store's where one lies there, else the byte of memory. -/
def Block.byteAt (b : Block) (a : Nat) : Byte :=
  match if a < ctxRangeBase then none else b.storeByte (a - ctxRangeBase) with
  | some x => x.getD (Config.freeByte b.epoch a)
  | none => b.readByte a

/-- Write bytes from an address upward. -/
def writeCells (m : List Host.Cell) : Nat → List Byte → List Host.Cell
  | _, [] => m
  | a, x :: xs => writeCells (tabSet a x m) (a + 1) xs

/-- Poisoned lines after a write of bytes [a, a + n): a whole 64-byte line written loses its poison (R612). -/
def clearPoison (p : List Nat) (a n : Nat) : List Nat :=
  p.filter fun l => !(decide (a ≤ l * 64) && decide (l * 64 + 64 ≤ a + n))

def Block.writeMem (b : Block) (a : Nat) (xs : List Byte) : Block :=
  { b with mem := writeCells b.mem a xs
           rel := { b.rel with poison := clearPoison b.rel.poison a xs.length } }

/-- Forget the bytes of [a, a + n): they are undefined until written again (R9). -/
def Block.eraseMem (b : Block) (a n : Nat) : Block :=
  { b with mem := b.mem.filter fun c => !(decide (a ≤ c.1) && decide (c.1 < a + n))
           rel := { b.rel with poison := b.rel.poison.filter fun l => !(decide (a ≤ l * 64) && decide (l * 64 < a + n)) } }

/-- A line of [a, a + n) is poisoned (R612). -/
def Block.poisoned (b : Block) (a n : Nat) : Bool :=
  b.rel.poison.any fun l => decide (l * 64 < a + n) && decide (a < l * 64 + 64)

/-! ### Tenant virtual addresses (R473, R474) -/

def Block.obj? (b : Block) (t o : Nat) : Option Obj := tabFind? (t * 4096 + o) b.mt.objs

/-- A LIVE object of a tenant. -/
def Block.liveObj? (b : Block) (t o : Nat) : Option Obj :=
  match b.obj? t o with
  | some x => if x.state = .live then some x else none
  | none => none

/-- Replace an object's entry, if there is one. -/
def Block.modObj (b : Block) (t o : Nat) (f : Obj → Obj) : Block :=
  match b.obj? t o with
  | some x => { b with mt := { b.mt with objs := tabSet (t * 4096 + o) (f x) b.mt.objs } }
  | none => b

/-- A context-range page is VALID and a tenant's (R474, R485). -/
def Block.pageOf (b : Block) (t p : Nat) : Bool :=
  match tabFind? p b.mt.map with
  | some e => decide (e.tenant = t)
  | none => false

/-- The device address of [v, v + n) of a tenant's space (R473, R474); none: a translation fault. The context window
maps to the context range, whose bytes keep their place when the migration engines move a page. -/
def Block.xlate (b : Block) (t v n : Nat) : Option Nat :=
  if v < 2 ^ 47 then
    match b.liveObj? t (v / 2 ^ 35) with
    | some o => if v % 2 ^ 35 + n ≤ o.size then some (o.base + v % 2 ^ 35) else none
    | none => none
  else if v < 2 ^ 48 ∧ bits v 46 42 = 0 then
    let off := v % 2 ^ 42
    let first := off / 65536
    let last := (off + max n 1 - 1) / 65536
    if (List.range (last - first + 1)).all fun i => b.pageOf t (first + i) then some (ctxRangeBase + off) else none
  else none

/-- Bytes of a tenant's space, none on a translation fault. -/
def Block.readV (b : Block) (t v n : Nat) : Option (List Byte) :=
  match b.xlate t v n with
  | some a => some ((List.range n).map fun i => b.byteAt (a + i))
  | none => none

/-- The pages of the context range that [v, v + n) enters. -/
def pagesIn (v n : Nat) : List Nat :=
  if v < 2 ^ 47 then []
  else
    let off := v % 2 ^ 42
    (List.range ((off + max n 1 - 1) / 65536 - off / 65536 + 1)).map fun i => off / 65536 + i

/-- Heat period number (R486): MT_HEAT.PERIOD × 1,024 NCLK; 4 NCLK last 3 CCLK. -/
def Block.heatPeriod (b : Block) : Nat := b.clk.cclk * 4 / 3 / (b.mt.period * 1024)

/-- HEAT of an entry as of a period (R486 step 1). -/
def PageEnt.decayed (e : PageEnt) (period : Nat) : Nat :=
  let d := (period + 256 - e.stamp) % 256
  if 8 ≤ d then e.heat / 256 else e.heat / 2 ^ d

/-- The map access of one page (R486, R487): HEAT rises, a write under MIGRATING sets DIRTY, a hot DDR page becomes a
candidate of its quarter's engine. -/
def Block.touchPage (b : Block) (write : Bool) (p : Nat) : Block :=
  match tabFind? p b.mt.map with
  | none => b
  | some e =>
    let per := b.heatPeriod
    let heat := min 255 (e.decayed per + 1)
    let e := { e with heat := heat, stamp := per % 256, dirty := e.dirty || (write && e.migrating) }
    let cand := !e.hbm && !e.noMove && decide (b.mt.promote ≤ heat) && !(b.ten e.tenant).quota.preferDdr &&
      (tabFind? e.quarter b.mt.moves).isNone && (tabFind? e.quarter b.mt.candidate).isNone && !e.migrating &&
      !b.fenced 8 e.quarter
    { b with mt := { b.mt with
        map := tabSet p e b.mt.map
        candidate := if cand then tabSet e.quarter p b.mt.candidate else b.mt.candidate } }

/-- The map accesses of a transfer of [v, v + n) (R475, R486). -/
def Block.touchV (b : Block) (write : Bool) (v n : Nat) : Block :=
  (pagesIn v n).foldl (fun b p => b.touchPage write p) b

/-- Write to a tenant's space; none on a translation fault. -/
def Block.writeV (b : Block) (t v : Nat) (xs : List Byte) : Option Block :=
  match b.xlate t v xs.length with
  | some a => some ((b.touchV true v xs.length).writeMem a xs)
  | none => none

/-- The context-window address of an offset in the context range (R473). -/
def ctxTva (off : Nat) : Nat := 2 ^ 47 + off

/-! ### Use and quotas (R488 to R492) -/

def Tiers.add (x y : Tiers) : Tiers := ⟨x.hbm + y.hbm, x.ddr + y.ddr, x.pages + y.pages, x.slots + y.slots⟩

/-- What a tenant holds in each tier (R488). -/
def Block.held (b : Block) (t : Nat) : Tiers :=
  let objs := b.mt.objs.filter fun o => o.1 / 4096 == t
  { hbm := natSum ((objs.filter fun o => o.2.hbm).map fun o => o.2.size)
    ddr := natSum ((objs.filter fun o => !o.2.hbm).map fun o => o.2.size) + 1024 * (b.ten t).routes.length
    pages := (b.mt.map.filter fun e => e.2.tenant == t).length +
      natSum ((b.ctxs.filter fun c => c.2.tenant == t).map fun c => c.2.swapPages) +
      natSum ((b.store.slices.filter fun x => x.2.tenant == t && !x.2.coming).map fun x => natSum (x.2.held.map fun f => f.pages.length))
    slots := (b.sb.slots.filter fun x => x.1 / 2 ^ 40 == t).length }

/-- What a tenant's admitted requests have reserved and not drawn (R490). -/
def Block.reservedOf (b : Block) (t : Nat) : Tiers :=
  (b.ctxs.filter fun c => c.2.tenant == t).foldl (fun acc c =>
    match c.2.req with
    | some r => acc.add r.need
    | none => acc) Tiers.zero

/-- Use of R490: held plus reserved. -/
def Block.use (b : Block) (t : Nat) : Tiers := (b.held t).add (b.reservedOf t)

/-- Use in a tier stands at or above NEAR percent of its quota (R492). -/
def nearOne (near use quota : Nat) : Bool := decide (0 < use) && decide (near * quota ≤ 100 * use)

def Quota.nearTiers (q : Quota) (u : Tiers) : List Bool :=
  [nearOne q.near u.hbm q.hbm, nearOne q.near u.ddr q.ddr, nearOne q.near u.pages q.pages,
   nearOne q.near u.slots q.slots]

/-- Make a change and set QUOTA_NEAR if it took some tier of the tenant to its threshold (R492). -/
def Block.withNear (b : Block) (t : Nat) (f : Block → Block) : Block :=
  let b' := f b
  let q := (b'.ten t).quota
  let was := q.nearTiers (b.use t)
  let is := q.nearTiers (b'.use t)
  if q.near ≠ 0 ∧ (was.zip is).any (fun p => !p.1 && p.2) then b'.attnTen attnQuotaNear t else b'

/-! ### Context pages (R482 to R485) -/

/-- Base of a quarter's part of a tier (R464). -/
def partBase (hbm : Bool) (q : Nat) : Nat :=
  if hbm then 0x0100_0000_0000 + q * 0x12_0000_0000 else 0x0200_0000_0000 + q * 0x90_0000_0000

/-- Live stacks or channels of a quarter (R465, R624). -/
def Block.liveUnits (b : Block) (hbm : Bool) (q : Nat) : List Nat :=
  if hbm then ((List.range 2).map (2 * q + ·)).filter fun i => !b.fenced 2 i
  else ((List.range 6).map (6 * q + ·)).filter fun i => !b.fenced 3 i

/-- Bytes of a quarter's part of a tier: 36 GiB a live stack, 96 GiB a live channel (R464, R624). -/
def Block.partSize (b : Block) (hbm : Bool) (q : Nat) : Nat :=
  (b.liveUnits hbm q).length * ((if hbm then 36 else 96) * 2 ^ 30)

/-- Bytes of the reserved regions in a quarter's part of a tier (R467), rounded up to whole pages. They lie at its top, the
context pool at its base, objects between them (a DESIGN CHOICE of the placement). -/
def reservedPart (hbm : Bool) : Nat :=
  if hbm then 3 * 134217728 else roundUp (15000000000 + 2147483648 + 8388608 + 4194304) 65536

/-- Objects of a quarter's part of a tier: base and size. -/
def Block.objsIn (b : Block) (hbm : Bool) (q : Nat) : List (Nat × Nat) :=
  (b.mt.objs.filter fun o => o.2.hbm == hbm && o.2.quarter == q).map fun o => (o.2.base, o.2.size)

/-- Pages of a tier's pool in one quarter: its GiB times 16,384 pages, over four quarters (R482), as far as the part reaches
and no object lies there. -/
def Block.poolPages (b : Block) (hbm : Bool) (q : Nat) : Nat :=
  let want := (if hbm then b.mt.poolHbm else b.mt.poolDdr) * 16384 / 4
  let room := (b.partSize hbm q - reservedPart hbm) / 65536
  (b.objsIn hbm q).foldl (fun m o => min m ((o.1 - partBase hbm q) / 65536)) (min want room)

/-- Physical pool pages in use or within the hold time (R484, R487). -/
def Block.usedPages (b : Block) (hbm : Bool) (q : Nat) : List Nat :=
  ((b.mt.map.filter fun e => e.2.hbm == hbm && e.2.quarter == q).map fun e => e.2.page) ++
  ((b.mt.moves.filter fun m => m.1 == q && m.2.toHbm == hbm).map fun m => m.2.newPage) ++
  ((b.mt.held.filter fun h => h.hbm == hbm && h.quarter == q).map fun h => h.page)

/-- The lowest free pool page of a quarter and tier (a DESIGN CHOICE of the placement), if any. -/
def Block.freePoolPage (b : Block) (hbm : Bool) (q : Nat) : Option Nat :=
  let p := leastFree (b.usedPages hbm q)
  if p < b.poolPages hbm q then some p else none

/-- The tier and page that a quarter gives under the tenant's hints (R483). -/
def Block.quarterPage (b : Block) (preferDdr : Bool) (q : Nat) : Option (Bool × Nat) :=
  match b.freePoolPage (!preferDdr) q with
  | some p => some (!preferDdr, p)
  | none =>
    match b.freePoolPage preferDdr q with
    | some p => some (preferDdr, p)
    | none => none

/-- Quarter, tier and page for a context of coachman `m` (R483). -/
def Block.placePage (b : Block) (t m : Nat) : Option (Nat × Bool × Nat) :=
  let pd := (b.ten t).quota.preferDdr
  let qs := (m % 4) :: (List.range 4).filter (· != m % 4)
  qs.findSome? fun q => (b.quarterPage pd q).map fun r => (q, r.1, r.2)

/-- Lowest run of `k` numbers none of which stands in `used` (a DESIGN CHOICE of the placement). -/
def freeRun (used : List Nat) (k : Nat) : Nat :=
  let ok := fun c => used.all fun u => decide (u < c) || decide (c + k ≤ u)
  let cands := (0 :: used.map (· + 1)).filter ok
  cands.foldl min (cands.headD 0)

/-- Allocate `k` consecutive context-range pages for a tenant's context of coachman `m` (R129, R483); none when both
pools of every quarter are empty, and the need waits under R170. -/
def Block.takePages (b : Block) (t m k : Nat) : Option (Block × List Nat) :=
  let first := freeRun (b.mt.map.map (·.1)) k
  let step := fun (acc : Option Block) (i : Nat) =>
    match acc with
    | none => none
    | some b =>
      match b.placePage t m with
      | none => none
      | some (q, hbm, p) =>
        let e : PageEnt :=
          { tenant := t, hbm := hbm, quarter := q, migrating := false, dirty := false
            noMove := (b.ten t).quota.noMigrate, heat := 0, stamp := b.heatPeriod % 256, page := p }
        some { b with mt := { b.mt with map := tabSet (first + i) e b.mt.map } }
  match (List.range k).foldl step (some b) with
  | some b => some (b, (List.range k).map (first + ·))
  | none => none

/-- Free a context-range page (R484, R487): its pool page, and the copy's page if it is being moved, enter the hold
time; its bytes are forgotten. -/
def Block.freePage (b : Block) (p : Nat) : Block :=
  match tabFind? p b.mt.map with
  | none => b
  | some e =>
    let mine := b.mt.moves.filter fun m => m.2.page == p
    let extra := mine.map fun m => (⟨m.2.toHbm, m.1, m.2.newPage, b.clk.cclk⟩ : HeldPage)
    let b := b.eraseMem (ctxRangeBase + p * 65536) 65536
    { b with mt := { b.mt with
        map := tabErase p b.mt.map
        moves := b.mt.moves.filter fun m => m.2.page != p
        candidate := b.mt.candidate.filter fun c => c.2 != p
        abandonCount := sat32 b.mt.abandonCount mine.length
        held := b.mt.held ++ [⟨e.hbm, e.quarter, e.page, b.clk.cclk⟩] ++ extra } }

def Block.freePages (b : Block) (ps : List Nat) : Block := ps.foldl Block.freePage b

/-- Outcome of a request for context pages. -/
inductive PageRes
  | got (b : Block) (pages : List Nat)
  | quota
  | wait

/-- The coachman of a context (R27), and of a number that stands for work of another module. -/
def coachman (n : Nat) : Nat := n / 16384 % 8

/-- Work for another module (R299). Its number lies beyond every context's. -/
def Block.work? (b : Block) (n : Nat) : Option WorkRun := tabFind? n b.ske.works

def Block.modWork (b : Block) (n : Nat) (f : WorkRun → WorkRun) : Block :=
  { b with ske := { b.ske with works := tabMap (fun k w => if k = n then f w else w) b.ske.works } }

/-- The tenant that a tile task or a search works for. -/
def Block.tenantOf (b : Block) (n : Nat) : Nat := match b.work? n with
  | some w => w.tenant
  | none => (b.ctx n).tenant

/-- ADMIT of a context; work of another module counts as admitted when its message arrived (R299). -/
def Block.admitOf (b : Block) (n : Nat) : Nat := match b.work? n with
  | some w => w.since
  | none => (b.ctx n).admitAt

/-- `k` context pages for context `n`, drawn on its request's reservation first (R490, R491). -/
def Block.ctxPages (b : Block) (n k : Nat) : PageRes :=
  if k = 0 then .got b []
  else
    let c := b.ctx n
    let need := match c.req with
      | some r => r.need.pages
      | none => 0
    let t := b.tenantOf n
    let u := (b.use t).pages
    if (b.ten t).quota.pages < u + k - min k need then .quota
    else
      match b.takePages t (coachman n) k with
      | none => .wait
      | some (b', ps) =>
        let b'' := b'.modCtx n fun c => { c with
          req := c.req.map fun r => { r with need := { r.need with pages := r.need.pages - k } } }
        .got (b.withNear c.tenant fun _ => b'') ps

/-! ### Replies (R96 to R106) -/

/-- Free slots of a reply ring (R96). -/
def Page.freeSlots (p : Page) : Nat := 2 ^ p.rplSize.toNat - (p.rplPi - p.rplCi).toNat

/-- ACTIVE of R90, R92. -/
def Page.active (p : Page) : Bool := p.enable || decide (0 < p.owed)

/-- The 64 bytes of a reply record (R104, R106). -/
def Reply.bytes (r : Reply) (attn : Byte) (now : Nat) (phase : Bool) : List Byte :=
  let status := attn.toNat * 2 ^ 24 + r.cls * 2 ^ 16 + r.code.toNat
  let word1 := (if r.outbuf then 2 ^ 25 else 0) + (if r.last then 2 ^ 24 else 0) + r.ctx
  let cycles := match r.admitAt with
    | some a => min ((now - a) / 1024) 0xFFFFFFFF
    | none => 0
  le 4 status ++ le 4 word1 ++ le 8 r.tag.toNat ++ le 4 (r.step * 2 ^ 16 + r.seq % 2 ^ 16) ++
  le 4 (min r.aux 0xFFFFFF * 256 + min r.payload.length 32) ++ (r.payload ++ List.replicate 32 0).take 32 ++
  le 4 cycles ++ le 4 (if phase then 2 ^ 31 else 0)

/-- Write a reply into the next slot of a page's reply ring (R97): the body may carry Relaxed Ordering, the tail with
PHASE never does. -/
def Block.putReply (b : Block) (pg : Nat) (r : Reply) : Block :=
  let p := b.page pg
  let slot := p.rplPi.toNat % 2 ^ p.rplSize.toNat
  let addr := p.rplBase.toNat + 64 * slot
  let bytes := r.bytes (b.host.attnOf pg) b.clk.cclk p.phase
  let wrap := slot + 1 = 2 ^ p.rplSize.toNat
  let b := (b.emit (.write addr (bytes.take 60) true)).emit (.write (addr + 60) (bytes.drop 60) false)
  b.modPage pg fun p => { p with
    rplPi := p.rplPi + 1, phase := if wrap then !p.phase else p.phase, owed := if r.last then p.owed - 1 else p.owed }

/-- A reply beyond the first of its request: it takes a slot that no reservation needs, or waits (R98). -/
def Block.putOrWait (b : Block) (pg : Nat) (r : Reply) : Block × Bool :=
  let p := b.page pg
  if p.waiting.isEmpty && decide (p.reserved < p.freeSlots) then (b.putReply pg r, true)
  else (b.modPage pg fun p => { p with waiting := p.waiting ++ [r] }, false)

/-- A reply under the reservation of R96: the first of its request. -/
def Block.putReserved (b : Block) (pg : Nat) (r : Reply) : Block :=
  (b.modPage pg fun p => { p with reserved := p.reserved - 1 }).putReply pg r

/-- A refusal at fetch or by the turnpike (R103, R154): class REFUSED, LAST, CYCLES 0. -/
def Block.refuse (b : Block) (pg ctx : Nat) (tag : W64) (code : Code) (aux : Nat) : Block :=
  b.putReserved pg
    { cls := 3, code := code, outbuf := false, last := true, ctx := ctx, tag := tag, step := 0, seq := 0, aux := aux
      payload := [], admitAt := none }

/-! ### Teams (R545 to R559) and the domain (R558, R576) -/

/-- The module is in lockstep with other members (R559). -/
def Block.inTeam (b : Block) : Bool := b.cb.lockstep && decide (1 < b.cb.size)

/-- Own team position (R49, R580). -/
def Block.position (b : Block) : Nat := if bit b.clk.straps.toNat 3 then 0 else b.clk.straps.toNat % 8

/-- Present positions other than the module's own. -/
def Block.others (b : Block) : List Nat :=
  (List.range 8).filter fun p => bit b.cb.present.toNat p && p != b.position

/-- Start a team commit as its coordinator (R559 step 1): apply cycle c + 3L + 16. `own`: its issuer is of this module. -/
def Block.startCommit (b : Block) (body : CommitBody) (own : Bool) : Block :=
  let d : CommitMsg :=
    { id := b.cb.nextCommit, coordinator := b.position, applyCycle := b.cb.linkCycle + 3 * b.cb.l + 16, body := body }
  let b := { b with cb := { b.cb with
    nextCommit := b.cb.nextCommit + 1, commits := b.cb.commits ++ [(⟨d, own, false, false⟩ : Commit)] } }
  b.others.foldl (fun b p => b.cbEmit (.prepare p d)) b

/-- Transport state toward a module of the domain. -/
def Block.pair (b : Block) (m : Nat) : Pair := tabGet Pair.new m b.cb.pairs
def Block.modPair (b : Block) (m : Nat) (f : Pair → Pair) : Block :=
  { b with cb := { b.cb with pairs := tabMod Pair.new m f b.cb.pairs } }

/-- How another module is reached: in the team (false), or over the domain (true); none: not at all (R300, R558, R576). -/
def Block.moduleVia (b : Block) (m : Nat) : Option Bool :=
  if b.inTeam ∧ b.others.any (fun p => tabGet 0 p b.cb.teamMods == m) then some false
  else if b.cb.teamMods.any (fun p => p.2 == m && bit b.cb.expected.toNat p.1 && !bit b.cb.present.toNat p.1) then none
  else if b.cb.domEnable ≠ 0 ∧ (b.pair m).deadUntil ≤ b.clk.cclk then some true
  else none

/-- Team position of a module. -/
def Block.positionOf (b : Block) (m : Nat) : Nat := (b.others.find? fun p => tabGet 0 p b.cb.teamMods == m).getD 0

/-- A message of the domain takes the next PSN toward its module (R576); the spec gives no frame count of a message. -/
def Block.domSend (b : Block) (m : Nat) (o : CbOut) : Block :=
  (b.modPair m fun p => { p with
    since := if p.ackPsn = p.txPsn then b.clk.cclk else p.since, txPsn := p.txPsn + 1 }).cbEmit o

/-- An answer with nothing in it. -/
def Block.resultOf (b : Block) (m : WorkMsg) (code : Code) : ResultMsg :=
  { module := b.cb.module, ctx := m.ctx, setIdx := m.setIdx, code := code, epoch := m.pin.getD 0, ids := [], scores := [], deaths := []
    tails := [], records := [], rows := [], gather := false }

/-- Send an answer back: to a module of the domain, or to a team position. -/
def Block.answerWork (b : Block) (domain : Bool) (dest : Nat) (r : ResultMsg) : Block :=
  if domain then b.domSend dest (.result dest true r) else b.cbEmit (.result dest false r)

/-- Send WORK for a module (R298, R577): over the team or the domain. -/
def Block.sendTo (b : Block) (m : Nat) (w : WorkMsg) : Block :=
  if (b.moduleVia m).getD true then b.domSend m (.work m true w) else b.cbEmit (.work (b.positionOf m) false w)

/-- Key of a pinned shard: its number here, a number beyond on another module (R281). -/
def Block.pinKey (b : Block) (m s : Nat) : Nat := if m = b.cb.module then s else 2 ^ 20 + m * 64 + s

/-- A WORK message of a context (R298, R299). -/
def Block.workMsg (b : Block) (n setIdx : Nat) (pin : Option Nat) (body : WorkBody) : WorkMsg :=
  let t := (b.ctx n).tenant
  { module := b.cb.module, version := b.sec.svn, ctx := n, coachman := coachman n, tenant := t, dtid := (b.ten t).dtid, setIdx := setIdx
    pin := pin, body := body }

/-- A request ends: the modules whose shards it has asked for drop its pins (R281, R284). -/
def Block.dropPins (b : Block) (n : Nat) : Block :=
  match (b.ctx n).req with
  | none => b
  | some r => r.asked.foldl (fun (b : Block) p =>
      if (b.moduleVia p.1).isNone then b else b.sendTo p.1 (b.workMsg n 0 none (.drop p.2))) b

/-- The record reads of a request or of work run to their end, and their results are discarded (R149, R152, R299). -/
def Block.dropFetches (b : Block) (n : Nat) : Block :=
  let gone := fun (r : SbRead) => match r.fetch with
    | some (m, _) => if m = n then { r with fetch := none } else r
    | none => r
  { b with sb := { b.sb with reads := tabMap (fun _ l => l.map gone) b.sb.reads } }

end Sys2Proof.Machine
end

