-- ==== Sys2Proof/Machine/Frames.lean ====
section
/-!
DEFINITION. Machine/Frames.lean: the context store (R404 to R426): generator declarations, key-value frames and their sketches,
block tables, the prefix index and rollback.
-/
namespace Sys2Proof.Machine

/-! ### Generator objects (R404, R477) -/

/-- Element bytes of KV_FMT (R404). -/
def kvBytes (fmt : Nat) : Nat := if fmt = 0 then 1 else 2

/-- Whole pages of a frame (R405). -/
def framePages (g : GeneratorDecl) : Nat :=
  ceilDiv (20480 + 2 * g.layers * 64 * g.kvHeads * g.headDim * kvBytes g.kvFmt) 65536

/-- The key and value bytes of one block on this module, without the header region (R171, R405). -/
def blockKv (g : GeneratorDecl) : Nat := 2 * g.layers * 64 * g.kvHeads * g.headDim * kvBytes g.kvFmt

/-- The declaration of a LIVE object of kind GENERATOR (R404). -/
def Block.generator (b : Block) (t o : Nat) : Option GeneratorDecl :=
  match b.liveObj? t o with
  | some x => if x.kind = 6 then x.decl.bind fun d => d.generator else none
  | none => none

/-! ### Frames -/

def Block.frame (b : Block) (f : Nat) : Option Frame := tabFind? f b.store.frames

def Block.modFrame (b : Block) (f : Nat) (g : Frame → Frame) : Block :=
  match b.frame f with
  | some x => { b with store := { b.store with frames := tabSet f (g x) b.store.frames } }
  | none => b

/-- Drop a reference; a frame without any is released (R426). -/
def Block.unrefFrame (b : Block) (f : Nat) : Block :=
  match b.frame f with
  | none => b
  | some x =>
    if x.refs ≤ 1 then
      ({ b with store := { b.store with frames := tabErase f b.store.frames } }).freePages x.pages
    else b.modFrame f fun x => { x with refs := x.refs - 1 }

def Block.unrefAll (b : Block) (es : List BlockEnt) : Block := es.foldl (fun b e => b.unrefFrame e.frame) b

/-- A prefix index entry goes, with its reference (R423, R425). -/
def Block.dropPrefix (b : Block) (e : Nat) : Block :=
  match tabFind? e b.store.prefixes with
  | none => b
  | some p =>
    ({ b with store := { b.store with prefixes := tabErase e b.store.prefixes } }).unrefFrame p.frame

/-- Empty the prefix index and the mask caches of a tenant (R65). -/
def Block.dropTenantCaches (b : Block) (t : Nat) : Block :=
  let b := (b.store.prefixes.filter fun p => p.1 / 256 == t).foldl (fun b p => b.dropPrefix p.1) b
  { b with rnu := tabMap (fun _ u => { u with cache := u.cache.filter fun k => k.tenant != t }) b.rnu }

/-! ### Block tables -/

/-- Outcome of a commit's allocation: done, waiting for pages (R170), or a quota code (R491). -/
inductive Alloc
  | done (b : Block)
  | wait
  | fail (c : Code)
deriving DecidableEq, Repr

/-- Aux pages that a context needs with `extra` tokens more in its log (R408, R411, R488): block table, text record, token log,
next-token record, draft table. -/
def Ctx.auxNeed (c : Ctx) (nextBytes extra : Nat) : Nat :=
  ceilDiv (64 + 8 * c.blocks.length) 65536 + 1 + ceilDiv (4 * (c.tokenLog.length + extra)) 65536 +
  ceilDiv nextBytes 65536 +
  (if c.draftTable.isEmpty then 0 else ceilDiv (64 + 8 * c.draftTable.length) 65536)

/-- Give a context the aux pages that it needs. -/
def Block.growAux (b : Block) (n nextBytes extra : Nat) : Alloc :=
  let c := b.ctx n
  match b.ctxPages n (c.auxNeed nextBytes extra - c.pages.length) with
  | .got b ps => .done (b.modCtx n fun c => { c with pages := c.pages ++ ps })
  | .wait => .wait
  | .quota => .fail Codes.mtQuotaPages

/-- A new frame for context `n` (R405, R483); its place, in 64-byte units. -/
def Block.newFrame (b : Block) (n : Nat) (g : GeneratorDecl) (gen pos : Nat) : Alloc × Nat :=
  match b.ctxPages n (framePages g) with
  | .quota => (.fail Codes.mtQuotaPages, 0)
  | .wait => (.wait, 0)
  | .got b ps =>
    let c := b.ctx n
    let f := ps.headD 0 * 1024
    let x : Frame :=
      { refs := 1, tenant := c.tenant, adapterVer := c.adapterVer, gen := gen, firstPos := pos, slots := [], pages := ps
        bytes := blockKv g, wide := kvBytes g.kvFmt == 2, row := g.kvHeads * g.headDim * kvBytes g.kvFmt }
    (.done { b with store := { b.store with frames := tabSet f x b.store.frames } }, f)

/-- The table that a pass writes: the context's own, or its draft table (R408, R420). -/
def Ctx.table (c : Ctx) (draft : Bool) : List BlockEnt := if draft then c.draftTable else c.blocks

/-- Write one position (R406, R412): the block's frame, new where the block begins. -/
def Block.writePos (b : Block) (n : Nat) (draft : Bool) (g : GeneratorDecl) (gen pos tok : Nat) (kv : KvToken) : Alloc :=
  let blk := pos / 64
  let tbl := (b.ctx n).table draft
  let slot : KvSlot := { token := tok, kv := kv.kv, dots := kv.dots }
  match tbl[blk]? with
  | some e => .done (b.modFrame e.frame fun x => { x with slots := x.slots.take (pos % 64) ++ [slot] })
  | none =>
    match b.newFrame n g gen (64 * blk) with
    | (.done b, f) =>
      let b := b.modCtx n fun c =>
        if draft then { c with draftTable := c.draftTable ++ [⟨false, f⟩] } else { c with blocks := c.blocks ++ [⟨false, f⟩] }
      .done (b.modFrame f fun x => { x with slots := [slot] })
    | r => r.1

/-- Write a run of positions from `pos` (R412). -/
def Block.writeRun (b : Block) (n : Nat) (draft : Bool) (g : GeneratorDecl) (gen pos : Nat) :
    List (Nat × KvToken) → Alloc
  | [] => .done b
  | (tok, kv) :: rest =>
    match b.writePos n draft g gen pos tok kv with
    | .done b => b.writeRun n draft g gen (pos + 1) rest
    | r => r

/-- Roll a table back to `len` positions (R421): frames from there on are freed, the last one takes its FILL; its sums
are those of the slots that remain (R407). -/
def Block.trimTable (b : Block) (n : Nat) (draft : Bool) (len : Nat) : Block :=
  let tbl := (b.ctx n).table draft
  let keep := ceilDiv len 64
  let b := b.unrefAll (tbl.drop keep)
  let b := b.modCtx n fun c =>
    if draft then { c with draftTable := c.draftTable.take keep } else { c with blocks := c.blocks.take keep }
  match (tbl.take keep).getLast? with
  | some e => if e.sharedRef then b else b.modFrame e.frame fun x => { x with slots := x.slots.take (len - x.firstPos) }
  | none => b

/-- Rollback of a round or of a step that stops (R418, R421): everything beyond KV_LEN goes. -/
def Block.rollback (b : Block) (n : Nat) : Block :=
  let c := b.ctx n
  let b := b.trimTable n false c.kvLen
  let b := b.trimTable n true (min c.draftLen c.kvLen)
  b.modCtx n fun c => { c with
    specOpen := false, tokenLog := c.tokenLog.take c.kvLen, draftLen := min c.draftLen c.kvLen
    sharedBlocks := min c.sharedBlocks c.blocks.length
    prefixShared := c.prefixShared && decide (0 < min c.sharedBlocks c.blocks.length) }

/-- Release the draft table (R420). -/
def Block.dropDraft (b : Block) (n : Nat) : Block :=
  (b.unrefAll (b.ctx n).draftTable).modCtx n fun c => { c with draftTable := [], draftLen := 0 }

/-! ### Slices of other members (R409) -/

/-- What the home module decides about a context's blocks is a team commit for the slices on other members (R409, R559). -/
def Block.sliceDecision (b : Block) (n : Nat) : Block :=
  let c := b.ctx n
  let sliced := match b.generator c.tenant c.gen with
    | some g => g.sliced
    | none => false
  if b.inTeam && sliced then b.startCommit (.blocks n c.tenant c.gen c.kvLen) true else b

/-! ### Prefix sharing (R423 to R426) -/

/-- The tenant's entry that holds the block `toks` after the entry `parent` (R424): the comparison is on the tokens. -/
def Block.prefixEntry (b : Block) (t gen ver : Nat) (parent : Option Nat) (toks : List Nat) : Option Nat :=
  ((b.store.prefixes.find? fun p => p.1 / 256 == t && p.2.parent == parent && p.2.gen == gen && p.2.adapterVer == ver &&
    match b.frame p.2.frame with
    | some f => f.slots.map (·.token) == toks
    | none => false).map fun p => p.1 % 256)

/-- Match leading blocks one after the other (R424): the entries of the chain. -/
def Block.matchChain (b : Block) (t gen ver : Nat) : Option Nat → List (List Nat) → List Nat
  | _, [] => []
  | parent, x :: xs =>
    match b.prefixEntry t gen ver parent x with
    | some e => e :: b.matchChain t gen ver (some e) xs
    | none => []

/-- Whole blocks of 64 of a list. -/
def wholeBlocks (l : List Nat) : List (List Nat) := (List.range (l.length / 64)).map fun i => (l.drop (64 * i)).take 64

/-- Take a matched entry into a context's table (R424, R425): a reference more, the use stamp refreshed. -/
def Block.useEntry (b : Block) (n t : Nat) (e : Nat) : Block :=
  match tabFind? (t * 256 + e) b.store.prefixes with
  | none => b
  | some p =>
    let b := { b with store := { b.store with
      prefixes := tabSet (t * 256 + e) { p with stamp := b.tp.progSeq } b.store.prefixes } }
    (b.modFrame p.frame fun f => { f with refs := f.refs + 1 }).modCtx n fun c => { c with
      blocks := c.blocks ++ [⟨true, p.frame⟩] }

/-- The entry that a registration takes (R425): a free one, else the one with the oldest use stamp that no other entry names as
PARENT; the block's own parent is named by the new entry. -/
def Block.entryFor (b : Block) (t : Nat) (parent : Option Nat) : Option Nat :=
  let mine := b.store.prefixes.filter fun p => p.1 / 256 == t
  let free := leastFree (mine.map (·.1 % 256))
  if free < 256 then some free
  else
    let ok := mine.filter fun p => some (p.1 % 256) != parent && !(mine.any fun q => q.2.parent == some (p.1 % 256))
    ((sortBy (fun x y => decide (x.2.stamp < y.2.stamp) || (x.2.stamp == y.2.stamp && decide (x.1 ≤ y.1))) ok).head?).map (·.1 % 256)

/-- Register the full blocks that follow a matched chain (R425). -/
def Block.registerBlocks (b : Block) (t gen ver : Nat) : Option Nat → List Nat → Block
  | _, [] => b
  | parent, f :: fs =>
    match b.entryFor t parent with
    | none => b
    | some e =>
      let b := b.dropPrefix (t * 256 + e)
      let x : PrefixEnt := { frame := f, parent := parent, gen := gen, adapterVer := ver, stamp := b.tp.progSeq }
      let b := { b with store := { b.store with prefixes := tabSet (t * 256 + e) x b.store.prefixes } }
      (b.modFrame f fun y => { y with refs := y.refs + 1 }).registerBlocks t gen ver (some e) fs

/-- PREFILL's writes (R412, R424): leading blocks matched where the context holds no position yet, the other positions written.
The entries matched come with the block. -/
def Block.prefillWrite (b : Block) (n : Nat) (g : GeneratorDecl) (gen : Nat) (toks : List Nat) (kv : List KvToken) :
    Alloc × List Nat :=
  let c := b.ctx n
  let chain := if c.kvLen = 0 then
      b.matchChain c.tenant gen c.adapterVer none (wholeBlocks (toks.take ((toks.length - 1) / 64 * 64)))
    else []
  let b := chain.foldl (fun (b : Block) e => b.useEntry n c.tenant e) b
  let done := 64 * chain.length
  let b := if c.kvLen ≠ 0 then b
    else if chain.isEmpty then { b with store := { b.store with missCount := sat32 b.store.missCount 1 } }
    else
      ({ b with store := { b.store with hitCount := sat32 b.store.hitCount chain.length } }).modCtx n fun c => { c with
        sharedBlocks := chain.length, prefixShared := true }
  let left := toks.drop done
  let data := left.zipIdx.map fun p => (p.1, kv.getD p.2 ⟨[], []⟩)
  match b.writeRun n false g gen (c.kvLen + done) data with
  | .done b => (b.growAux n g.nextBytes toks.length, chain)
  | r => (r, chain)

/-- A PREFILL completes (R412, R425): the token log, KV_LEN, the next-token record, the prefix entries of the blocks it wrote. -/
def Block.storeCommit (b : Block) (n : Nat) (p : PrefillRun) : Block :=
  let b := b.modCtx n fun c => { c with
    kvLen := c.kvLen + p.tokens.length, tokenLog := c.tokenLog ++ p.tokens, gen := p.gen, nextRec := some p.next }
  match p.chain with
  | none => b
  | some chain =>
    let c := b.ctx n
    let full := (c.blocks.take (c.kvLen / 64)).drop chain.length
    b.registerBlocks c.tenant p.gen c.adapterVer chain.getLast? (full.map (·.frame))

end Sys2Proof.Machine
end

