-- ==== Sys2Proof/Machine/Request.lean ====
section
/-!
DEFINITION. Machine/Request.lean: the request that a context runs: its replies, its output buffer, its lists, the
commit of a step and the end of the request (R125 to R137, R149 to R152).
-/
namespace Sys2Proof.Machine

/-! ### Route versions and instructions (R119 to R124) -/

/-- A route version that some context holds. -/
def Block.routeHeldBy (b : Block) (t rid ver : Nat) : Bool :=
  b.ctxs.any fun c => c.2.tenant == t && c.2.routeHeld && c.2.routeId == rid && c.2.routeVer == ver

/-- Free the route versions that neither take new admissions nor are held (R122). -/
def Block.gcRoutes (b : Block) (t : Nat) : Block :=
  b.modTen t fun e => { e with routes := e.routes.filter fun v => v.current || b.routeHeldBy t v.routeId v.version }

/-- Free the adapter configuration versions that are neither current nor held (R428). -/
def Block.gcAdapters (b : Block) (t : Nat) : Block :=
  b.modTen t fun e => { e with
    adapters := e.adapters.filter fun v => v.current ||
      b.ctxs.any (fun c => c.2.tenant == t && c.2.adapterHeld && c.2.adapterVer == v.version) }

/-- A route instruction as its 128-bit number (R123). -/
structure RInstr where
  imm32 : Nat
  obj : Nat
  imm16 : Nat
  ra : Nat
  rb : Nat
  rd : Nat
  la : Nat
  lb : Nat
  ld : Nat
  rpl : Nat
  iflags : Nat
  sub : Nat
  op : Nat
deriving DecidableEq, Repr

/-- The fields of R123. -/
def RInstr.ofNat (v : Nat) : RInstr :=
  { imm32 := bits v 127 96, obj := bits v 95 80, imm16 := bits v 79 64, ra := bits v 63 60, rb := bits v 59 56
    rd := bits v 55 52, la := bits v 50 48, lb := bits v 46 44, ld := bits v 42 40, rpl := bits v 31 24
    iflags := bits v 23 16, sub := bits v 15 8, op := bits v 7 0 }

/-- The version of a route that new admissions take (R122). -/
def Block.currentRoute (b : Block) (t rid : Nat) : Option RouteVersion :=
  (b.ten t).routes.find? fun v => v.current && v.routeId == rid

/-- The route version that a context holds. -/
def Block.heldRoute (b : Block) (n : Nat) : Option RouteVersion :=
  let c := b.ctx n
  (b.ten c.tenant).routes.find? fun v => v.routeId == c.routeId && v.version == c.routeVer

def RouteVersion.at (r : RouteVersion) (pc : Nat) : Option RInstr :=
  (r.code[pc]?).map fun x => RInstr.ofNat (unle x)

/-- The instruction at a context's PC. -/
def Block.instrAt (b : Block) (n : Nat) : Option RInstr :=
  match b.heldRoute n with
  | some r => r.at (b.ctx n).pc
  | none => none

/-! ### Registers and lists (R128 to R131) -/

def Ctx.reg (c : Ctx) (i : Nat) : W64 := tabGet 0 i c.rg
def Ctx.setReg (c : Ctx) (i : Nat) (v : W64) : Ctx := { c with rg := tabSet i v c.rg }
def Ctx.list (c : Ctx) (i : Nat) : ListHandle := tabGet ⟨0, 0, 0⟩ i c.lh

/-- List kinds of R130. -/
def kTokens : Nat := 1
def kVector : Nat := 2
def kCandidates : Nat := 3
def kPartitions : Nat := 4
def kBytes : Nat := 5
def kRows : Nat := 6
def kIndices : Nat := 7

/-- Bytes that a row takes in a list of R441: ELEMS × element size, rounded up to 64. -/
def rowStride (elems fmt : Nat) : Nat := roundUp (elems * (if fmt = 0 then 4 else if fmt = 1 then 2 else 1)) 64

/-- Bytes of a list by kind and count; a ROWS list has its header in front (R130, R441). -/
def listLen (kind count elems fmt : Nat) : Nat :=
  if kind = 1 then 4 * count else if kind = 3 then 16 * count else if kind = 4 ∨ kind = 7 then 8 * count
  else if kind = 6 then 64 + count * rowStride elems fmt else count

/-- The bytes of a context's list. -/
def Block.listBytes (b : Block) (n h : Nat) : List Byte :=
  let l := (b.ctx n).list h
  let base := ctxRangeBase + l.offset * 64
  let hdr := if l.kind = kRows then fieldAt (b.readMem base 4) 0 4 else 0
  if l.kind = 0 then [] else b.readMem base (listLen l.kind l.count (bits hdr 10 0) (bits hdr 12 11))

/-- A list's entries of `w` bytes as numbers. -/
def entries (w : Nat) : List Byte → List Nat
  | bs => (List.range (bs.length / w)).map fun i => fieldAt bs (w * i) w

/-- The tokens of a TOKENS list. -/
def Block.tokensOf (b : Block) (n h : Nat) : List Nat := entries 4 (b.listBytes n h)

/-- Release the pages of a list handle and make it EMPTY (R131). -/
def Block.clearList (b : Block) (n h : Nat) : Block :=
  let c := b.ctx n
  (b.freePages (tabGet [] h c.listPages)).modCtx n fun c =>
    { c with lh := tabErase h c.lh, listPages := tabErase h c.listPages }

/-- Replace list handle `h` by a new list (R131): new pages first, then the old ones are released in the same CCLK. -/
def Block.setList (b : Block) (n h kind count : Nat) (bytes : List Byte) : Alloc :=
  match b.ctxPages n (ceilDiv bytes.length 65536) with
  | .quota => .fail Codes.mtQuotaPages
  | .wait => .wait
  | .got b ps =>
    let off := ps.headD 0 * 65536
    let b := (b.clearList n h).writeMem (ctxRangeBase + off) bytes
    .done (b.modCtx n fun c => { c with
      lh := tabSet h ⟨kind, count, off / 64⟩ c.lh
      listPages := if ps.isEmpty then c.listPages else tabSet h ps c.listPages })

/-! ### Output buffer (R134) -/

/-- Bytes of an element (R437). -/
def elemSize (fmt : Nat) : Nat := if fmt = 0 then 4 else if fmt = 1 then 2 else 1

/-- How a list is cut when it is copied (R130, R134, R441): the bytes before its first entry, and the bytes of an entry. A VECTOR is
one entry; an entry of ROWS is a row at its stride. -/
def listUnit (kind : Nat) (bytes : List Byte) : Nat × Nat :=
  let hdr := fieldAt bytes 0 4
  match kind with
  | 1 => (0, 4)
  | 2 => (0, bytes.length)
  | 3 => (0, 16)
  | 4 => (0, 8)
  | 6 => (64, roundUp (bits hdr 10 0 * elemSize (bits hdr 12 11)) 64)
  | 7 => (0, 8)
  | _ => (0, 1)

/-- Bytes of whole entries that fit in `room`: nothing where not one does (R134). -/
def fitEntries (u : Nat × Nat) (len room : Nat) : Nat :=
  if len ≤ room then len
  else if room < u.1 + max 1 u.2 then 0
  else u.1 + (room - u.1) / max 1 u.2 * max 1 u.2

/-- Copy a result to the output buffer: the whole entries that fit. The block, the offset at which the copy
began, the bytes copied, and OUT_TRUNC or NO_OUTBUF where it fell short. -/
def Block.outCopy (b : Block) (n : Nat) (u : Nat × Nat) (bytes : List Byte) : Block × Nat × Nat × Code :=
  match (b.ctx n).req with
  | none => (b, 0, 0, Codes.ok)
  | some r =>
    if r.outLen = 0 then (b, 0, 0, Codes.noOutbuf)
    else
      let k := fitEntries u bytes.length (r.outLen - r.outOff)
      let b := if k = 0 then b else b.emit (.write (r.outAddr + r.outOff) (bytes.take k) false)
      let b := b.modCtx n fun c => { c with req := c.req.map fun r => { r with outOff := r.outOff + k } }
      (b, r.outOff, k, if k < bytes.length then Codes.outTrunc else Codes.ok)

/-- A list operand lies in poisoned memory (R613). -/
def Block.listPoison (b : Block) (n h : Nat) : Bool :=
  let l := (b.ctx n).list h
  l.kind != 0 && b.poisoned (ctxRangeBase + l.offset * 64) (max 1 (b.listBytes n h).length)

/-- A copy of a poisoned list to the output buffer (R613): the write goes to the host with the poisoned bit of its TLP. -/
def Block.poisonCopy (b : Block) (n : Nat) : Block := match (b.ctx n).req with
  | some r => if r.outOff < r.outLen then b.emit (.poisonedWrite (r.outAddr + r.outOff)) else b
  | none => b

/-- Copy records one after the other as far as they fit whole (R134, R357). -/
def Block.outPieces (b : Block) (n : Nat) : List (List Byte) → Block × Code
  | [] => (b, Codes.ok)
  | p :: ps =>
    let (b, _, _, oc) := b.outCopy n (0, p.length) p
    if oc = Codes.ok then b.outPieces n ps else (b, oc)

/-! ### Replies of a running request -/

/-- One reply of a context's request: under the reservation if it is the request's first (R96), else taking a free slot
or waiting, the context BLOCKED (R98). The flag says that it was written. -/
def Block.ctxReply (b : Block) (n cls : Nat) (code : Code) (outbuf last : Bool) (step aux : Nat)
    (payload : List Byte) : Block × Bool :=
  let c := b.ctx n
  match c.req with
  | none => (b, true)
  | some q =>
    let r : Reply :=
      { cls := cls, code := code, outbuf := outbuf, last := last, ctx := n, tag := q.tag, step := step, seq := c.seq
        aux := aux, payload := payload, admitAt := if q.admitted then some c.admitAt else none }
    let b := b.modCtx n fun c => { c with seq := (c.seq + 1) % 65536, req := some { q with reservation := false } }
    if q.reservation then (b.putReserved c.tenant r, true)
    else
      let (b, sent) := b.putOrWait c.tenant r
      if sent then (b, true)
      else (b.modCtx n fun c => { c with
        replyWait := true, state := if c.state = .running ∨ c.state = .admitted then .blocked else c.state }, false)

/-! ### End of a request -/

/-- State after a request ends: a SWAPPED context stays SWAPPED with that PREV_STATE (R133, R145). -/
def Ctx.settle (c : Ctx) (st : CtxState) : Ctx :=
  if c.state = .swapped then { c with prev := st } else { c with state := st }

/-- The request is over: its reservations, pins, holds and record cache go (R281, R284, R490), and its route and adapter
versions unless the context has yielded (R122, R137). -/
def Block.finishReq (b : Block) (n : Nat) (st : CtxState) : Block :=
  let c := b.ctx n
  let share := match c.req with
    | some r => r.share
    | none => 0
  let cache := match c.req with
    | some r => r.cachePages
    | none => []
  let b := ((b.dropPins n).dropFetches n).freePages cache
  let b := { b with tp := { b.tp with q := b.tp.q - share } }
  let b := b.modCtx n fun c =>
    let c := c.settle st
    { c with req := none, step := none, replyWait := false, routeHeld := c.routeHeld && c.yielded
             adapterHeld := c.adapterHeld && c.yielded }
  (b.gcRoutes c.tenant).gcAdapters c.tenant

/-- Write the last reply and end the request once it has its slot (R98, R136, R137). -/
def Block.lastReply (b : Block) (n cls : Nat) (code : Code) (aux : Nat) (st : CtxState) : Block :=
  let (b, sent) := b.ctxReply n cls code false true (if cls = 3 then 0 else (b.ctx n).pc) aux []
  if sent then b.finishReq n st
  else b.modCtx n fun c => { c with req := c.req.map fun r => { r with finish := some st } }

/-- A queued request ends with class REFUSED (R149, R154, R161); its context keeps its state. -/
def Block.endQueued (b : Block) (n : Nat) (code : Code) (aux : Nat) : Block :=
  let c := b.ctx n
  let m := coachman n
  let b := { b with tp := { b.tp with queues := tabSet m ((tabGet [] m b.tp.queues).filter (· != n)) b.tp.queues } }
  b.lastReply n 3 code aux (if c.state = .swapped then c.prev else c.state)

/-- A coach holds a tile task of the context. -/
def Block.onCoach (b : Block) (n : Nat) : Bool :=
  b.coaches.any fun k => match k.2.task with
    | some t => t.ctx == n
    | none => false

/-- Take a coach out of its task, whose registers, tags, deferred commands and uncommitted writes are dropped. -/
def Coach.release (k : Coach) : Coach :=
  { k with st := .idle, task := none, kernel := none, ranges := [], loops := [], tags := [], deferred := [], overlay := []
           preemptSent := false, preempt := false, preemptFor := none, discard := false, bundle := [], bundleRelay := false, bundleExn := []
           relayDue := false, finalSeen := false, remoteFrom := none, image := none, notice := none, streams := [], slots := [] }

/-- Discard the context's tile tasks (R35, R149, R152): none is dispatched any more, a dispatch of this CCLK is discarded, and those
on coaches are pre-empted at their next relay point without a save. -/
def Block.dropTasks (b : Block) (n : Nat) : Block :=
  { b with
    tp := { b.tp with ready := tabMap (fun _ l => l.filter fun t => t.ctx != n) b.tp.ready }
    coaches := tabMap (fun _ k => match k.task with
      | some t =>
        if t.ctx ≠ n then k
        else if k.st = .arriving ∧ k.dispatchCclk = b.clk.cclk then k.release
        else { k with discard := true, preemptSent := true }
      | none => k) b.coaches
    gtu := tabMap (fun _ (u : Gtu) => { u with
      queue := u.queue.filter fun c => c.coach.isSome || c.deferred || c.ctx != n
      wait := match u.wait with
        | some w => if w.cmd.coach.isNone && w.cmd.ctx == n then none else u.wait
        | none => none }) b.gtu
    txu := { b.txu with segQ := b.txu.segQ.filter fun q => q.ctx != n, detokQ := b.txu.detokQ.filter fun q => q.ctx != n }
    ske := { b.ske with engines := tabMap (fun _ e => { e with
      waiting := e.waiting.filter fun q => q.ctx != n
      passes := e.passes.map fun p => { p with queries := p.queries.filter fun q => q.ctx != n } }) b.ske.engines } }

/-- State that a code leaves the context in: HALTED for a halting code, else IDLE (R133). -/
def endState (code : Code) : CtxState := if Codes.halts code then .halted else .idle

/-- What a step that stops or halts leaves of the stores (R382, R418): held bytes of DECODE and DETOK are discarded; tentative
positions of PREFILL and DECODE are rolled back, the pending token and NEXT_VALID go. A halt with GRAMMAR_DEAD keeps what the
step had committed. -/
def Block.stopStore (b : Block) (n : Nat) (code : Code) : Block :=
  match (b.ctx n).step with
  | none => b
  | some st =>
    if code = Codes.grammarDead then b
    else
      let b := if st.opcode = 0xB ∨ st.opcode = 0xF then b.writeMem (ctxRangeBase + (b.ctx n).textRec + 8) [0] else b
      if st.opcode = 0xA ∨ st.opcode = 0xB then ((b.rollback n).sliceDecision n).modCtx n fun c => { c with pendTok := none, nextRec := none }
      else b

/-- A stop or a halt (R133): one FAILED reply with the code and AUX, written once the last task has left its coach
(R152). -/
def Block.stopReqAux (b : Block) (n : Nat) (code : Code) (aux : Nat) : Block :=
  let b := ((b.dropTasks n).stopStore n code).modCtx n fun c => { c with
    yielded := false, specOpen := false, step := none
    lastCode := if Codes.halts code then code else c.lastCode }
  if b.onCoach n then b.modCtx n fun c => { c with req := c.req.map fun r => { r with ending := some code, endingAux := aux } }
  else b.lastReply n 4 code aux (endState code)

/-- A stop or a halt with an AUX of 0. -/
def Block.stopReq (b : Block) (n : Nat) (code : Code) : Block := b.stopReqAux n code 0

/-! ### Completion of a route step (R126, R131 to R133, R143) -/

/-- The step is over and the route goes on at `pc`: PROG_SEQ, PC, state. -/
def Block.advance (b : Block) (n pc : Nat) : Block :=
  let seq := b.tp.progSeq + 1
  let b := { b with tp := { b.tp with progSeq := seq } }
  b.modCtx n fun c => { c with
    pc := pc, progSeq := seq, step := none
    state := if c.state = .admitted then .running else c.state }

/-- Payload of the step-completion reply (R126). -/
def stepPayload (rpl : Nat) (reg : W64) (off copied : Nat) (drops : Option (Nat × Nat × Nat)) : List Byte :=
  let p0 := if bit rpl 1 then le 8 reg.toNat else List.replicate 8 0
  let p1 := if bit rpl 2 then le 4 off ++ le 4 copied else List.replicate 8 0
  match drops with
  | some (v, d, x) => p0 ++ p1 ++ le 4 v ++ le 4 d ++ le 4 x ++ List.replicate 4 0
  | none => if bit rpl 2 then p0 ++ p1 else if bit rpl 1 then p0 else []

/-- Writes of a committed step at device addresses. -/
def Block.writeAll (b : Block) (ws : List (Nat × List Byte)) : Block :=
  ws.foldl (fun b w => b.writeMem w.1 w.2) b

/-- A compute step has its result (R131, R133): the lists and registers it commits, its reply, and what its code does.
A step whose list finds no page waits: the block is unchanged and the command may come again. OUTBUF tells of the reply's own LIST
copy alone, not of PACK's attribution (DESIGN CHOICE, assumption 119); a LIST or REG bit of a step without an LD or RD takes LH0 or
RG0 (DESIGN CHOICE, assumption 120). -/
def Block.commitStep (b : Block) (n : Nat) (i : RInstr) (r : StepResult) : Block :=
  let go := Codes.continues r.code
  if !go && !Codes.halts r.code then
    (b.modCtx n fun c => { c with lastCode := r.code }).stopReq n r.code
  else
    let placed := match r.ld with
      | none => Alloc.done b
      | some (kind, count, bytes) => b.setList n i.ld kind count bytes
    match placed with
    | .wait => b
    | .fail code => (b.modCtx n fun c => { c with lastCode := code }).stopReq n code
    | .done b =>
      let b := b.writeAll r.writes
      let b := match r.rd with
        | some v => b.modCtx n fun c => c.setReg i.rd v
        | none => b
      let b := b.modCtx n fun c => { c with req := c.req.map fun q => { q with
        ownLists := if r.ownList then i.ld :: q.ownLists.filter (· != i.ld)
          else if r.ld.isSome then q.ownLists.filter (· != i.ld) else q.ownLists } }
      if !go then b.stopReq n r.code
      else if bit i.rpl 2 && b.listPoison n i.ld then
        ((b.poisonCopy n).modCtx n fun c => { c with lastCode := Codes.memPoison }).stopReq n Codes.memPoison
      else
        let (b, pc) := b.outPieces n r.summary
        let (b, off, copied, oc) := if bit i.rpl 2 then b.outCopy n (listUnit ((b.ctx n).list i.ld).kind (b.listBytes n i.ld)) (b.listBytes n i.ld)
          else (b, 0, 0, Codes.ok)
        let code := if r.code ≠ Codes.ok then r.code else if pc ≠ Codes.ok then pc else oc
        let b := b.modCtx n fun c => { c with
          lastCode := code
          req := c.req.map fun q => { q with qualified := if code = Codes.ok then q.qualified else some code } }
        let b := if i.rpl % 8 = 0 then b
          else
            let c := b.ctx n
            let aux := if r.ld.isSome then (c.list i.ld).count else 0
            (b.ctxReply n 1 code (decide (0 < copied)) false c.pc aux
              (stepPayload i.rpl (c.reg i.rd) off copied r.drops)).1
        b.advance n ((b.ctx n).pc + 1)

/-- A step result that only carries a code. -/
def StepResult.ofCode (c : Code) : StepResult :=
  { code := c, ld := none, rd := none, drops := none, summary := [], ownList := false, writes := [], deferred := [] }

/-! ### Which step a context may start -/

/-- The context may start the instruction at its PC (R132, R145, R172): a request runs, no step is in progress, no reply
waits, no teardown, no key-value data to replay. -/
def Block.ready (b : Block) (n : Nat) : Bool :=
  let c := b.ctx n
  (c.state = .admitted || c.state = .running) && c.step.isNone && !c.replyWait && !c.freeing && !c.recompute &&
  match c.req with
  | some r => r.admitted && r.ending.isNone && r.finish.isNone
  | none => false

/-- Run `f` on the instruction at the context's PC when its opcode is `op` and the context may start it; else the
command no longer applies and is dropped (R146). -/
def Block.onStep (b : Block) (n op : Nat) (f : RInstr → Block → Block) : Block :=
  match b.instrAt n with
  | some i => if b.ready n && i.op == op then f i b else b
  | none => b

end Sys2Proof.Machine
end

