-- ==== Sys2Proof/Machine/Orders.lean ====
section
/-!
DEFINITION. Machine/Orders.lean: the order port (R103, R111 to R118): checks before arbitration, arbitration, counters,
results; and the team commit that some orders become (R559).
-/
namespace Sys2Proof.Machine

/-- Ranks of R114, highest first. -/
def rank : Issuer → Nat
  | .ostler => 0
  | .lead => 1
  | .pf0 => 2
  | .tenant _ => 3

/-- The target kind that the table of R112 gives for an order code. -/
def orderKind (code : Nat) : Nat :=
  if code = 1 ∨ code = 2 then 1 else if code ≤ 8 then 2 else if code ≤ 10 then 3 else if code = 11 then 4
  else if code ≤ 14 then 5 else 6

/-- The issuers that may give an order (R112). -/
def orderAllowed (code : Nat) : Issuer → Bool
  | .ostler => [1, 2, 4, 12, 13, 14, 15].contains code
  | .lead => [1, 3, 4, 5, 10].contains code
  | .pf0 => [1, 2, 3, 4, 5, 6, 7, 8, 10, 12, 13, 14, 15].contains code
  | .tenant _ => [7, 8, 9, 10, 11].contains code

/-- Highest index of a unit kind plus one (R618); 0: no such kind. -/
def unitCount (kind : Nat) : Nat :=
  match kind with
  | 1 => 512
  | 2 => 8
  | 3 => 24
  | 4 => 8
  | 5 => 4
  | 6 => 4
  | 7 => 4
  | 8 => 4
  | 9 => 80
  | 10 => 4
  | 11 => 512
  | 12 => 32
  | 13 => 8
  | 14 => 4
  | _ => 0

/-- The unit that a TARGET_ID names (R618). -/
def unitOf (id : Nat) : UnitId := ⟨bits id 55 48, bits id 15 0⟩

/-- An identifier in range for its target kind (R113, R275, R618). -/
def targetOk (kind id : Nat) : Bool :=
  match kind with
  | 1 => id == 0
  | 2 => decide (id < 4096)
  | 3 => decide (id < 131072)
  | 4 => decide (id < 64)
  | 5 => bits id 47 16 == 0 && decide (bits id 15 0 < unitCount (bits id 55 48))
  | 6 => id == 0
  | _ => false

/-- Operand bytes of an order: offset counted from the start of the record (R101). -/
def opAt (o : OrderIn) (off n : Nat) : Nat := fieldAt o.ops (off - 0x20) n

/-- Operand bytes [off, off + n) are zero. -/
def opZero (o : OrderIn) (off n : Nat) : Bool := zeroAt o.ops (off - 0x20) n

/-- A context lies in a tenant's range (R147). -/
def Block.ownsCtx (b : Block) (t n : Nat) : Bool :=
  let e := b.ten t
  e.state != .off && decide (e.ctxBase ≤ n) && decide (n < e.ctxBase + e.ctxCount)

def Block.shard? (b : Block) (s : Nat) : Option Shard := tabFind? s b.ske.shards

/-- A tenant owns a shard that is not FREE. -/
def Block.ownsShard (b : Block) (t s : Nat) : Bool :=
  match b.shard? s with
  | some x => decide (x.owner = t)
  | none => false

/-- The target of a tenant's order is its own (R112 check 4, R276). -/
def Block.ownTarget (b : Block) (code : Nat) (o : OrderIn) : Bool :=
  match o.issuer with
  | .tenant t =>
    match o.kind with
    | 2 => decide (o.target = t)
    | 3 => b.ownsCtx t o.target
    | 4 => code == 11 && (opAt o 0x20 1 == 1 || b.ownsShard t o.target)
    | _ => false
  | _ => true

/-- The first check of R112 that an order fails, with the MODE check of R276 and the refusal of R663. A tenant order of R663 is one that
a tenant gives (R111, R112), and a TENANT_SET or TENANT_DISABLE, which R589 calls so: the key store unwraps no slot key. -/
def Block.orderCheck (b : Block) (code : Nat) (o : OrderIn) : Option Code :=
  let testTenant : Bool := b.clk.stage == .test && (code == 3 || code == 4 || match o.issuer with
    | .tenant _ => true
    | _ => false)
  if code = 0 ∨ 15 < code then some Codes.badOrder
  else if testTenant then some Codes.notPermitted
  else if !orderAllowed code o.issuer then some Codes.notPermitted
  else if o.kind ≠ orderKind code ∨ !targetOk o.kind o.target then some Codes.badTarget
  else if code = 11 ∧ (opAt o 0x20 1 = 0 ∨ 4 < opAt o 0x20 1) then some Codes.shardBad
  else if !b.ownTarget code o then some Codes.notPermitted
  else none

/-- One target contains the other or equals it (R113, R114). -/
def Block.contains (b : Block) (x y : Nat × Nat) : Bool :=
  x == y || x.1 == 1 ||
  (x.1 == 2 && ((y.1 == 3 && b.ownsCtx x.2 y.2) || (y.1 == 4 && b.ownsShard x.2 y.2)))

def Block.conflicts (b : Block) (x y : Nat × Nat) : Bool := b.contains x y || b.contains y x

/-- The tenants of virtual function `v` (R82). -/
def vfTenants (v : Nat) : List Nat := (List.range 16).map fun i => (v - 1) * 16 + i

/-- A target lies within the tenants of a function in FLR (R118). -/
def Block.inFlr (b : Block) (x : Nat × Nat) : Bool :=
  b.host.flrNow.any fun v => (vfTenants v).any fun t => b.contains (2, t) x

/-- The function of an order's issuer is in FLR in this CCLK (R116, R118). -/
def Block.issuerFlr (b : Block) : Issuer → Bool
  | .tenant t => b.host.flrNow.contains (t / 16 + 1)
  | .pf0 => b.host.flrNow.contains 0
  | _ => false

/-- Answer an order (R115): a tenant or PF0 by a reply of class ORDER under the reservation of R96, the Ostler and the
lead on their own paths. An order of a page that owes no reply (it came by no ring) is answered on its issuer's path. -/
def Block.orderReply (b : Block) (i : Issuer) (tag : W64) (code : Code) (aux : Nat) : Block :=
  let ring := fun (pg : Nat) =>
    if 0 < (b.page pg).owed then
      b.putReserved pg
        { cls := 6, code := code, outbuf := false, last := true, ctx := 0, tag := tag, step := 0, seq := 0, aux := aux
          payload := [], admitAt := none }
    else b.emit (.orderResult i tag code)
  match i with
  | .tenant t => ring t
  | .pf0 => ring pf0Page
  | .lead => b.emit (.orderResult i tag code)
  | .ostler => (b.emit (.orderResult i tag code)).log 0x0C 0 code none none 0

/-- What applying an order does: the block, and the answer with its AUX; none: the answer comes later. -/
structure OrderEnd where
  b : Block
  answer : Option (Code × Nat)

def Block.ended (b : Block) (c : Code) : OrderEnd := ⟨b, some (c, 0)⟩

/-- Arbitration at the order port in ungated CCLK (R111, R114, R115, R118): an order of the same issuer class as one already
presented in this CCLK, or of a higher rank than it, is presented in the next one. It loses with CONFLICT to an order applied in
the CCLK, or when its target lies in a function under FLR. The counts of R115 rise. -/
def Block.arbitrate (b : Block) (rk : Nat) (x : Nat × Nat) : Block × Bool :=
  let late := match b.host.rankNow with
    | some r => decide (rk ≤ r)
    | none => false
  let b := if late then b.tick else b
  let b := { b with host := { b.host with rankNow := some rk } }
  if b.inFlr x || b.host.appliedNow.any (b.conflicts x) then
    ({ b with host := { b.host with orderConflict := sat32 b.host.orderConflict 1 } }, false)
  else
    ({ b with host := { b.host with
      orderApplied := sat32 b.host.orderApplied 1, appliedNow := b.host.appliedNow ++ [x] } }, true)

/-- A team commit of an order is due (R559): the Ostler presents its order in the next CCLK. -/
def Block.commitDue (b : Block) : Bool :=
  b.cb.commits.any fun c => c.applied && decide (c.msg.applyCycle ≤ b.cb.linkCycle) && match c.msg.body with
    | .order _ _ => true
    | _ => false

/-- Answer an order that has its code. -/
def OrderEnd.reply (r : OrderEnd) (o : OrderIn) : Block :=
  match r.answer with
  | some (c, a) => r.b.orderReply o.issuer o.tag c a
  | none => r.b

/-- Present an order at the port (R111 to R118, R644) and apply it by `f` if it passes. Without the main domain only the Ostler's
LOCATE acts. An order that a function-level reset of its issuer dropped, or that comes in the CCLK of it, gets no reply. -/
def Block.gate (b : Block) (code : Nat) (o : OrderIn) (f : Block → OrderEnd) : Block :=
  let me : PortOrder := ⟨code, o⟩
  let gone := b.host.dropped.contains me
  let b := { b with host := { b.host with port := b.host.port.filter (· != me), dropped := b.host.dropped.filter (· != me) } }
  if !b.mainUp then
    if o.issuer = .ostler ∧ code ≠ 15 then b.orderReply .ostler o.tag Codes.ostMainOff 0
    else if o.issuer = .ostler then (f b).reply o
    else b
  else
    if b.issuerFlr o.issuer || gone then b
    else
      match b.orderCheck code o with
      | some c => b.orderReply o.issuer o.tag c 0
      | none =>
        let b := if o.issuer = .ostler ∧ b.commitDue then b.tick else b
        let (b, won) := b.arbitrate (rank o.issuer) (o.kind, o.target)
        if won then (f b).reply o else b.orderReply o.issuer o.tag Codes.conflict 0

/-- Forward an order to the lead (R429, R559): the module keeps it until the lead's commit is decided. -/
def Block.forwardOrder (b : Block) (code : Nat) (o : OrderIn) : Block :=
  let d : CommitMsg := { id := b.cb.nextCommit, coordinator := b.position, applyCycle := 0, body := .order code o }
  ({ b with cb := { b.cb with nextCommit := b.cb.nextCommit + 1, commits := b.cb.commits ++ [(⟨d, true, false, false⟩ : Commit)] } }).cbEmit
    (.prepare 0 d)

/-- An order that a team applies as a commit (R429, R559, R589): given by an issuer of this module while the team is in
lockstep, the lead coordinates it, and it is answered when the commit is decided; given by the lead it is applied. -/
def Block.teamOrder (b : Block) (code : Nat) (o : OrderIn) (f : Block → OrderEnd) : OrderEnd :=
  if b.inTeam && o.issuer != .lead then
    { b := if b.position = 0 then b.startCommit (.order code o) true else b.forwardOrder code o, answer := none }
  else f b

end Sys2Proof.Machine
end

