-- ==== Sys2Proof/Machine/Units.lean ====
section
/-!
DEFINITION. Machine/Units.lean: unit commands on their way (R199 to R203, R328, R333): queues, what a command reads and
writes for its task, its completion record; coaches and their tasks.
-/
namespace Sys2Proof.Machine

/-- The order in which a unit takes waiting commands (R333): DECODE tasks first, then earlier arrival, then the lower coach number;
a step's own command counts as coach 0. -/
def UnitCmd.before (x y : UnitCmd) : Bool :=
  let key := fun (c : UnitCmd) => [if c.decode then 0 else 1, c.arrived, c.coach.getD 0]
  decide (List.Lex (· < ·) (key x) (key y)) || key x == key y

/-- Put a command behind the running one in the order of R333. -/
def enqueue (q : List UnitCmd) (c : UnitCmd) : List UnitCmd :=
  match q with
  | [] => [c]
  | r :: w => r :: insertBy UnitCmd.before c w

/-- A number of the 64-byte command. -/
def UnitCmd.at (c : UnitCmd) (off n : Nat) : Nat := fieldAt c.bytes off n

/-- Bytes [off, off + n) of the command are zero. -/
def UnitCmd.zero (c : UnitCmd) (off n : Nat) : Bool := zeroAt c.bytes off n

/-- The coach's kernel belongs to the signed firmware image (R186). -/
def Coach.firmware (c : Coach) : Bool :=
  match c.kernel with
  | some x => x.firmware
  | none => false

/-- Stations that take commands only from the firmware's kernels (R201): migration engine, strongbox controller, key store. -/
def firmwareStation (station : Nat) : Bool := station == 6 || station == 10 || station == 11

/-- The task that issued a command still runs on its coach. -/
def Block.cmdLive (b : Block) (c : UnitCmd) : Bool :=
  match c.coach with
  | none => true
  | some k =>
    match (b.coach k).task with
    | some t => t.id == c.task && (b.coach k).st != .idle
    | none => false

/-- The first of the bytes from `v` on that lies in no range, or the `n`-th after `v` (R185): every range is followed to its end. -/
def rangesReach (rs : List (Nat × Nat)) : Nat → Nat → Nat
  | 0, v => v
  | f + 1, v =>
    match rs.find? fun r => decide (r.1 ≤ v) && decide (v < r.1 + r.2) with
    | some r => rangesReach rs f (r.1 + r.2)
    | none => v

/-- No byte of [v, v + n) lies outside the ranges (R185). -/
def inRanges (rs : List (Nat × Nat)) (v n : Nat) : Bool := decide (v + n ≤ rangesReach rs rs.length v)

/-- Device address of a byte of a coach's SRAM (R464). -/
def sramAddr (k a : Nat) : Nat := k * 0x400000 + a

/-- Bytes of a coach's SRAM as a tenant reads them, and as its running task does: a 64-byte line with another tenant's tag, or
with none yet, reads zero (R594). -/
def Block.sramAs (b : Block) (t k a n : Nat) : List Byte :=
  let c := b.coach k
  (List.range n).map fun i =>
    if tabFind? ((a + i) / 64) c.lineTag = some t then b.readByte (sramAddr k (a + i)) else 0

def Block.readSram (b : Block) (k a n : Nat) : List Byte := b.sramAs (b.coach k).tenant k a n

/-- Write bytes into a coach's SRAM for a tenant, and for its running task; the lines take the tenant's tag (R594). What the rest of a
line held under another tag is cleared, so that a tag never covers another tenant's bytes. -/
def Block.writeSramAs (b : Block) (t k a : Nat) (xs : List Byte) : Block :=
  let c := b.coach k
  let lines := (List.range ((a + xs.length + 63) / 64 - a / 64)).map (a / 64 + ·)
  let fresh := lines.filter fun l => tabFind? l c.lineTag ≠ some t
  let b := fresh.foldl (fun b l => b.writeMem (sramAddr k (l * 64)) (List.replicate 64 0)) b
  let b := b.modCoach k fun c => { c with lineTag := lines.foldl (fun m l => tabSet l t m) c.lineTag }
  b.writeMem (sramAddr k a) xs

def Block.writeSram (b : Block) (k a : Nat) (xs : List Byte) : Block := b.writeSramAs (b.coach k).tenant k a xs

/-- The uncommitted writes that a command's reads see: those of its own task (R185, R328). -/
def Block.overlayOf (b : Block) (c : UnitCmd) : List Host.Cell :=
  match c.coach with
  | some k => if b.cmdLive c && !c.deferred then (b.coach k).overlay else []
  | none => []

/-- A task's bytes of its tenant's space: its own uncommitted writes over memory (R185, R328). -/
def Block.readTask (b : Block) (c : UnitCmd) (v n : Nat) : Option (List Byte) :=
  match b.xlate c.tenant v n with
  | none => none
  | some a => some ((List.range n).map fun i => (tabFind? (a + i) (b.overlayOf c)).getD (b.byteAt (a + i)))

/-- A read of [a, a + n) meets a poisoned byte that the task's own uncommitted writes do not cover (R328, R612). -/
def Block.taskPoisoned (b : Block) (c : UnitCmd) (a n : Nat) : Bool :=
  b.poisoned a n && (List.range n).any fun i => b.poisoned (a + i) 1 && (tabFind? (a + i) (b.overlayOf c)).isNone

/-- A command's write to its tenant's space: uncommitted for a running task, at once for a deferred command or a hub
path, dropped for a task that is gone (R185, R203, R336). None on a translation fault. -/
def Block.writeTask (b : Block) (c : UnitCmd) (v : Nat) (xs : List Byte) : Option Block :=
  match b.xlate c.tenant v xs.length with
  | none => none
  | some a =>
    match c.coach with
    | none => b.writeV c.tenant v xs
    | some k =>
      if c.deferred then b.writeV c.tenant v xs
      else if b.cmdLive c then
        some ((b.touchV true v xs.length).modCoach k fun k => { k with overlay := writeCells k.overlay a xs })
      else some b

/-- What a unit reads for a command (R328, R612): nothing for no bytes, the unit's own code on a translation fault, MEM_POISON
on a poisoned line that the task has not overwritten. -/
def Block.fetchTask (b : Block) (c : UnitCmd) (bad : Code) (v n : Nat) : Except Code (List Byte) :=
  if n = 0 then .ok []
  else
    match b.xlate c.tenant v n, b.readTask c v n with
    | some a, some bs => if b.taskPoisoned c a n then .error Codes.memPoison else .ok bs
    | _, _ => .error bad

/-- The bytes of [v, v + n) that a command may have written before a translation fault are undefined (R9, R328): free, line by line,
uncommitted as its writes are; a part that does not translate is left. -/
def Block.outUndefined (b : Block) (c : UnitCmd) (v n : Nat) : Block :=
  ((List.range (ceilDiv n 64)).foldl (fun (b : Block) i =>
    (b.writeTask c (v + 64 * i) ((List.range (min 64 (n - 64 * i))).map fun j => Config.freeByte b.epoch (64 * i + j))).getD b) b).nextEpoch

/-- The map accesses of what a command read (R486). -/
def Block.touched (b : Block) (rs : List (Nat × Nat)) : Block :=
  rs.foldl (fun (b : Block) (r : Nat × Nat) => if r.2 = 0 then b else b.touchV false r.1 r.2) b

/-- Every unit of a kind is fenced (R618). -/
def Block.kindGone (b : Block) (kind n : Nat) : Bool := (List.range n).all fun i => b.fenced kind i

/-- Pad a completion record to 64 bytes with zeros. -/
def record (fields : List Byte) : List Byte := (fields ++ List.replicate 64 0).take 64

/-- Complete a command: its record at A[AN] + 64 and its tag idle, when its task still runs (R199). -/
def Block.cmdDone (b : Block) (c : UnitCmd) (fields : List Byte) : Block :=
  match c.coach with
  | none => b
  | some k =>
    if b.cmdLive c && !c.deferred then
      (b.writeSram k (c.desc + 64) (record fields)).modCoach k fun k => { k with tags := tabErase c.tag k.tags }
    else b

/-- A completion record that carries a code alone. -/
def Block.cmdCode (b : Block) (c : UnitCmd) (code : Code) : Block := b.cmdDone c (le 4 code.toNat)

/-- Dray channel index of R519: quarter channels 16q + i, hub channels 64 + i. -/
def UnitCmd.channel (c : UnitCmd) : Nat :=
  if c.station = 9 then 64 + bits (c.at 0 4) 11 8 else 16 * c.quarter + bits (c.at 0 4) 11 8

def Block.chan (b : Block) (i : Nat) : DrChan := tabGet DrChan.new i b.dr.chans
def Block.modChan (b : Block) (i : Nat) (f : DrChan → DrChan) : Block :=
  { b with dr := { b.dr with chans := tabMod DrChan.new i f b.dr.chans } }

/-- The quarter unit at the command's station is fenced (R618). -/
def Block.stationFenced (b : Block) (c : UnitCmd) : Bool :=
  (c.station == 2 && b.fenced 5 c.quarter) || (c.station == 3 && b.fenced 6 c.quarter) ||
  (c.station == 4 && b.fenced 7 c.quarter)

/-! ### Dray descriptors: checks on arrival (R519 to R524, R538) -/

def UnitCmd.drOp (c : UnitCmd) : Nat := c.at 0 1
def UnitCmd.drLen (c : UnitCmd) : Nat := c.at 8 4
def UnitCmd.drNch (c : UnitCmd) : Nat := bits (c.at 0xC 4) 10 0
def UnitCmd.drSrc (c : UnitCmd) : Nat := c.at 0x10 8
def UnitCmd.drDst (c : UnitCmd) : Nat := c.at 0x18 8
def UnitCmd.drStride (c : UnitCmd) : Nat := c.at 0x20 4
def UnitCmd.srcHost (c : UnitCmd) : Bool := bit (c.at 0 4) 16
def UnitCmd.dstHost (c : UnitCmd) : Bool := bit (c.at 0 4) 17
def UnitCmd.srcFix (c : UnitCmd) : Bool := bit (c.at 0 4) 12
def UnitCmd.dstFix (c : UnitCmd) : Bool := bit (c.at 0 4) 13
/-- FXW in bytes; 0: invalid. -/
def UnitCmd.drFxw (c : UnitCmd) : Nat := ([4, 8, 64, 0] : List Nat).getD (bits (c.at 0 4) 15 14) 0
/-- Sample bytes S of the audio modes. -/
def UnitCmd.drS (c : UnitCmd) : Nat := if bit (c.at 0 4) 18 then 2 else 1
/-- Element width W in bits of the plane modes; 0: invalid. -/
def UnitCmd.drW (c : UnitCmd) : Nat := ([8, 16, 32, 0] : List Nat).getD (bits (c.at 0 4) 20 19) 0
/-- Frames F of the audio modes (R527). -/
def UnitCmd.drF (c : UnitCmd) : Nat := c.drLen / (c.drNch * c.drS)

/-- RSVD fields and fields that the OP does not use are zero (R520, R538 check 1). -/
def UnitCmd.drClear (c : UnitCmd) : Bool :=
  let w := c.at 0 4
  let rsvd := bits w 31 21 == 0 && bits (c.at 4 4) 31 9 == 0 && bits (c.at 0xC 4) 31 11 == 0 && c.zero 0x24 28
  let audio := c.drOp == 2 || c.drOp == 3
  let plane := c.drOp == 4 || c.drOp == 5
  if c.drOp == 1 then
    rsvd && bits w 20 18 == 0 && c.drNch == 0 && c.drStride == 0 && (c.srcFix || c.dstFix || bits w 15 14 == 0)
  else if audio then rsvd && bits w 20 19 == 0 && bits w 15 14 == 0
  else if plane then rsvd && !bit w 18 && bits w 15 14 == 0 && c.drNch == 0
  else rsvd

/-- The operand rules of R519, R521 and R524 (R538 check 2). -/
def UnitCmd.drOperands (c : UnitCmd) : Bool :=
  let pace := bits (c.at 4 4) 8 0
  let common := decide (1 ≤ pace ∧ pace ≤ 256) && decide (c.channel < 78) && c.drLen != 0
  let incr := !c.srcFix && !c.dstFix
  match c.drOp with
  | 1 =>
    common && decide (c.drLen ≤ 1073741824) && !(c.srcFix && c.dstFix) &&
      (incr || (c.drFxw != 0 && c.drLen % c.drFxw == 0 && (if c.srcFix then c.drSrc else c.drDst) % c.drFxw == 0))
  | 2 | 3 =>
    common && incr && decide (c.drLen ≤ 262144) && decide (1 ≤ c.drNch ∧ c.drNch ≤ 1024) &&
      c.drLen % (c.drNch * c.drS) == 0 && decide (c.drF * c.drS ≤ c.drStride)
  | 4 | 5 =>
    common && incr && decide (c.drLen ≤ 262144) && c.drW != 0 && c.drLen % (8 * c.drW) == 0 &&
      decide (c.drLen / c.drW ≤ c.drStride)
  | _ => false

/-- Bytes of the destination extent (R535, R538 check 4). -/
def UnitCmd.drExtent (c : UnitCmd) : Nat :=
  match c.drOp with
  | 1 => if c.dstFix then c.drFxw else c.drLen
  | 2 => (c.drNch - 1) * c.drStride + c.drF * c.drS
  | 4 => (c.drW - 1) * c.drStride + c.drLen / c.drW
  | _ => c.drLen

/-- The first check of R538 that a descriptor fails. -/
def Block.drayCheck (b : Block) (c : UnitCmd) : Option Code :=
  if !c.drClear then some Codes.badRsvd
  else if !c.drOperands then some Codes.drOperand
  else if (c.srcHost ∨ c.dstHost) ∧ !c.firmware ∨ (c.dstHost ∧ !c.deferred) then some Codes.drSpace
  else if !c.dstHost ∧ !inRanges c.ranges c.drDst c.drExtent then some Codes.drTarget
  else if b.fenced 9 c.channel then some Codes.drFenced
  else none

/-- A descriptor ends (R533, R540): its record and the counts; a deferred one that failed is counted, kept in DR_LAST_FAIL
and logged. -/
def Block.drayEnd (b : Block) (c : UnitCmd) (code : Code) (bytes d : Nat) : Block :=
  let b := { b with dr := { b.dr with descCount := sat32 b.dr.descCount 1 } }
  if c.deferred then
    if code = Codes.ok then b
    else
      ({ b with dr := { b.dr with
        failCount := sat32 b.dr.failCount 1, failChan := c.channel, failTenant := c.tenant, failCode := code } }).log 0x09 1
        code (some ⟨9, c.channel⟩) (some c.tenant) 0
  else b.cmdDone c (le 4 code.toNat ++ le 4 bytes ++ le 4 d)

/-- A dray station takes a descriptor: the checks, then the channel's queue (R534, R538). -/
def Block.drayArrive (b : Block) (c : UnitCmd) : Block :=
  match b.drayCheck c with
  | some code => b.drayEnd c code 0 0
  | none => b.modChan c.channel fun u => { u with queue := enqueue u.queue c }

/-- A deferred command fails (R451). -/
def Block.updateFail (b : Block) (q : Nat) (c : UnitCmd) (code : Code) : Block :=
  (b.log 0x09 2 code (some ⟨6, q⟩) (some c.tenant) 0).modGtu q fun g => { g with
    updFailCount := sat32 g.updFailCount 1, failTenant := c.tenant, failCode := code }

/-- A selection unit refuses a command: completed with a code, or deferred and discarded (R336, R337). -/
def Block.countRefused (b : Block) (c : UnitCmd) : Block :=
  if c.station = 2 then
    b.modSlu c.quarter fun u => { u with
      cmdCount := if c.deferred then u.cmdCount else sat32 u.cmdCount 1, refuseCount := sat32 u.refuseCount 1 }
  else if c.station = 3 then
    let b := b.modGtu c.quarter fun u => { u with cmdCount := sat32 u.cmdCount 1 }
    if c.deferred ∧ c.at 0 1 = 2 then b.updateFail c.quarter c Codes.unitFenced else b
  else b

/-- A command arrives at its station (R201). A fenced unit takes none: the command completes with UNIT_FENCED (R618). -/
def Block.arrive (b : Block) (c : UnitCmd) : Block :=
  let c := { c with seq := b.arrivals, arrived := b.clk.cclk }
  let b := { b with arrivals := b.arrivals + 1 }
  if firmwareStation c.station && !c.firmware then b else
  if b.stationFenced c then (b.cmdCode c Codes.unitFenced).countRefused c else
  match c.station with
  | 2 => b.modSlu c.quarter fun u => { u with queue := enqueue u.queue c }
  | 3 => b.modGtu c.quarter fun u => { u with queue := enqueue u.queue c }
  | 4 => b.modRnu c.quarter fun u => { u with queue := enqueue u.queue c }
  | 5 => b.drayArrive c
  | 9 => b.drayArrive c
  | 10 => { b with sb := { b.sb with queue := enqueue b.sb.queue c } }
  | _ => { b with otherQ := b.otherQ ++ [c] }

/-- Every unit command that waits or runs. -/
def Block.allCmds (b : Block) : List UnitCmd :=
  (b.slu.map fun u => u.2.queue).flatten ++ (b.gtu.map fun u => u.2.queue).flatten ++
  (b.rnu.map fun u => u.2.queue).flatten ++ b.gtu.filterMap (fun u => u.2.wait.map (·.cmd)) ++
  (b.dr.chans.map fun u => u.2.queue).flatten ++ b.sb.queue ++ b.sb.jobs.filterMap (·.cmd) ++
  ((b.sb.writes.map fun w => w.2.filterMap (·.cmd)).flatten)

/-- Objects of object space that a command's addresses name (R480), by station. -/
def UnitCmd.objects (c : UnitCmd) : List Nat :=
  let ofTva : Nat → List Nat := fun v => if v < 2 ^ 47 then [v / 2 ^ 35] else []
  match c.station with
  | 2 => ofTva (c.at 0x18 8) ++ (if c.at 0x20 8 = 0 then [] else ofTva (c.at 0x20 8)) ++ (if c.at 0x28 8 = 0 then [] else ofTva (c.at 0x28 8))
  | 3 => ofTva (c.at 0x08 8) ++ ofTva (c.at 0x10 8) ++ (if c.at 0x18 8 = 0 then [] else ofTva (c.at 0x18 8)) ++
      (if c.at 0x20 8 = 0 then [] else ofTva (c.at 0x20 8))
  | 4 => ofTva (c.at 0x10 8)
  | 5 | 9 => (if bit (c.at 0 4) 16 then [] else ofTva (c.at 0x10 8)) ++
      (if bit (c.at 0 4) 17 then [] else ofTva (c.at 0x18 8))
  | 10 => if bits (c.at 0 4) 7 0 = 3 then [] else ofTva (c.at 0x10 8)
  | _ => []

/-- Objects in which the rows of a gather command's table lie: BASE_A, BASE_B and HOT_BASE of its header (R435, R480). -/
def Block.rowObjects (b : Block) (c : UnitCmd) : List Nat :=
  if c.station ≠ 3 then []
  else match b.readV c.tenant (c.at 8 8) 64 with
    | some h => ([0x20, 0x28, 0x30] : List Nat).filterMap fun o => let v := fieldAt h o 8
        if v = 0 ∨ 2 ^ 47 ≤ v then none else some (v / 2 ^ 35)
    | none => []

/-- Holds of an object by steps and unit commands (R480). -/
def Block.objHolds (b : Block) (t o : Nat) : Nat :=
  (b.ctxs.filter fun c => c.2.tenant == t && (match c.2.step with
    | some s => s.holds.contains (t * 4096 + o)
    | none => false)).length +
  (b.allCmds.filter fun c => c.tenant == t && (c.objects.contains o || (b.rowObjects c).contains o)).length

/-- An object is bound by an adapter version or by a shard that is not FREE (R428, R480). -/
def Block.objBound (b : Block) (t o : Nat) : Bool :=
  ((b.ten t).adapters.any fun v => v.binds.any fun p => p.2 == o) ||
  b.ske.shards.any (fun s => s.2.owner == t &&
    [s.2.centroids, s.2.directory, s.2.sketches, s.2.tails, s.2.locators].any fun v => v / 2 ^ 35 == o)

/-! ### Coaches and tasks -/

/-- Put a task into its coachman's ready set (R164); presentation order is taken at dispatch. -/
def Block.pushReady (b : Block) (t : TileTask) : Block :=
  let m := coachman t.ctx
  { b with tp := { b.tp with ready := tabSet m (tabGet [] m b.tp.ready ++ [t]) b.tp.ready } }

/-- The Cibin logic withdraws the SEND and RECV tags of a coach (R619). -/
def Block.withdrawColls (b : Block) (k : Nat) : Block :=
  { b with cb := { b.cb with colls := (b.cb.colls.map fun c =>
      let snd := match c.send with
        | some (j, _) => if j = k then none else c.send
        | none => none
      let rcv := match c.recv with
        | some (j, _, _) => if j = k then none else c.recv
        | none => none
      { c with send := snd, recv := rcv }).filter fun c => c.send.isSome || c.recv.isSome || !c.parts.isEmpty } }

/-- The task of a coach goes back to its ready set, from its save image or its start, unless it is to be discarded
(R165, R619). -/
def Block.returnTask (b : Block) (k : Nat) : Block :=
  let c := b.coach k
  let b := (b.withdrawColls k).modCoach k Coach.release
  match c.task with
  | none => b
  | some t => if c.discard then b else b.pushReady t

/-! ### Object commands: fields (R478) -/

def Block.ocWord (b : Block) : Nat := fieldAt b.mt.objCmd 0 4
def Block.ocOp (b : Block) : Nat := fieldAt b.mt.objCmd 0 1
def Block.ocKind (b : Block) : Nat := fieldAt b.mt.objCmd 1 1
def Block.ocHbm (b : Block) : Bool := bit b.ocWord 16
def Block.ocQuarter (b : Block) : Nat := bits b.ocWord 18 17
def Block.ocAnyq (b : Block) : Bool := bit b.ocWord 19
def Block.ocTenant (b : Block) : Nat := bits b.ocWord 31 20
def Block.ocObj (b : Block) : Nat := bits (fieldAt b.mt.objCmd 4 4) 11 0
def Block.ocSize (b : Block) : Nat := fieldAt b.mt.objCmd 8 8
def Block.ocHost (b : Block) : Nat := fieldAt b.mt.objCmd 0x10 8
def Block.ocLen (b : Block) : Nat := fieldAt b.mt.objCmd 0x18 4

/-- The command completes with a code (R479, R493). -/
def Block.ocEnd (b : Block) (code : Code) : Block :=
  { b with mt := { b.mt with objBusy := false, objCode := code } }

/-- The hub dray channel that carries the object commands' transfers (R23, R519): DH.14, or DH.15 while DH.14 is fenced (DESIGN CHOICE,
assumption 123); none: both are fenced. -/
def Block.ocChannel (b : Block) : Option Nat := ([78, 79] : List Nat).find? fun c => !b.fenced 9 c

/-- An object command moves bytes on dray channel `c`. -/
def Block.ocMoves (b : Block) (c : Nat) : Bool := b.mt.objBusy && (b.ocOp == 2 || b.ocOp == 3) && b.ocChannel == some c

end Sys2Proof.Machine
end

