-- ==== Sys2Proof/Machine/Operands.lean ====
section
/-!
DEFINITION. Machine/Operands.lean: the operand forms of a coach's slots (R182, R189, R194): registers, predicates, vector
and accumulator rows, weight buffers and SRAM, with the tenant tags of R594.
-/
namespace Sys2Proof.Machine

/-- S register; S0 reads as 0 (R182). -/
def Coach.sReg (c : Coach) (i : Nat) : W32 := if i = 0 then 0 else tabGet 0 i c.s

/-- A register. -/
def Coach.aReg (c : Coach) (i : Nat) : W48 := tabGet 0 i c.a

/-- P register; P0 reads as all ones (R182). -/
def Coach.pReg (c : Coach) (i : Nat) : W64 := if i = 0 then BitVec.allOnes 64 else tabGet 0 i c.p

/-- The predicate of a slot, lane by lane (R194). -/
def Coach.mask (c : Coach) (k : Slot) : W64 := if k.pn then ~~~(c.pReg k.ps) else c.pReg k.ps

/-- The predicate of an M, L or C slot: bit 0 (R194). -/
def Coach.pred (c : Coach) (k : Slot) : Bool := (c.mask k).getLsbD 0

/-- Places that the free values of a task's undefined state are drawn at. -/
def placeV (i lane : Nat) : Nat := 64 * i + lane
def placeAcc (t row col : Nat) : Nat := 4096 + 1024 * t + 32 * row + col
def placeW (shadow : Bool) (ma i : Nat) : Nat := 16384 + (if shadow then 8192 else 0) + 2048 * ma + i
def placeFmt (shadow : Bool) (ma : Nat) : Nat := 32768 + (if shadow then 4 else 0) + ma
def placeS (i : Nat) : Nat := 40000 + i
def placeA (i : Nat) : Nat := 41000 + i
def placeP (i : Nat) : Nat := 42000 + i

/-- V register: zeros under another tenant's tag (R594); undefined lanes are free (R184). -/
def Coach.vReg (c : Coach) (i : Nat) : List W32 :=
  if tabFind? i c.vTag ≠ some c.tenant then List.replicate 64 0
  else (List.range 64).map fun l => ((tabFind? i c.v).bind fun x => x[l]?).getD (Config.freeWord c.epoch (placeV i l))

/-- Row of an accumulator tile. -/
def Coach.accRow (c : Coach) (t row : Nat) : List W32 :=
  if tabFind? t c.accTag ≠ some c.tenant then List.replicate 32 0
  else (List.range 32).map fun j =>
    ((tabFind? (t * 32 + row) c.acc).bind fun x => x[j]?).getD (Config.freeWord c.epoch (placeAcc t row j))

/-- Format and bytes of a weight buffer, active or shadow (R219). -/
def Coach.wbuf (c : Coach) (shadow : Bool) (ma : Nat) : Nat × List Byte :=
  let b := tabGet WBuf.new ma (if shadow then c.ws else c.wa)
  let tag := tabFind? ma (if shadow then c.wsTag else c.waTag)
  let fmt := b.fmt.getD (Config.freeNat c.epoch (placeFmt shadow ma) % 8)
  if tag ≠ some c.tenant then (fmt, List.replicate 2048 0)
  else (fmt, (List.range 2048).map fun i =>
    (b.bytes[i]?).getD (BitVec.ofNat 8 (Config.freeNat c.epoch (placeW shadow ma i))))

/-- CO_CYCLES (R208). -/
def Coach.cycles (c : Coach) (delivered : Nat) : W32 := BitVec.ofInt 32 ((delivered : Int) - c.cycleBase)

/-- CO_STRETCH (R211): the CCLK of a remote wait are left out. -/
def Coach.stretch (c : Coach) (delivered : Nat) : Int := ((c.remoteFrom.getD delivered : Nat) : Int) - c.stretchBase

def Coach.tag (c : Coach) (k : Nat) : TagSt := tabGet TagSt.new k c.tags

/-- Some tag is busy. -/
def Coach.anyBusy (c : Coach) : Bool := c.tags.any fun t => t.2.busy

/-- A busy tag is held by a SEND or RECV. -/
def TagSt.collective (t : TagSt) : Bool := t.busy && (t.kind == .send || t.kind == .recv)

/-- CO_TAGS (R208). -/
def Coach.tagBits (c : Coach) : Nat :=
  natSum ((c.tags.filter fun t => t.2.busy).map fun t => 2 ^ t.1) +
  natSum ((c.tags.filter fun t => t.2.collective).map fun t => 2 ^ (16 + t.1))

/-- SRAM ends here (R183). -/
def sramEnd : Nat := 0x300000

/-- The run-time checks of an SRAM operand (R183, R198). -/
def sramCheck (a n align : Nat) : Option Code :=
  if a % align ≠ 0 then some Codes.misaligned else if sramEnd < a + n then some Codes.sramRange else none

/-- A slot reads SRAM: the bytes, or the code that ends the task (R183, R198, R613). -/
def Block.slotRead (b : Block) (k a n align : Nat) : Except Code (List Byte) :=
  match sramCheck a n align with
  | some e => .error e
  | none => if b.poisoned (sramAddr k a) n then .error Codes.memPoison else .ok (b.readSram k a n)

/-- 32-bit lanes of a byte string (R182). -/
def lanes (bs : List Byte) : List W32 := (entries32 bs).map (BitVec.ofNat 32)
where entries32 (bs : List Byte) : List Nat := (List.range (bs.length / 4)).map fun i => fieldAt bs (4 * i) 4

/-- Bytes of 32-bit lanes. -/
def laneBytes (l : List W32) : List Byte := (l.map fun w => le 4 w.toNat).flatten

/-- A + OFF × unit modulo 2^48, OFF signed (R197). -/
def offsetAddr (a : W48) (off : BitVec 12) (unit : Int) : Nat := ((((a.toNat : Int) + off.toInt * unit) % (2 ^ 48 : Nat))).toNat

end Sys2Proof.Machine
end

