-- ==== Sys2Proof/Machine/Flags.lean ====
section
/-!
DEFINITION. Machine/Flags.lean: the floating-point flags CO_FPFLAGS (R251): NAN_MADE, INF_MADE and SAT from bit 2.
-/
namespace Sys2Proof.Machine

/-- Flags of a V-slot result or an accumulator element (R251): an infinity or a NaN that no operand already was. -/
def madeFlags (ops : List Num) (r : Num) : BitVec 3 :=
  (if r.isNan && !ops.any Num.isNan then flagNan else 0) ||| (if r.isInf && !ops.any Num.isInf then flagInf else 0)

/-- Flags of an F32 result by its operand words. -/
def madeF32 (ops : List W32) (r : W32) : BitVec 3 := madeFlags (ops.map f32) (f32 r)

/-- All flags of a list. -/
def orFlags (l : List (BitVec 3)) : BitVec 3 := l.foldl (· ||| ·) 0

/-- The flags after a bundle: a set wins over a W1C write of the same bundle (R11, R251). -/
def flagsAfter (old clear set : BitVec 3) : BitVec 3 := (old &&& ~~~clear) ||| set

end Sys2Proof.Machine
end

