-- ==== Sys2Proof/Machine/Words.lean ====
section
/-!
DEFINITION. Machine/Words.lean: the 2,160-bit word of a team port (R547 to R549): the places of its fields, its CRC, its lanes and
their scrambler.
-/
namespace Sys2Proof

open Sys2Proof.Machine

/-! ### The word's bits -/

/-- A number of fields given by width and value, the lowest first. -/
def packFields : List (Nat × Nat) → Nat
  | [] => 0
  | (w, v) :: r => v % 2 ^ w + 2 ^ w * packFields r

/-- The header (R548), 48 bits. -/
def LinkWord.header (w : LinkWord) : Nat :=
  packFields [(13, w.offset), (16, w.id), (8, w.seq), (3, w.dst), (3, w.src), (1, w.relay.toNat), (4, w.type)]

/-- Trailer bits [63:32] (R549). -/
def LinkWord.trailerTop (w : LinkWord) : Nat := packFields [(16, w.cycle), (6, w.credit), (2, w.ack), (8, w.ackSeq)]

/-- The word (R547): header in bits [47:0], payload in [2095:48], trailer in [2159:2096]. -/
def LinkWord.toBits (w : LinkWord) : Nat :=
  packFields [(48, w.header), (2048, unle (fitBytes 256 w.payload)), (32, w.crc.toNat), (32, w.trailerTop)]

/-- The fields of a word's bits. -/
def LinkWord.ofBits (n : Nat) : LinkWord :=
  let t := n / 2 ^ 2096
  { type := bits n 47 44, relay := bit n 43, src := bits n 42 40, dst := bits n 39 37, seq := bits n 36 29, id := bits n 28 13
    offset := bits n 12 0, payload := le 256 (bits n 2095 48), ackSeq := bits t 63 56, ack := bits t 55 54, credit := bits t 53 48
    cycle := bits t 47 32, crc := BitVec.ofNat 32 (bits t 31 0) }

/-- SRC, TYPE, ID and OFFSET, by which a receiver knows a flit (R554). -/
def LinkWord.key (w : LinkWord) : List Nat := [w.src, w.type, w.id, w.offset]

/-! ### CRC-32 (R549) -/

/-- One bit of the IEEE 802.3 CRC-32, lower bits first. -/
def crcBit (c : Nat) (x : Bool) : Nat := if (c + x.toNat) % 2 = 1 then (c / 2) ^^^ 0xEDB88320 else c / 2

/-- CRC-32 of bits. PRESUMED (assumption 125): the start of all ones, the complement at the end and the bit order are the standard's. -/
def crc32 (xs : List Bool) : BitVec 32 := BitVec.ofNat 32 (xs.foldl crcBit 0xFFFFFFFF ^^^ 0xFFFFFFFF)

/-- The low `n` bits of a number, the lowest first. -/
def lowBits (n v : Nat) : List Bool := (List.range n).map (bit v)

/-- What the CRC covers: header, payload, trailer bits [63:32]. -/
def LinkWord.covered (w : LinkWord) : List Bool :=
  lowBits 48 w.header ++ lowBits 2048 (unle (fitBytes 256 w.payload)) ++ lowBits 32 w.trailerTop

/-- The CRC that the word's fields call for. -/
def LinkWord.crcOf (w : LinkWord) : BitVec 32 := crc32 w.covered

/-- The word's CRC holds. -/
def LinkWord.crcOk (w : LinkWord) : Bool := w.crc == w.crcOf

/-- The word with its CRC, as a port transmits it. -/
def LinkWord.sealed (w : LinkWord) : LinkWord := { w with crc := w.crcOf }

/-! ### Lanes (R547) -/

/-- The 270 bits of lane `k`: word bits k, k + 8 and so on. -/
def LinkWord.lane (w : LinkWord) (k : Nat) : List Bool := (List.range 270).map fun j => bit w.toBits (8 * j + k)

/-- The self-synchronous scrambler x^58 + x^39 + 1 of a lane: `s` holds its last 58 transmitted bits, the last one first. -/
def scramble : List Bool → List Bool → List Bool
  | _, [] => []
  | s, x :: xs =>
    let y := xor x (xor (s.getD 38 false) (s.getD 57 false))
    y :: scramble ((y :: s).take 58) xs

/-- The receiver's descrambler, from the last 58 received bits. -/
def descramble : List Bool → List Bool → List Bool
  | _, [] => []
  | s, y :: ys => xor y (xor (s.getD 38 false) (s.getD 57 false)) :: descramble ((y :: s).take 58) ys

/-! ### Domain frames (R574, R575) -/

/-- A domain port's MAC address (R574): CB_DOM_OUI, the module number in bits [23:7], the port in bits [6:5]. -/
def macAddress (oui module port : Nat) : Nat := packFields [(5, 0), (2, port), (17, module), (24, oui)]

/-- The 32-byte domain header (R575). -/
def DomFrame.header (f : DomFrame) : List Byte :=
  le 1 (packFields [(4, f.kind), (4, f.ver)]) ++ le 1 f.count ++ le 2 f.rsvd02 ++ le 4 (packFields [(17, f.src), (15, f.rsvd04)]) ++
  le 4 (packFields [(17, f.dst), (15, f.rsvd08)]) ++ le 4 f.psn.toNat ++ le 4 f.ackPsn.toNat ++ le 4 f.msgId.toNat ++
  le 4 (packFields [(16, f.offset), (16, f.rsvd18)]) ++ le 4 f.dtid.toNat

/-- A frame with the fields of a domain header (R575). -/
def DomFrame.withHeader (f : DomFrame) (h : List Byte) : DomFrame :=
  { f with
    ver := bits (fieldAt h 0 1) 7 4, kind := bits (fieldAt h 0 1) 3 0, count := fieldAt h 1 1, rsvd02 := fieldAt h 2 2
    src := bits (fieldAt h 4 4) 16 0, rsvd04 := bits (fieldAt h 4 4) 31 17, dst := bits (fieldAt h 8 4) 16 0
    rsvd08 := bits (fieldAt h 8 4) 31 17, psn := BitVec.ofNat 32 (fieldAt h 0xC 4), ackPsn := BitVec.ofNat 32 (fieldAt h 0x10 4)
    msgId := BitVec.ofNat 32 (fieldAt h 0x14 4), offset := bits (fieldAt h 0x18 4) 15 0, rsvd18 := bits (fieldAt h 0x18 4) 31 16
    dtid := BitVec.ofNat 32 (fieldAt h 0x1C 4) }

/-- Every RSVD bit of the domain header is clear (R575). -/
def DomFrame.rsvdClear (f : DomFrame) : Bool := f.rsvd02 == 0 && f.rsvd04 == 0 && f.rsvd08 == 0 && f.rsvd18 == 0

end Sys2Proof
end

