-- ==== Sys2Proof/Machine/Ports.lean ====
section
/-!
DEFINITION. Machine/Ports.lean: the team ports as senders (R545, R550, R553, R554): paths between positions, credits, the replay buffer,
the flits of a contribution.
-/
namespace Sys2Proof.Machine

/-! ### Paths (R545, R554) -/

/-- The port of position `p` that faces position `q` (R545). -/
def portTo (p q : Nat) : Nat := (q + 8 - p - 1) % 8

/-- Position and port that a port must find at its other end (R545). -/
def partnerOf (p port : Nat) : Nat × Nat :=
  if port = 7 then (p ^^^ 4, 7)
  else
    let q := (p + port + 1) % 8
    (q, portTo q p)

def Block.portUp (b : Block) (port : Nat) : Bool := (b.port port).state == .up

/-- The port that carries flits for position q, and whether it is a relay path (R554). A module counts another module's ports as
UP. None: no path. -/
def Block.pathTo (b : Block) (q : Nat) : Option (Nat × Bool) :=
  let p := b.position
  let direct := portTo p q
  if b.portUp direct then some (direct, false)
  else if q = p ^^^ 4 then (if b.portUp 7 then some (7, true) else none)
  else if bit b.cb.present.toNat (p ^^^ 4) && b.portUp 7 then some (7, true)
  else (b.others.find? fun r => r != q && b.portUp (portTo p r)).map fun r => (portTo p r, true)

/-- Positions without any path, with the link cycle since which (R568). -/
def Block.notePaths (b : Block) : Block :=
  let gone := b.others.filter fun q => (b.pathTo q).isNone
  { b with cb := { b.cb with noPath := gone.foldl (fun t q => tabSet q (tabGet b.cb.linkCycle q b.cb.noPath) t) [] } }

/-! ### Sending (R550, R553) -/

/-- The flits that a port may send now: while it holds credits and its replay buffer of 2L + 2 has room. -/
def Block.pump (b : Block) (port : Nat) : Nat → Block
  | 0 => b
  | fuel + 1 =>
    let p := b.port port
    match p.sendQ with
    | [] => b
    | w :: rest =>
      if p.state ≠ .up ∨ p.credits = 0 ∨ 2 * b.cb.l + 2 ≤ p.replay.length then b
      else
        let w := { w with seq := p.txSeq, cycle := b.cb.linkCycle % 65536 }.sealed
        let b := b.modPort port fun p => { p with
          sendQ := rest, txSeq := (p.txSeq + 1) % 256, credits := p.credits - 1, replay := p.replay ++ [⟨w, b.cb.linkCycle⟩] }
        (b.cbEmit (.word port w)).pump port fuel

/-- Queue flits on a port, relayed ones ahead of its own. -/
def Block.queueFlits (b : Block) (port : Nat) (ws : List LinkWord) (first : Bool) : Block :=
  let b := b.modPort port fun p => { p with sendQ := if first then ws ++ p.sendQ else p.sendQ ++ ws }
  b.pump port ((b.port port).sendQ.length)

/-- Send flits to a position over its path. -/
def Block.sendFlits (b : Block) (q : Nat) (ws : List LinkWord) : Block :=
  match b.pathTo q with
  | some (port, relay) => b.queueFlits port (ws.map fun w => { w with relay := relay }) false
  | none => b

/-- The flits of a contribution to a collective (R548, R561): its bytes by 256, identified by CID. -/
def collFlits (src dst cid : Nat) (bytes : List Byte) : List LinkWord :=
  (List.range (ceilDiv bytes.length 256)).map fun i =>
    { type := 2, relay := false, src := src, dst := dst, seq := 0, id := cid, offset := i
      payload := fitBytes 256 ((bytes.drop (256 * i)).take 256), ackSeq := 0, ack := 0, credit := 0, cycle := 0, crc := 0 }

end Sys2Proof.Machine
end

