-- ==== Sys2Proof/Machine/Collect.lean ====
section
/-!
DEFINITION. Machine/Collect.lean: collectives of the Cibin logic (R202, R560 to R564): descriptors, matching, reduction,
completion of their tags, and the end of a task that waits for them (R215).
-/
namespace Sys2Proof.Machine

/-- The task of a coach that is ending hands its notice over once no SEND or RECV is in flight (R215). -/
def Block.endCheck (b : Block) (k : Nat) : Block :=
  let c := b.coach k
  if c.st = .ending ∧ c.notice.isNone ∧ !c.tags.any (fun t => t.2.collective) then
    b.modCoach k fun c => { c with notice := some (.done c.endCode c.endAux) }
  else b

/-- Complete a SEND or RECV tag with a code: its record at A[AN] + 64, then the tag goes idle (R199, R202). -/
def Block.tagRecord (b : Block) (k tag : Nat) (code : Code) : Block :=
  let c := b.coach k
  let t := c.tag tag
  if t.collective then
    let b := b.writeSram k (t.desc + 64) (record (le 4 code.toNat))
    (b.modCoach k fun c => { c with tags := tabErase tag c.tags }).endCheck k
  else b

/-! ### Descriptors (R560) -/

def descOp (d : List Byte) : Nat := fieldAt d 0 1
def descDtype (d : List Byte) : Nat := bits (fieldAt d 0 4) 11 8
def descRop (d : List Byte) : Nat := bits (fieldAt d 0 4) 13 12
def descPeer (d : List Byte) : Nat := bits (fieldAt d 0 4) 18 16
def descMembers (d : List Byte) : Nat := bits (fieldAt d 0 4) 31 24
def descCid (d : List Byte) : Nat := fieldAt d 4 2
def descLen (d : List Byte) : Nat := bits (fieldAt d 8 4) 20 0
def descBuf (d : List Byte) : Nat := bits (fieldAt d 12 4) 21 0

/-- The fields that must agree: all but BUF (R561). -/
def descKey (d : List Byte) : List Byte := d.take 12

/-- Positions of a MEMBERS mask, ascending. -/
def positions (m : Nat) : List Nat := (List.range 8).filter fun p => bit m p

/-- Bytes that a RECV writes (R561), for the member of rank `i` among `n`. -/
def outBytes (op b n i : Nat) : Nat :=
  if op = 2 then
    let s := 64 * ceilDiv b (64 * n)
    min b ((i + 1) * s) - min b (i * s)
  else if op = 3 then n * b else b

/-- Which of SEND and RECV a participant issues (R561). -/
def roleOk (d : List Byte) (pos : Nat) (send : Bool) : Bool :=
  match descOp d with
  | 4 => send == (pos == descPeer d)
  | 5 => send == (pos != descPeer d)
  | _ => true

/-- The checks of R563 up to the third. -/
def Block.descCheck (b : Block) (d : List Byte) (send : Bool) : Option Code :=
  let w0 := fieldAt d 0 4
  let pos := b.clk.straps.toNat % 8
  let m := descMembers d
  let n := (positions m).length
  let rank := (positions (m % 2 ^ pos)).length
  let op := descOp d
  let ext := if send then descLen d else outBytes op (descLen d) n rank
  if bits w0 23 19 != 0 || bits w0 15 14 != 0 || fieldAt d 6 2 != 0 || bits (fieldAt d 8 4) 31 21 != 0 ||
      bits (fieldAt d 12 4) 31 22 != 0 || !zeroAt d 16 48 then some Codes.badRsvd
  else if op = 0 || 5 < op || decide (3 < descDtype d) || decide (1 < descRop d) || (decide (2 < op) && descRop d != 0) ||
      (descDtype d == 3 && decide (op ≤ 2)) || decide (n < 2) || !bit m pos || (decide (3 < op) && !bit m (descPeer d)) ||
      decide (descLen d < 64) || decide (1048576 < descLen d) || descLen d % 64 != 0 || descBuf d % 64 != 0 ||
      decide (sramEnd < descBuf d + ext) || !roleOk d pos send then some Codes.cbDescBad
  else if decide (b.cb.size ≤ 1) || m &&& (255 - b.cb.present.toNat) != 0 then some Codes.cbNoTeam
  else none

/-! ### Matching and completion -/

/-- Contributions are matched by CID and MEMBERS (R561). -/
def Block.coll? (b : Block) (cid members : Nat) : Option Coll :=
  b.cb.colls.find? fun c => c.cid == cid && c.members == members

/-- A collective of which nothing has come yet. -/
def Coll.new (cid members : Nat) : Coll :=
  { cid := cid, members := members, desc := [], send := none, recv := none, sendCycle := 0, recvCycle := 0, parts := [], keys := [] }

/-- Write a collective's entry; one whose tags are both gone goes, unless it waits for this module's own descriptors. -/
def Block.setColl (b : Block) (c : Coll) : Block :=
  let rest := b.cb.colls.filter fun x => !(x.cid == c.cid && x.members == c.members)
  { b with cb := { b.cb with
      colls := if c.send.isNone && c.recv.isNone && !c.desc.isEmpty then rest else rest ++ [c] } }

/-- Key of a flit's payload (R548, R554). -/
def partKey (pos offset : Nat) : Nat := pos * 8192 + offset

/-- A contribution cut into flit payloads. -/
def flitParts (pos : Nat) (bytes : List Byte) : List (Nat × List Byte) :=
  (chunks 256 bytes).zipIdx.map fun x => (partKey pos x.2, x.1)

/-- The contribution of a position once all its flits are here. -/
def Coll.contribOf (c : Coll) (p : Nat) : Option (List Byte) :=
  let xs := (List.range (ceilDiv (descLen c.desc) 256)).map fun i => tabFind? (partKey p i) c.parts
  if xs.all Option.isSome then some ((xs.filterMap id).flatten.take (descLen c.desc)) else none

/-- Some participant's descriptor disagrees with this module's (R563). -/
def Coll.mismatch (c : Coll) : Bool := c.keys.any fun k => k != descKey c.desc

/-- A SEND or RECV descriptor reaches the Cibin logic (R563, R564). Its tag is busy already. -/
def Block.collArrive (b : Block) (k tag : Nat) (send : Bool) (d : List Byte) : Block :=
  match b.descCheck d send with
  | some e => b.tagRecord k tag e
  | none =>
    let pos := b.clk.straps.toNat % 8
    let dead := b.cb.linkCycle + b.cb.collTimeout.toNat
    let cid := descCid d
    if b.cb.colls.any (fun c => c.cid == cid && !c.desc.isEmpty && (descKey c.desc != descKey d || (if send then c.send.isSome else c.recv.isSome)))
    then b.tagRecord k tag Codes.cbCidBusy
    else
      let old : Coll := { (b.coll? cid (descMembers d)).getD (Coll.new cid (descMembers d)) with desc := d }
      if send then
        if b.poisoned (sramAddr k (descBuf d)) (descLen d) then b.tagRecord k tag Codes.memPoison
        else
          let bytes := b.readSram k (descBuf d) (descLen d)
          let parts := (flitParts pos bytes).foldl (fun t x => tabSet x.1 x.2 t) old.parts
          let b := b.setColl { old with send := some (k, tag), sendCycle := dead, parts := parts }
          let targets := (positions (descMembers d)).filter fun p => p != pos && (descOp d != 5 || p == descPeer d)
          targets.foldl (fun b p => (b.cbEmit (.collPart p cid (descKey d))).sendFlits p (collFlits pos p cid bytes)) b
      else b.setColl { old with recv := some (k, tag, descBuf d), recvCycle := dead }

/-- Elements of a contribution as F32 words (R562). -/
def elemsF32 (dtype : Nat) (bs : List Byte) : List W32 :=
  if dtype = 0 then lanes bs
  else (List.range (bs.length / 2)).map fun i =>
    ((if dtype = 1 then bf16 else fp16).read (fieldAt bs (2 * i) 2)).toF32

/-- Reduced words in the element type, converted under R244 and R246. -/
def elemsOut (dtype : Nat) (ws : List W32) : List Byte :=
  if dtype = 0 then laneBytes ws
  else (ws.map fun w => le 2 ((if dtype = 1 then bf16 else fp16).convert false (f32 w)).val).flatten

/-- The contributions combined in ascending position order (R562). -/
def reduceAll (rop dtype : Nat) (cs : List (List Byte)) : List Byte :=
  match cs.map (elemsF32 dtype) with
  | [] => []
  | x :: xs => elemsOut dtype (xs.foldl (fun acc y => (acc.zip y).map fun p =>
      if rop = 0 then addF32 p.1 p.2 else maxF32 p.1 p.2) x)

/-- Contributions that a collective needs on this module before it completes here (R561). -/
def Coll.needs (c : Coll) (pos : Nat) : List Nat :=
  let m := positions (descMembers c.desc)
  match descOp c.desc with
  | 4 => [descPeer c.desc]
  | 5 => m.filter (· != descPeer c.desc)
  | _ => if c.recv.isNone then [pos] else m

/-- The output of a collective at this module's RECV (R561, R562). -/
def Coll.output (c : Coll) (pos : Nat) : List Byte :=
  let d := c.desc
  let ms := positions (descMembers d)
  let parts := ms.filterMap c.contribOf
  match descOp d with
  | 1 => reduceAll (descRop d) (descDtype d) parts
  | 2 =>
    let s := 64 * ceilDiv (descLen d) (64 * ms.length)
    let i := (positions (descMembers d % 2 ^ pos)).length
    ((reduceAll (descRop d) (descDtype d) parts).drop (i * s)).take s
  | 3 => parts.flatten
  | 4 => (c.contribOf (descPeer d)).getD []
  | _ => ((ms.filter (· != descPeer d)).filterMap c.contribOf).headD []

/-- End a collective on this module: both of its tags complete with a code. -/
def Block.collEnd (b : Block) (c : Coll) (code : Code) : Block :=
  let b := { b with cb := { b.cb with
    colls := b.cb.colls.filter fun x => !(x.cid == c.cid && x.members == c.members) } }
  let b := match c.send with
    | some (k, t) => b.tagRecord k t code
    | none => b
  match c.recv with
  | some (k, t, _) => b.tagRecord k t code
  | none => b

/-- The RECV buffer of a collective becomes undefined (R9, R563, R564). -/
def Block.collUndef (b : Block) (c : Coll) : Block :=
  match c.recv with
  | some (k, _, buf) =>
    let n := outBytes (descOp c.desc) (descLen c.desc) (positions (descMembers c.desc)).length
      (positions (descMembers c.desc % 2 ^ (b.clk.straps.toNat % 8))).length
    b.nextEpoch.writeSram k buf ((List.range n).map fun i => Config.freeByte b.epoch (sramAddr k (buf + i)))
  | none => b

/-- A collective completes once this module's descriptors and every contribution it needs are there: the output goes to
the RECV's buffer and both tags complete with OK (R561, R565). The operation must be the one named. -/
def Block.collComplete (b : Block) (op cid members : Nat) : Block :=
  let pos := b.clk.straps.toNat % 8
  match b.coll? cid members with
  | none => b
  | some c =>
    let both := op = 4 ∨ op = 5 ∨ (c.send.isSome ∧ c.recv.isSome)
    if c.desc.isEmpty ∨ descOp c.desc ≠ op ∨ ¬ both then b
    else if c.mismatch then (b.collUndef c).collEnd c Codes.cbMismatch
    else if !(c.needs pos).all (fun p => (c.contribOf p).isSome) then b
    else
      let b := match c.recv with
        | some (k, _, buf) => b.writeSram k buf (c.output pos)
        | none => b
      let b := { b with cb := { b.cb with collCount := sat32 b.cb.collCount 1 } }
      b.collEnd c Codes.ok

/-- ALL_REDUCE (R561, R562). -/
def execAllReduce (cid members : Nat) (s : State) : Host.Outcome State Fault Refusal :=
  s.run fun b => b.collComplete 1 cid members

/-- REDUCE_SCATTER (R561, R562). -/
def execReduceScatter (cid members : Nat) (s : State) : Host.Outcome State Fault Refusal :=
  s.run fun b => b.collComplete 2 cid members

/-- ALL_GATHER (R561). -/
def execAllGather (cid members : Nat) (s : State) : Host.Outcome State Fault Refusal :=
  s.run fun b => b.collComplete 3 cid members

/-- BROADCAST (R561). -/
def execBroadcast (cid members : Nat) (s : State) : Host.Outcome State Fault Refusal :=
  s.run fun b => b.collComplete 4 cid members

/-- POINT (R561). -/
def execPoint (cid members : Nat) (s : State) : Host.Outcome State Fault Refusal :=
  s.run fun b => b.collComplete 5 cid members

/-- CB_TIMEOUT (R564): one tag's count has expired; its RECV buffer is undefined. -/
def execCbTimeout (coach tag : Nat) (s : State) : Host.Outcome State Fault Refusal :=
  s.run fun b =>
    let hit := b.cb.colls.find? fun c =>
      (c.send == some (coach, tag) && decide (c.sendCycle ≤ b.cb.linkCycle)) ||
      (match c.recv with
        | some (k, t, _) => k == coach && t == tag && decide (c.recvCycle ≤ b.cb.linkCycle)
        | none => false)
    match hit with
    | none => b
    | some c =>
      if c.send = some (coach, tag) then (b.setColl { c with send := none }).tagRecord coach tag Codes.cbTimeout
      else ((b.collUndef c).setColl { c with recv := none }).tagRecord coach tag Codes.cbTimeout

end Sys2Proof.Machine
end

