-- ==== Sys2Proof/Machine/Arrays.lean ====
section
/-!
DEFINITION. Machine/Arrays.lean: the matrix arrays of a coach (R218 to R223, R227, R228, R252 to R256): elements, column sums,
accumulator rows, and the streams that read SRAM row by row.
-/
namespace Sys2Proof.Machine

/-- Write columns from `col` of a tile's row; a tile under another tenant's tag is cleared first (R594). -/
def Coach.setAcc (c : Coach) (t row col : Nat) (xs : List W32) : Coach :=
  let mine := tabFind? t c.accTag = some c.tenant
  let old := c.accRow t row
  let acc := if mine then c.acc
    else (List.range 32).foldl (fun a r => tabSet (t * 32 + r) (List.replicate 32 0) a) c.acc
  { c with acc := tabSet (t * 32 + row) ((old.take col ++ xs ++ old.drop (col + xs.length)).take 32) acc
           accTag := tabSet t c.tenant c.accTag }

/-! ### Elements (R218, R219, R221, R227) -/

/-- The value of an element code in a format (R206, R240). -/
def elemOf (fmt v : Nat) : Num :=
  match fmt with
  | 0 => e4m3.read v
  | 1 => e5m2.read v
  | 2 => let i : Int := (BitVec.ofNat 8 v).toInt
         .fin (decide (i < 0)) i.natAbs 0
  | 3 => e4m3.read v
  | 4 => e5m2.read v
  | 5 => e2m1.read v
  | 6 => bf16.read v
  | _ => fp16.read v

/-- Element `e` of a byte string in a format (R221). -/
def elemAt (fmt : Nat) (bs : List Byte) (e : Nat) : Num :=
  if fmt = 5 then
    let v := fieldAt bs (e / 2) 1
    elemOf 5 (if e % 2 = 0 then v % 16 else v / 16)
  else if fmt ≤ 4 then elemOf fmt (fieldAt bs e 1)
  else elemOf fmt (fieldAt bs (2 * e) 2)

/-- W[e][j] of a weight tile (R219). -/
def weightAt (fmt : Nat) (w : List Byte) (e j : Nat) : Num :=
  if fmt = 5 then
    let v := fieldAt w (64 * (e / 2) + j) 1
    elemOf 5 (if e % 2 = 0 then v % 16 else v / 16)
  else if fmt ≤ 4 then elemOf fmt (fieldAt w (64 * e + j) 1)
  else elemOf fmt (fieldAt w (64 * e + 2 * j) 2)

/-- Formats with block scales. -/
def isMx (fmt : Nat) : Bool := fmt == 3 || fmt == 4 || fmt == 5

/-- ROWB (R221). -/
def rowBytes (fmt : Nat) (quad : Bool) : Nat := (if fmt ≤ 5 then 32 else 64) * (if quad then 2 else 1)
/-- SCB (R221). -/
def scaleBytes (fmt : Nat) (quad : Bool) : Nat :=
  (if fmt = 5 then 2 else if isMx fmt then 1 else 0) * (if quad then 2 else 1)

/-- Chunk length of CH (R207). -/
def chunkLen (ch : Nat) : Nat := 16 * 2 ^ ch

/-- One chunk (R252 to R254): summed in the short format, in INT8 exactly; an MX chunk takes its two scales. -/
def chunkVal (fmt : Nat) (ps : List Num) (sa sw : Nat) : Num :=
  let v := if fmt = 2 then ps.foldl Num.add (.fin false 0 0) else chunkSum ps
  if isMx fmt then (if sa = 255 ∨ sw = 255 then .nan else v.scale ((sa : Int) - 127 + ((sw : Int) - 127))) else v

/-- A column's running sum: inputs `xs` in array-row order with their weights; `sa`, `sw` by 32-element block (R253). -/
def columnSum (fmt ch : Nat) (xs ws : List Num) (sa sw : Nat → Nat) : W32 :=
  let ps := (xs.zip ws).map fun p => p.1.mul p.2
  let len := if isMx fmt then min (chunkLen ch) 32 else chunkLen ch
  promote ((chunks len ps).zipIdx.map fun c => chunkVal fmt c.1 (sa (c.2 * len / 32)) (sw (c.2 * len / 32)))

/-- The 32 results of a row in 32 × 32 mode, with the operands of each column for the flags. -/
def rowSums (fmt ch : Nat) (w row scales : List Byte) : List (W32 × List Num) :=
  let n := if fmt = 5 then 64 else 32
  let xs := (List.range n).map (elemAt fmt row)
  let sc := (scales.map fun x => elemScale x.toNat)
  (List.range 32).map fun j =>
    let ws := (List.range n).map fun e => weightAt fmt w e j
    let sw := fun blk => fieldAt w (64 * blk + 32 + j) 1
    let swn := if isMx fmt then (List.range (n / 32)).map (fun x => elemScale (sw x)) else []
    (columnSum fmt ch xs ws (fun blk => fieldAt scales blk 1) sw, xs ++ ws ++ sc ++ swn)
where elemScale (v : Nat) : Num := if v = 255 then .nan else .fin false 1 0

/-- The 16 results of a sub-array for one quad row (R227, R228). -/
def quadSums (fmt ch : Nat) (w row scales : List Byte) (p : Nat) : List (W32 × List Num) :=
  let n := if fmt = 5 then 32 else 16
  let xs := (List.range n).map fun e => elemAt fmt row (p * n + e)
  let base := if p < 2 then 0 else n
  let sa := fieldAt scales (if fmt = 5 then p else p / 2) 1
  (List.range 16).map fun j' =>
    let j := j' + 16 * (p % 2)
    let ws := (List.range n).map fun e => weightAt fmt w (base + e) j
    let sw := fieldAt w ((if fmt = 5 ∧ 2 ≤ p then 64 else 0) + 32 + j) 1
    let sc := if isMx fmt then [rowSums.elemScale sa, rowSums.elemScale sw] else []
    (columnSum fmt ch xs ws (fun _ => sa) (fun _ => sw), xs ++ ws ++ sc)

/-- Write results into a tile's row under ADD or OVW (R255), and their flags (R251). -/
def Coach.accPut (c : Coach) (addTo : Bool) (t row col : Nat) (r : List (W32 × List Num)) : Coach × SlotWr × BitVec 3 :=
  let old := (c.accRow t row).drop col
  let new := (r.zip old).map fun p =>
    if addTo then (addF32 p.2 p.1.1, madeFlags (f32 p.2 :: p.1.2) (f32 (addF32 p.2 p.1.1)))
    else (p.1.1, madeFlags p.1.2 (f32 p.1.1))
  let xs := new.map (·.1)
  (c.setAcc t row col xs, .accRow t row col xs, orFlags (new.map (·.2)))

/-- Operands of a pass: array, tiles, chunk length, modes, and the weights in force (R207, R229). -/
structure PassCfg where
  acc : Nat
  ch : Nat
  addTo : Bool
  quad : Bool
  fmt : Nat
  w : List Byte

/-- One activation row of a pass (R207, R228). -/
def Coach.passRow (p : PassCfg) (st : Coach × List SlotWr) (i : Nat) (row scales : List Byte) : Coach × List SlotWr :=
  let put := fun (st : Coach × List SlotWr) (t r col : Nat) (xs : List (W32 × List Num)) =>
    let (c, w, f) := st.1.accPut p.addTo (t % 8) r col xs
    (c, st.2 ++ [w, SlotWr.flags f])
  if p.quad then
    let t := p.acc + 2 * (i / 32)
    (List.range 4).foldl (fun st q =>
      put st (t + q / 2) (i % 32) (16 * (q % 2)) (quadSums p.fmt p.ch p.w row scales q)) st
  else put st (p.acc + i / 32) (i % 32) 0 (rowSums p.fmt p.ch p.w row scales)

/-! ### Streams (R220, R223) -/

/-- CCLK between the reads of two rows of a pass: one at full rate, four at quarter rate (R223). -/
def rowGap (fmt : Nat) : Nat := if fmt ≤ 5 then 1 else 4

/-- A row as SRAM holds it now. -/
def Block.readRow (b : Block) (k : Nat) (r : SramRow) : SramRow :=
  match r.addr with
  | none => r
  | some a => { r with bytes := b.readSram k a r.bytes.length, scales := b.readSram k r.scaleAddr r.scales.length }

/-- A row that is read after CCLK `t` and meets [a, a + n). -/
def SramStream.sees (s : SramStream) (r : SramRow) (a n t : Nat) : Bool :=
  match r.addr with
  | none => false
  | some x => decide (t < s.start + r.after) &&
    ((decide (x < a + n) && decide (a < x + r.bytes.length)) ||
     (decide (r.scaleAddr < a + n) && decide (a < r.scaleAddr + r.scales.length)))

/-- Some row is read after CCLK `t`. -/
def SramStream.openAt (s : SramStream) (t : Nat) : Bool := s.rows.any fun r => decide (t < s.start + r.after)

/-- What a stream's rows give: the shadow buffer of a weight load, the accumulator rows and flags of a pass (R207, R220, R228). -/
def Coach.runStream (c : Coach) (s : SramStream) : Coach × List SlotWr :=
  if s.load then
    let buf : WBuf := ⟨some s.fmt, (s.rows.map (·.bytes)).flatten⟩
    ({ c with ws := tabSet s.ma buf c.ws, wsTag := tabSet s.ma c.tenant c.wsTag }, [.shadow s.ma buf])
  else
    let c := s.before.foldl (fun (c : Coach) (x : Nat × Nat × List W32) => c.setAcc x.1 x.2.1 0 x.2.2) c
    let p : PassCfg := ⟨s.acc, s.ch, s.addTo, s.quad, s.fmt, s.weights⟩
    s.rows.zipIdx.foldl (fun (st : Coach × List SlotWr) (x : SramRow × Nat) => Coach.passRow p st x.2 x.1.bytes x.1.scales) (c, [])

/-- The flags among the results of a slot. -/
def flagsOf (ws : List SlotWr) : BitVec 3 :=
  ws.foldl (fun (f : BitVec 3) (w : SlotWr) => match w with
    | .flags g => f ||| g
    | _ => f) 0

/-- A store of CCLK `t` to [a, a + n) of SRAM is seen by the stream rows that are read later (R223): the stream gives what its
rows now hold. -/
def Block.restream (b : Block) (k a n t : Nat) : Block :=
  (b.coach k).streams.zipIdx.foldl (fun (b : Block) (x : SramStream × Nat) =>
    if !x.1.rows.any fun r => x.1.sees r a n t then b
    else
      let s := { x.1 with rows := x.1.rows.map fun r => if x.1.sees r a n t then b.readRow k r else r }
      b.modCoach k fun c =>
        let (c', ws) := c.runStream s
        { c' with streams := c'.streams.set x.2 s, fpflags := c'.fpflags ||| flagsOf ws }) b

end Sys2Proof.Machine
end

