-- ==== Sys2Proof/Machine/Bundle.lean ====
section
/-!
DEFINITION. Machine/Bundle.lean: the issue of a coach bundle (R190, R192, R194, R196, R200, R203, R210 to R216): slots read
their sources before any result of the bundle is written; exceptions; relay points, save images and restores; the end of
a task. Latencies and waits (R190, R191, R230) are timing: a bundle comes when it may issue.
-/
namespace Sys2Proof.Machine

/-- A coach that runs a task from its kernel. -/
def Coach.live (c : Coach) : Bool := c.st == .running && c.task.isSome

/-! ### Writing results -/

/-- The registers of a coach after one result of its bundle. -/
def Coach.put (c : Coach) (w : SlotWr) : Coach :=
  match w with
  | .s i v => if i = 0 then c else { c with s := tabSet i v c.s }
  | .a i v => { c with a := tabSet i v c.a }
  | .v i l => { c with v := tabSet i l c.v, vTag := tabSet i c.tenant c.vTag }
  | .p i v => if i = 0 then c else { c with p := tabSet i v c.p }
  | .accRow t row col xs => c.setAcc t row col xs
  | .shadow ma b => { c with ws := tabSet ma b c.ws, wsTag := tabSet ma c.tenant c.wsTag }
  | .swap ma =>
    let fa := c.wbuf false ma
    let fs := c.wbuf true ma
    { c with wa := tabSet ma ⟨some fs.1, fs.2⟩ c.wa, ws := tabSet ma ⟨some fa.1, fa.2⟩ c.ws
             waTag := tabSet ma c.tenant c.waTag, wsTag := tabSet ma c.tenant c.wsTag }
  | .flags f => { c with fpflags := c.fpflags ||| f }
  | .clearFlags f => { c with fpflags := c.fpflags &&& ~~~f }
  | .round r => { c with round := r }
  | .tag k t => { c with tags := tabSet k t c.tags }
  | .stream s => { c with streams := c.streams ++ [s] }
  | .clearFault k => { c with tags := tabErase k c.tags }
  | _ => c

/-- The delivered CCLK in which a coach's bundle issues (R190, R192). -/
def Block.bundleCclk (b : Block) (c : Coach) : Nat := max b.clk.delivered c.ready

/-- One result of a bundle: registers, SRAM, and what goes out to units and the Cibin logic. -/
def Block.put (b : Block) (k : Nat) (w : SlotWr) : Block :=
  match w with
  | .sram a bs => (b.writeSram k a bs).restream k a bs.length (b.bundleCclk (b.coach k))
  | .ucmd c => if c.deferred then b.modCoach k fun x => { x with deferred := x.deferred ++ [c] } else b.arrive c
  | .collective t snd d => b.collArrive k t snd d
  | w => b.modCoach k fun c => c.put w

/-- Stores take effect when the bundle's streams stand (R223). -/
def SlotWr.store (w : SlotWr) : Bool :=
  match w with
  | .sram _ _ => true
  | _ => false

/-- W1C writes come before the flags that the bundle's results set (R11, R251). -/
def SlotWr.early (w : SlotWr) : Bool :=
  match w with
  | .clearFlags _ => true
  | _ => false

/-! ### Program counter and loops (R192, R196) -/

/-- A taken branch ends every level whose body its target lies outside, and what is nested in it. -/
def branchLoops (ls : List LoopLevel) (target : Nat) : List LoopLevel :=
  let out := fun (l : LoopLevel) => decide (target < l.first) || decide (l.last < target)
  match (ls.zipIdx.filter fun p => out p.1).getLast? with
  | some p => ls.drop (p.2 + 1)
  | none => ls

/-- The end of a bundle at `pc` that does not branch: an innermost level that ends there goes round or ends. -/
def loopNext (pc : Nat) : List LoopLevel → Nat × List LoopLevel
  | [] => (pc + 1, [])
  | l :: ls =>
    if l.last = pc then
      if 1 < l.remaining then (l.first, { l with remaining := l.remaining - 1 } :: ls) else loopNext pc ls
    else (pc + 1, l :: ls)

/-- The levels that go on when the bundle at `pc` has issued: one whose last iteration's last bundle it was has ended (R196). -/
def openLoops (pc : Nat) : List LoopLevel → List LoopLevel
  | [] => []
  | l :: ls => if l.last = pc ∧ l.remaining ≤ 1 then openLoops pc ls else l :: ls

/-- The next PC and loop levels of a bundle (R192, R196). A branch or LOOP in the last bundle of an iteration that is not a
level's last goes its own way (DESIGN CHOICE, assumption 132). -/
def nextPc (c : Coach) (ws : List SlotWr) : Nat × List LoopLevel :=
  let ls := openLoops c.pc c.loops
  let act := ws.findSome? fun w => match w with
    | .branch t => some (t, branchLoops ls t)
    | .loop n len =>
      if n = 0 then some (c.pc + len + 1, ls)
      else some (c.pc + 1, ⟨c.pc + 1, c.pc + len, n⟩ :: ls)
    | _ => none
  match act with
  | some r => r
  | none => loopNext c.pc c.loops

/-! ### Exceptions (R215, R216) and empty bundles -/

/-- Exceptions in the order of R216: RELAY_OVERDUE, then the C, L, V and M slots. -/
def exnOrder (s : Nat) : Nat := if s = 4 then 0 else s + 1

def firstExn (es : List Exn) : Option Exn := (sortBy (fun x y => decide (exnOrder x.slot ≤ exnOrder y.slot)) es).head?

/-- A task ends with a code and AUX; deferred commands are discarded, and the notice waits for the SEND and RECV tags
(R215). -/
def Block.endTask (b : Block) (k : Nat) (code : Code) (aux : Nat) : Block :=
  (b.modCoach k fun c => { c with
    st := .ending, endCode := code, endAux := aux, deferred := [], bundle := [], bundleRelay := false, bundleExn := []
    slots := [], streams := [], image := none }).endCheck k

/-- AUX of an exception (R215): bundle index and slot; no slot is stated for RELAY_OVERDUE, whose field is free. -/
def exnAux (c : Coach) (e : Exn) : Nat :=
  c.pc % 4096 + 2 ^ 22 * (if e.slot = 4 then Config.freeNat c.epoch 0 % 4 else e.slot)

/-- An exception ends the task (R215). -/
def Block.raise (b : Block) (k : Nat) (e : Exn) : Block := b.endTask k e.code (exnAux (b.coach k) e)

/-- The bundle at `pc` holds no operation in any slot (R189). -/
def Kernel.blank (x : Kernel) (pc : Nat) : Bool := x.code[pc]? == some 0

/-- Bundles without any operation issue one after another, each in a CCLK: the PC and loop levels after them, and how many there
were. The limit of a relay stretch (R211) bounds them. -/
def Kernel.skip (x : Kernel) : Nat → Nat → List LoopLevel → Nat × List LoopLevel × Nat
  | 0, pc, ls => (pc, ls, 0)
  | n + 1, pc, ls =>
    if x.blank pc then
      let r := loopNext pc ls
      let q := x.skip n (r.1 % 4096) r.2
      (q.1, q.2.1, q.2.2 + 1)
    else (pc, ls, 0)

/-- A running coach issues the bundles that hold no operation; one that had to hold a RELAY raises RELAY_MISSING (R200). -/
def Block.passEmpty (b : Block) (k : Nat) : Block :=
  let c := b.coach k
  match c.kernel with
  | none => b
  | some x =>
    if !c.live || !x.blank c.pc then b
    else if c.relayDue then b.raise k ⟨0, Codes.relayMissing⟩
    else
      let r := x.skip 65537 c.pc c.loops
      b.modCoach k fun c => { c with pc := r.1, loops := r.2.1, ready := c.ready + r.2.2 }

/-- Delivered CCLK from a bundle's issue to that of the next (R192). -/
def bundleCost (ws : List SlotWr) : Nat :=
  if ws.any fun w => match w with
    | .branch _ => true
    | .loop n _ => n == 0
    | _ => false then 3
  else if ws.any fun w => match w with
    | .relay _ _ => true
    | _ => false then 2
  else 1

/-! ### Save images (R209, R212, R213, R238) -/

/-- The bytes of a LIVE bit's block, and whether it cannot carry its weight format. -/
def Coach.liveBlock (c : Coach) (i : Nat) : List Byte × Bool :=
  if i < 2 then ([], false)
  else if i < 6 then (((List.range 16).map fun j => le 4 (c.sReg (16 * (i - 2) + j)).toNat).flatten, false)
  else if i = 6 then (((List.range 16).map fun j => le 8 (c.aReg j).toNat).flatten, false)
  else if i = 7 then (((List.range 8).map fun j => le 8 (if j = 0 then 0 else (c.pReg j).toNat)).flatten, false)
  else if i < 16 then ([], false)
  else if i < 24 then
    let shadow := decide (i < 20)
    let (fmt, bs) := c.wbuf shadow (i % 4)
    let keep := fun (n : Nat) =>
      let k := n / 64
      let j := n % 64
      decide (j < 32) || (decide (fmt = 3 ∨ fmt = 4) && k == 0) || (decide (fmt = 5) && decide (k ≤ 1))
    if fmt < 6 then
      let block := bs.zipIdx.map fun p => if keep p.2 then p.1 else 0
      (block.take 2047 ++ [BitVec.ofNat 8 fmt], (tabGet WBuf.new (i % 4) (if shadow then c.ws else c.wa)).fmt.isNone)
    else (bs, true)
  else if i < 56 then (laneBytes (c.vReg (i - 24)), false)
  else (((List.range 32).map fun r => laneBytes (c.accRow (i - 56) r)).flatten, false)

/-- Bytes of a LIVE bit (R209). -/
def liveSize (i : Nat) : Nat :=
  if i < 2 then 0 else if i < 6 then 64 else if i = 6 then 128 else if i = 7 then 64 else if i < 16 then 0
  else if i < 24 then 2048 else if i < 56 then 256 else 4096

/-- Set LIVE bits, ascending. -/
def liveBits (m : W64) : List Nat := (List.range 64).filter fun i => m.getLsbD i

/-- Live byte count L of a relay table entry (R209). -/
def RelayEntry.size (r : RelayEntry) : Nat :=
  natSum ((liveBits r.live).map liveSize) + 64 * natSum (r.ranges.map (·.2))

/-- A loop level in a save image's header; LOOP0 is the outermost (R212). -/
def loopWord (l : Option LoopLevel) : List Byte :=
  match l with
  | some l => le 8 (l.remaining * 2 ^ 32 + 2 ^ 31 + l.last % 4096 * 4096 + l.first % 4096)
  | none => le 8 0

/-- The save image of a task that stands at a relay point (R212). -/
def Block.saveImage (b : Block) (k relayId : Nat) (r : RelayEntry) : SaveImage :=
  let c := b.coach k
  let blocks := (liveBits r.live).map fun i => (i, c.liveBlock i)
  let outer := c.loops.reverse
  let kid := match c.kernel with
    | some x => x.kernelId
    | none => 0
  let header := le 4 (relayId * 65536 + kid) ++ le 4 r.size ++ le 8 r.live.toNat ++ le 4 (c.cycles b.clk.delivered).toNat ++
    le 4 (c.pc % 4096 * 16 + (if c.round then 8 else 0) + c.fpflags.toNat) ++ le 8 0 ++
    ((List.range 4).map fun i => loopWord outer[i]?).flatten
  { relayId := relayId, live := r.live, ranges := r.ranges, tenant := c.tenant
    bytes := header ++ (blocks.map fun p => p.2.1).flatten ++
      (r.ranges.map fun g => b.readSram k (64 * g.1) (64 * g.2)).flatten
    odd := (blocks.filter fun p => p.2.2).map (·.1)
    overlay := c.overlay, deferred := c.deferred, finalSeen := c.finalSeen }

/-- Put the block of a LIVE bit back (R213). -/
def Coach.loadBlock (c : Coach) (odd : List Nat) (i : Nat) (bs : List Byte) : Coach :=
  if i < 6 then
    (List.range 16).foldl (fun c j => c.put (.s (16 * (i - 2) + j) (BitVec.ofNat 32 (fieldAt bs (4 * j) 4)))) c
  else if i = 6 then
    (List.range 16).foldl (fun c j => c.put (.a j (BitVec.ofNat 48 (fieldAt bs (8 * j) 6)))) c
  else if i = 7 then
    (List.range 8).foldl (fun c j => c.put (.p j (BitVec.ofNat 64 (fieldAt bs (8 * j) 8)))) c
  else if i < 24 then
    let buf : WBuf := ⟨if odd.contains i then none else some (fieldAt bs 2047 1), bs⟩
    if i < 20 then c.put (.shadow (i % 4) buf)
    else { c with wa := tabSet (i % 4) buf c.wa, waTag := tabSet (i % 4) c.tenant c.waTag }
  else if i < 56 then c.put (.v (i - 24) (lanes bs))
  else (List.range 32).foldl (fun c r => c.setAcc (i - 56) r 0 (lanes ((bs.drop (128 * r)).take 128))) c

/-- The blocks of an image, from a place in it on. -/
def Coach.loadBlocks (odd : List Nat) : List Nat → Coach → List Byte → Coach × List Byte
  | [], c, bs => (c, bs)
  | i :: is, c, bs => Coach.loadBlocks odd is (c.loadBlock odd i (bs.take (liveSize i))) (bs.drop (liveSize i))

/-- The ranges of an image, written with the task's tag (R595). -/
def Block.loadRanges (b : Block) (k : Nat) : List (Nat × Nat) → List Byte → Block
  | [], _ => b
  | g :: gs, bs => (b.writeSram k (64 * g.1) (bs.take (64 * g.2))).loadRanges k gs (bs.drop (64 * g.2))

/-- Everything of a coach that a new task finds undefined (R184, R213): contents free, tags kept. -/
def Block.undefineCoach (b : Block) (k : Nat) : Block :=
  let e := b.epoch
  let free : Tab WBuf := (List.range 4).map fun i => (i, ⟨none, []⟩)
  ((b.eraseMem (sramAddr k 0) sramEnd).modCoach k fun c => { c with
    v := [], acc := [], wa := free, ws := free, epoch := e }).nextEpoch

/-- A restore ends (R213): registers named in LIVE, ranges, header. -/
def Block.restore (b : Block) (k : Nat) (m : SaveImage) : Block :=
  let b := b.undefineCoach k
  let d := b.clk.delivered
  let h := m.bytes
  let loops := ((List.range 4).map fun i => fieldAt h (0x20 + 8 * i) 8).filter fun w => bit w 31
  let b := b.modCoach k fun c =>
    let c : Coach := { c with
      s := (List.range 63).map fun i => (i + 1, Config.freeWord c.epoch (placeS (i + 1)))
      a := (List.range 16).map fun i => (i, (Config.freeWord c.epoch (placeA i)).setWidth 48)
      p := (List.range 7).map fun i => (i + 1, (Config.freeWord c.epoch (placeP (2 * i))) ++ Config.freeWord c.epoch (placeP (2 * i + 1)))
      st := .running, pc := bits (fieldAt h 0x14 4) 15 4, round := bit (fieldAt h 0x14 4) 3
      fpflags := BitVec.ofNat 3 (fieldAt h 0x14 4)
      loops := (loops.map fun w => (⟨bits w 11 0, bits w 23 12, bits w 63 32⟩ : LoopLevel)).reverse
      cycleBase := (d : Int) - (fieldAt h 0x10 4 : Nat), stretchBase := d, remoteFrom := none, tags := []
      relayDue := false, finalSeen := m.finalSeen, deferred := m.deferred, overlay := m.overlay, image := none
      streams := [], slots := [], ready := d }
    (Coach.loadBlocks m.odd (liveBits m.live) c (h.drop 64)).1
  let used := natSum ((liveBits m.live).map liveSize)
  (b.loadRanges k m.ranges (h.drop (64 + used))).passEmpty k

/-! ### The end of a task (R210, R214) -/

/-- Codes with which a kernel that is no firmware may end (R214). -/
def tendCodeOk (v : Nat) : Bool := v == 0 || decide (0x380 ≤ v ∧ v ≤ 0x3FF)

/-- TEND issues (R214): the notice carries the code; deferred commands travel with it (R203). -/
def Block.tend (b : Block) (k : Nat) (code : Code) : Block :=
  b.modCoach k fun c => { c with st := .ending, endCode := code, endAux := 0, notice := some (.done code 0) }

/-- RELAY issues (R167, R210). -/
def Block.relayPoint (b : Block) (k : Nat) (final : Bool) (id : Nat) : Block :=
  let c := b.coach k
  if c.preempt && c.discard then
    b.modCoach k fun c => { c with st := .ending, notice := some .discarded }
  else if c.preempt && !final then
    let entry := match c.kernel with
      | some x => x.relays.getD id ⟨0, []⟩
      | none => ⟨0, []⟩
    let img := b.saveImage k id entry
    b.modCoach k fun c => { c with st := .saving, image := some img }
  else b.modCoach k fun c => { c with stretchBase := b.clk.delivered, finalSeen := c.finalSeen || final }

/-- The bundle issues (R190): an exception ends the task; a WAIT on a busy tag holds the bundle, none of whose slots has an
effect (R200); else every result is written, then the PC moves, then a RELAY or TEND acts. -/
def Block.issue (b : Block) (k : Nat) : Block :=
  let c := b.coach k
  let ws := c.bundle
  let b := b.modCoach k fun c => { c with bundle := [], bundleRelay := false, bundleExn := [], slots := [] }
  let stall := ws.findSome? fun w => match w with
    | .remoteWait on => some on
    | _ => none
  match stall with
  | some on =>
    b.modCoach k fun c => { c with remoteFrom := if on && c.remoteFrom.isNone then some b.clk.delivered else c.remoteFrom }
  | none =>
    let late := decide (65536 < c.stretch b.clk.delivered)
    let exns := (if late then [⟨4, Codes.relayOverdue⟩] else []) ++
      (if c.relayDue && !c.bundleRelay then [⟨0, Codes.relayMissing⟩] else []) ++ c.bundleExn
    match firstExn exns with
    | some e => b.raise k e
    | none =>
      let next := nextPc c ws
      let ended := c.remoteFrom.isSome
      let t := b.bundleCclk c
      let b := (ws.filter SlotWr.early).foldl (fun b w => b.put k w) b
      let b := (ws.filter fun w => !w.early && !w.store).foldl (fun b w => b.put k w) b
      let b := (ws.filter SlotWr.store).foldl (fun b w => b.put k w) b
      let b := b.modCoach k fun c => { c with
        pc := next.1 % 4096, loops := next.2, relayDue := ended, remoteFrom := none
        ready := t + bundleCost ws, streams := c.streams.filter fun s => s.openAt t
        stretchBase := match c.remoteFrom with
          | some r => c.stretchBase + ((b.clk.delivered - r : Nat) : Int)
          | none => c.stretchBase }
      (ws.foldl (fun b w => match w with
        | .relay f id => b.relayPoint k f id
        | .tend code => b.tend k code
        | _ => b) b).passEmpty k

/-! ### Slots -/

/-- The bundle at the PC issues slot `no` as this instruction (R189): where the kernel's bundles are known, the slot's word spells
it, it has not issued yet, and another slot follows exactly when the bundle has one left. -/
def Coach.issues (c : Coach) (no : Nat) (k : Slot) (i : Instr) : Bool :=
  match c.kernel with
  | none => true
  | some x =>
    x.code.isEmpty || (match x.code[c.pc]? with
      | none => false
      | some v => decodeSlot no k (slotWord v no) == some i && !c.slots.contains no &&
          k.more == (List.range 4).any fun j => j != no && !c.slots.contains j && slotWord v j != 0)

/-- A slot of a bundle (R189, R190): it reads its sources, its results and its exception join the bundle, and the last
slot issues the bundle. A coach that runs no task, or whose bundle spells another instruction, takes no slot (R146). -/
def Block.slot (b : Block) (i : Instr) (k : Slot) (no : Nat) (f : Coach → List SlotWr × Option Code) : Block :=
  let c := b.coach k.coach
  if !c.live || !c.issues no k i then b
  else
    let r := f c
    let b := b.modCoach k.coach fun c => { c with
      slots := c.slots ++ [no]
      bundle := c.bundle ++ r.1
      bundleExn := match r.2 with
        | some e => c.bundleExn ++ [⟨no, e⟩]
        | none => c.bundleExn }
    if k.more then b else b.issue k.coach

/-- A C, L or M slot: with a predicate of 0 it changes no state and raises nothing (R194). -/
def Block.slotIf (b : Block) (i : Instr) (k : Slot) (no : Nat) (f : Coach → List SlotWr × Option Code) : Block :=
  b.slot i k no fun c => if c.pred k then f c else ([], none)

/-- A slot result without exception. -/
def okW (ws : List SlotWr) : List SlotWr × Option Code := (ws, none)
/-- A slot that raises an exception. -/
def raiseW (e : Code) : List SlotWr × Option Code := ([], some e)

end Sys2Proof.Machine
end

