-- ==== Sys2Proof/Machine/CoachC.lean ====
section
/-!
DEFINITION. Machine/CoachC.lean: the C slot of a coach (R195, R196, R200, R208, R210, R211, R214): scalar arithmetic,
addresses, predicates, control flow, control registers.
-/
namespace Sys2Proof.Machine

/-- A C slot (slot number 0 of R215). -/
def Block.slotC (b : Block) (i : Instr) (k : Slot) (f : Coach → List SlotWr × Option Code) : Block := b.slotIf i k 0 f

/-- S[D] from S[A] and S[B] (format CR). -/
def Block.scalar (b : Block) (i : Instr) (k : Slot) (d x y : Nat) (f : W32 → W32 → W32) : Block :=
  b.slotC i k fun c => okW [.s d (f (c.sReg x) (c.sReg y))]

/-- ADD (R195). -/
def execAdd (k : Slot) (d a b : Nat) (s : State) : Host.Outcome State Fault Refusal :=
  s.run fun blk => blk.scalar (.add k d a b) k d a b (· + ·)

/-- SUB (R195). -/
def execSub (k : Slot) (d a b : Nat) (s : State) : Host.Outcome State Fault Refusal :=
  s.run fun blk => blk.scalar (.sub k d a b) k d a b (· - ·)

/-- AND (R195). -/
def execAnd (k : Slot) (d a b : Nat) (s : State) : Host.Outcome State Fault Refusal :=
  s.run fun blk => blk.scalar (.and k d a b) k d a b (· &&& ·)

/-- OR (R195). -/
def execOr (k : Slot) (d a b : Nat) (s : State) : Host.Outcome State Fault Refusal :=
  s.run fun blk => blk.scalar (.or k d a b) k d a b (· ||| ·)

/-- XOR (R195). -/
def execXor (k : Slot) (d a b : Nat) (s : State) : Host.Outcome State Fault Refusal :=
  s.run fun blk => blk.scalar (.xor k d a b) k d a b (· ^^^ ·)

/-- A shift by the low 6 bits of the amount (R195, R204): 0 SHL, 1 SHR, 2 SRA; an amount of 32 or more gives 0, or the
sign fill for SRA. -/
def shift32 (fn : Nat) (x amt : W32) : W32 :=
  let n := amt.toNat % 64
  if fn = 2 then x.sshiftRight n else if 32 ≤ n then 0 else if fn = 0 then x <<< n else x >>> n

/-- SHIFT (R195). -/
def execShift (k : Slot) (d a b fn : Nat) (s : State) : Host.Outcome State Fault Refusal :=
  s.run fun blk => blk.scalar (.shift k d a b fn) k d a b (shift32 fn)

/-- MUL (R195): the low 32 bits. -/
def execMul (k : Slot) (d a b : Nat) (s : State) : Host.Outcome State Fault Refusal :=
  s.run fun blk => blk.scalar (.mul k d a b) k d a b (· * ·)

/-- ADDI (R195): IMM10 is signed. -/
def execAddi (k : Slot) (d a : Nat) (imm : BitVec 10) (s : State) : Host.Outcome State Fault Refusal :=
  s.run fun blk => blk.slotC (.addi k d a imm) k fun c => okW [.s d (c.sReg a + imm.signExtend 32)]

/-- LI (R195): IMM16, sign-extended. -/
def execLi (k : Slot) (d : Nat) (imm : BitVec 16) (s : State) : Host.Outcome State Fault Refusal :=
  s.run fun blk => blk.slotC (.li k d imm) k fun _ => okW [.s d (imm.signExtend 32)]

/-- LUI (R195): the high half; the low half is kept. -/
def execLui (k : Slot) (d : Nat) (imm : BitVec 16) (s : State) : Host.Outcome State Fault Refusal :=
  s.run fun blk => blk.slotC (.lui k d imm) k fun c => okW [.s d (imm ++ (c.sReg d).setWidth 16)]

/-- A condition of CMP (R195): 0 EQ, 1 NE, 2 LT, 3 LTU, 4 GE, 5 GEU. -/
def cond32 (fn : Nat) (x y : W32) : Bool :=
  match fn with
  | 0 => x == y
  | 1 => x != y
  | 2 => x.slt y
  | 3 => x.ult y
  | 4 => !x.slt y
  | _ => !x.ult y

/-- A predicate register, all of whose bits take one value. -/
def allBits (v : Bool) : W64 := if v then BitVec.allOnes 64 else 0

/-- CMP (R195): every bit of P[D]. -/
def execCmp (k : Slot) (d a b fn : Nat) (s : State) : Host.Outcome State Fault Refusal :=
  s.run fun blk => blk.slotC (.cmp k d a b fn) k fun c => okW [.p d (allBits (cond32 fn (c.sReg a) (c.sReg b)))]

/-- An operation of PLOG (R195): 0 AND, 1 OR, 2 XOR, 3 ANDN. -/
def plog64 (fn : Nat) (x y : W64) : W64 :=
  match fn with
  | 0 => x &&& y
  | 1 => x ||| y
  | 2 => x ^^^ y
  | _ => x &&& ~~~y

/-- PLOG (R195). -/
def execPlog (k : Slot) (d a b fn : Nat) (s : State) : Host.Outcome State Fault Refusal :=
  s.run fun blk => blk.slotC (.plog k d a b fn) k fun c => okW [.p d (plog64 fn (c.pReg a) (c.pReg b))]

/-- AADD (R195): S[B] sign-extended, modulo 2^48. -/
def execAadd (k : Slot) (d a b : Nat) (s : State) : Host.Outcome State Fault Refusal :=
  s.run fun blk => blk.slotC (.aadd k d a b) k fun c => okW [.a d (c.aReg a + (c.sReg b).signExtend 48)]

/-- AADDI (R195): IMM10 × 64. -/
def execAaddi (k : Slot) (d a : Nat) (imm : BitVec 10) (s : State) : Host.Outcome State Fault Refusal :=
  s.run fun blk => blk.slotC (.aaddi k d a imm) k fun c => okW [.a d (c.aReg a + (imm.signExtend 48) * 64)]

/-- ASET (R195): S[B][15:0] over S[A]. -/
def execAset (k : Slot) (d a b : Nat) (s : State) : Host.Outcome State Fault Refusal :=
  s.run fun blk => blk.slotC (.aset k d a b) k fun c => okW [.a d ((c.sReg b).setWidth 16 ++ c.sReg a)]

/-- AGET (R195). -/
def execAget (k : Slot) (d a fn : Nat) (s : State) : Host.Outcome State Fault Refusal :=
  s.run fun blk => blk.slotC (.aget k d a fn) k fun c =>
    okW [.s d (if fn = 0 then (c.aReg a).setWidth 32 else ((c.aReg a >>> 32).setWidth 32))]

/-- BR (R192, R195): taken when the predicate holds. -/
def execBr (k : Slot) (rel : BitVec 16) (s : State) : Host.Outcome State Fault Refusal :=
  s.run fun blk => blk.slotC (.br k rel) k fun c => okW [.branch (((c.pc : Int) + rel.toInt) % 4096).toNat]

/-- LOOP (R196): a fifth level raises OPERAND_RANGE. -/
def execLoop (k : Slot) (a len : Nat) (s : State) : Host.Outcome State Fault Refusal :=
  s.run fun blk => blk.slotC (.loop k a len) k fun c =>
    if 4 ≤ c.loops.length then raiseW Codes.operandRange else okW [.loop (c.sReg a).toNat len]

/-- WAIT (R199, R200): with a tag of MASK busy the bundle does not issue, in a remote wait where a SEND or RECV holds one;
with a translation fault of a named MOVE it raises XLATE_FAULT. -/
def execWait (k : Slot) (tags : BitVec 16) (s : State) : Host.Outcome State Fault Refusal :=
  s.run fun blk => blk.slotC (.wait k tags) k fun c =>
    let named := c.tags.filter fun t => decide (t.1 < 16) && tags.getLsbD t.1
    if named.any fun t => t.2.busy then okW [.remoteWait (named.any fun t => t.2.collective)]
    else if named.any fun t => t.2.fault then raiseW Codes.xlateFault
    else okW []

/-- RELAY (R200, R210): a relay point; a busy tag raises TAG_STATE. -/
def execRelay (k : Slot) (final : Bool) (id : Nat) (s : State) : Host.Outcome State Fault Refusal :=
  s.run fun blk =>
    let takes := (blk.coach k.coach).live && (blk.coach k.coach).issues 0 k (.relay k final id)
    let blk := if takes then blk.modCoach k.coach fun c => { c with bundleRelay := true } else blk
    blk.slotC (.relay k final id) k fun c => if c.anyBusy then raiseW Codes.tagState else okW [.relay final id]

/-- RELAY_OVERDUE (R211): the stretch has passed its 65,536th counted CCLK without a RELAY. -/
def execRelayOverdue (coach : Nat) (s : State) : Host.Outcome State Fault Refusal :=
  s.run fun b =>
    let c := b.coach coach
    if c.live ∧ 65536 < c.stretch b.clk.delivered then b.raise coach ⟨4, Codes.relayOverdue⟩ else b

/-- TEND (R214): a busy tag raises TAG_STATE; a code that the kernel may not end with ends the task with TEND_CODE. -/
def execTend (k : Slot) (s : Nat) (st : State) : Host.Outcome State Fault Refusal :=
  st.run fun blk => blk.slotC (.tend k s) k fun c =>
    let v := (c.sReg s).toNat
    if c.anyBusy then raiseW Codes.tagState
    else if c.firmware || tendCodeOk v then okW [.tend (Codes.ofNat v)]
    else raiseW Codes.tendCode

/-- The value of a control register (R208). -/
def Block.csr (b : Block) (k : Nat) (n : Nat) : W32 :=
  let c := b.coach k
  match n with
  | 0 => BitVec.ofNat 32 k
  | 1 => BitVec.ofNat 32 c.tile
  | 2 => c.cycles b.clk.delivered
  | 3 => BitVec.ofNat 32 ((c.stretch b.clk.delivered).toNat % 2 ^ 17)
  | 4 => BitVec.ofNat 32 c.tagBits
  | 5 => c.fpflags.setWidth 32
  | 6 => if c.round then 1 else 0
  | _ => 0

/-- CSRR (R208). -/
def execCsrr (k : Slot) (s csr : Nat) (st : State) : Host.Outcome State Fault Refusal :=
  st.run fun blk => blk.slotC (.csrr k s csr) k fun _ => okW [.s s (blk.csr k.coach csr)]

/-- CSRW (R11, R208): CO_FPFLAGS is W1C, CO_ROUND is RW, a write of the others has no effect. -/
def execCsrw (k : Slot) (s csr : Nat) (st : State) : Host.Outcome State Fault Refusal :=
  st.run fun blk => blk.slotC (.csrw k s csr) k fun c =>
    match csr with
    | 5 => okW [.clearFlags ((c.sReg s).setWidth 3)]
    | 6 => okW [.round ((c.sReg s).getLsbD 0)]
    | _ => okW []

end Sys2Proof.Machine
end

