-- ==== Sys2Proof/Machine/CoachL.lean ====
section
/-!
DEFINITION. Machine/CoachL.lean: the L slot of a coach (R183, R185, R197 to R203): loads, stores, accumulator moves, lane
moves, and the tagged operations MOVE, UCMD, SEND and RECV.
-/
namespace Sys2Proof.Machine

/-- An L slot (slot number 1 of R215). -/
def Block.slotL (b : Block) (i : Instr) (k : Slot) (f : Coach → List SlotWr × Option Code) : Block := b.slotIf i k 1 f

/-- POST: the address register after a VLD or VST (R197). -/
def postAdd (post : Bool) (an : Nat) (c : Coach) : List SlotWr := if post then [.a an (c.aReg an + 256)] else []

/-- VLD (R197). -/
def execVld (k : Slot) (v an : Nat) (post : Bool) (off : BitVec 12) (s : State) : Host.Outcome State Fault Refusal :=
  s.run fun b => b.slotL (.vld k v an post off) k fun c =>
    match b.slotRead k.coach (offsetAddr (c.aReg an) off 256) 256 256 with
    | .error e => raiseW e
    | .ok bs => okW (.v v (lanes bs) :: postAdd post an c)

/-- VST (R197). -/
def execVst (k : Slot) (v an : Nat) (post : Bool) (off : BitVec 12) (s : State) : Host.Outcome State Fault Refusal :=
  s.run fun b => b.slotL (.vst k v an post off) k fun c =>
    let a := offsetAddr (c.aReg an) off 256
    match sramCheck a 256 256 with
    | some e => raiseW e
    | none => okW (.sram a (laneBytes (c.vReg v)) :: postAdd post an c)

/-- SLD (R197). -/
def execSld (k : Slot) (s an : Nat) (off : BitVec 12) (st : State) : Host.Outcome State Fault Refusal :=
  st.run fun b => b.slotL (.sld k s an off) k fun c =>
    match b.slotRead k.coach (offsetAddr (c.aReg an) off 4) 4 4 with
    | .error e => raiseW e
    | .ok bs => okW [.s s (BitVec.ofNat 32 (unle bs))]

/-- SST (R197). -/
def execSst (k : Slot) (s an : Nat) (off : BitVec 12) (st : State) : Host.Outcome State Fault Refusal :=
  st.run fun b => b.slotL (.sst k s an off) k fun c =>
    let a := offsetAddr (c.aReg an) off 4
    match sramCheck a 4 4 with
    | some e => raiseW e
    | none => okW [.sram a (le 4 (c.sReg s).toNat)]

/-- An accumulator element as ACCST stores it (R197, R247): the bytes and the flags. -/
def accElem (rz : Bool) (conv : Nat) (w : W32) : List Byte × BitVec 3 :=
  match conv with
  | 0 => (le 4 w.toNat, 0)
  | 1 => let r := convertLane rz 0 w
         (le 2 r.val, r.flags)
  | 2 => let r := convertLane rz 1 w
         (le 2 r.val, r.flags)
  | _ => let r := convertLane rz 2 w
         (le 1 r.val, r.flags)

/-- ACCST (R197, R247): row-major. -/
def execAccst (k : Slot) (acc an conv : Nat) (s : State) : Host.Outcome State Fault Refusal :=
  s.run fun b => b.slotL (.accst k acc an conv) k fun c =>
    let a := (c.aReg an).toNat
    let size := if conv = 0 then 4096 else if conv ≤ 2 then 2048 else 1024
    match sramCheck a size 256 with
    | some e => raiseW e
    | none =>
      let es := ((List.range 32).map fun r => (c.accRow acc r).map (accElem c.round conv)).flatten
      okW [.sram a (es.map (·.1)).flatten, .flags (orFlags (es.map (·.2)))]

/-- ACCLD (R197): 4,096 bytes of FP32. -/
def execAccld (k : Slot) (acc an conv : Nat) (s : State) : Host.Outcome State Fault Refusal :=
  s.run fun b => b.slotL (.accld k acc an conv) k fun c =>
    match b.slotRead k.coach (c.aReg an).toNat 4096 256 with
    | .error e => raiseW e
    | .ok bs => okW ((List.range 32).map fun r => .accRow acc r 0 (lanes ((bs.drop (128 * r)).take 128)))

/-- VEXT (R197). -/
def execVext (k : Slot) (s v lane : Nat) (st : State) : Host.Outcome State Fault Refusal :=
  st.run fun b => b.slotL (.vext k s v lane) k fun c => okW [.s s ((c.vReg v).getD lane 0)]

/-- VINS (R197): one lane, or with BC every lane. -/
def execVins (k : Slot) (v s lane : Nat) (bc : Bool) (st : State) : Host.Outcome State Fault Refusal :=
  st.run fun b => b.slotL (.vins k v s lane bc) k fun c =>
    let x := c.sReg s
    okW [.v v (if bc then List.replicate 64 x else (c.vReg v).set lane x)]

/-- A tag that an operation of the coach takes (R199). -/
def busyTag (kind : TagKind) (desc since : Nat) : TagSt :=
  { TagSt.new with busy := true, kind := kind, desc := desc, since := since }

/-- MOVE (R185, R198, R199). -/
def execMove (k : Slot) (tag an ab sl : Nat) (out : Bool) (s : State) : Host.Outcome State Fault Refusal :=
  s.run fun b => b.slotL (.move k tag an ab sl out) k fun c =>
    let loc := (c.aReg an).toNat
    let mem := (c.aReg ab).toNat
    let n := (c.sReg sl).toNat
    if (c.tag tag).busy then raiseW Codes.tagState
    else if loc % 64 ≠ 0 ∨ mem % 64 ≠ 0 ∨ n % 64 ≠ 0 then raiseW Codes.misaligned
    else if n < 64 ∨ 3145728 < n then raiseW Codes.operandRange
    else if sramEnd < loc + n then raiseW Codes.sramRange
    else if out && !inRanges c.ranges mem n then raiseW Codes.outputRange
    else okW [.tag tag { busyTag .move 0 b.clk.cclk with bytes := n, localAddr := loc, memAddr := mem, out := out }]

/-- Bytes of a task's memory operand: its own uncommitted writes over memory (R185). -/
def Block.taskBytes (b : Block) (k a n : Nat) : List Byte :=
  let ov := (b.coach k).overlay
  (List.range n).map fun i => (tabFind? (a + i) ov).getD (b.byteAt (a + i))

/-- MOVE_COMPLETION (R185, R199, R613): the copy takes place and its tag goes idle; a translation fault waits for the WAIT
that names the tag; a poisoned line stays poisoned in SRAM. -/
def execMoveCompletion (coach tag : Nat) (s : State) : Host.Outcome State Fault Refusal :=
  s.run fun b =>
    let c := b.coach coach
    let t := c.tag tag
    if !t.busy || t.kind != .move || c.task.isNone then b
    else
      match b.xlate c.tenant t.memAddr t.bytes with
      | none => b.modCoach coach fun c => { c with tags := tabSet tag { TagSt.new with fault := true } c.tags }
      | some a =>
        let b := b.touchV t.out t.memAddr t.bytes
        let idle := fun (b : Block) => b.modCoach coach fun c => { c with tags := tabErase tag c.tags }
        if t.out then
          let bs := b.readSram coach t.localAddr t.bytes
          idle (b.modCoach coach fun c => { c with overlay := writeCells c.overlay a bs })
        else
          let bs := b.taskBytes coach a t.bytes
          let bad := (List.range (t.bytes / 64)).filter fun i => b.poisoned (a + 64 * i) 64
          let b := idle ((b.writeSram coach t.localAddr bs).restream coach t.localAddr t.bytes b.clk.delivered)
          { b with rel := { b.rel with
              poison := b.rel.poison ++ bad.map fun i => sramAddr coach (t.localAddr + 64 * i) / 64 } }

/-- The descriptor operand of UCMD, SEND and RECV: 128 bytes in coach SRAM, aligned to 64 (R198); its 64 bytes. -/
def Block.descriptor (b : Block) (k a : Nat) : Except Code (List Byte) :=
  match b.slotRead k a 128 64 with
  | .error e => .error e
  | .ok bs => .ok (bs.take 64)

/-- UCMD (R199, R201, R203). A firmware station takes no command of another kernel (`Block.arrive`); R188 refuses a kernel that names
one (log 43). -/
def execUcmd (k : Slot) (tag an station quarter : Nat) (defer : Bool) (s : State) : Host.Outcome State Fault Refusal :=
  s.run fun b => b.slotL (.ucmd k tag an station quarter defer) k fun c =>
    let a := (c.aReg an).toNat
    if defer && (tag != 0 || !c.finalSeen || decide (8 ≤ c.deferred.length)) then raiseW Codes.deferPlace
    else if !defer && (c.tag tag).busy then raiseW Codes.tagState
    else
      match b.descriptor k.coach a with
      | .error e => raiseW e
      | .ok bs =>
        let (id, ctx, dec) := match c.task with
          | some t => (t.id, t.ctx, t.decode)
          | none => (0, 0, false)
        let cmd : UnitCmd :=
          { station := station, quarter := quarter, coach := some k.coach, tag := tag, desc := a, task := id
            tenant := c.tenant, ctx := ctx, decode := dec, firmware := c.firmware, deferred := defer
            ranges := c.ranges, bytes := bs, seq := 0 }
        okW (if defer then [.ucmd cmd] else [.tag tag (busyTag .ucmd a b.clk.cclk), .ucmd cmd])

/-- SEND and RECV (R199, R202). -/
def Block.collective (b : Block) (i : Instr) (k : Slot) (tag an : Nat) (send : Bool) : Block :=
  b.slotL i k fun c =>
    let a := (c.aReg an).toNat
    if (c.tag tag).busy then raiseW Codes.tagState
    else
      match b.descriptor k.coach a with
      | .error e => raiseW e
      | .ok bs => okW [.tag tag (busyTag (if send then .send else .recv) a b.clk.cclk), .collective tag send bs]

/-- SEND (R202). -/
def execSend (k : Slot) (tag an : Nat) (s : State) : Host.Outcome State Fault Refusal :=
  s.run fun b => b.collective (.send k tag an) k tag an true

/-- RECV (R202). -/
def execRecv (k : Slot) (tag an : Nat) (s : State) : Host.Outcome State Fault Refusal :=
  s.run fun b => b.collective (.recv k tag an) k tag an false

end Sys2Proof.Machine
end

