-- ==== Sys2Proof/Machine/CoachM.lean ====
section
/-!
DEFINITION. Machine/CoachM.lean: the M slot of a coach (R206, R207, R218 to R238, R252 to R256): weight loads, passes with
chunked accumulation, quad mode, the address generator, and accumulator moves, over the arrays of Machine/Arrays.lean.
-/
namespace Sys2Proof.Machine

/-- An M slot (slot number 3 of R215). -/
def Block.slotM (b : Block) (i : Instr) (k : Slot) (f : Coach → List SlotWr × Option Code) : Block := b.slotIf i k 3 f

/-- MLDW (R219, R220): the shadow buffer takes the tile and its format; line k is read k CCLK after the issue. -/
def execMldw (k : Slot) (ma an fmt : Nat) (s : State) : Host.Outcome State Fault Refusal :=
  s.run fun b => b.slotM (.mldw k ma an fmt) k fun c =>
    let a := (c.aReg an).toNat
    match b.slotRead k.coach a 2048 64 with
    | .error e => raiseW e
    | .ok bs =>
      let rows := (List.range 32).map fun i => (⟨i, some (a + 64 * i), 0, (bs.drop (64 * i)).take 64, []⟩ : SramRow)
      okW [.shadow ma ⟨some fmt, bs⟩, .stream
        { ma := ma, load := true, start := b.bundleCclk c, acc := 0, ch := 0, addTo := false, quad := false, fmt := fmt
          weights := [], before := [], rows := rows }]

/-! ### The address generator (R235 to R237) -/

/-- The checks of R237 on a descriptor, after its alignment. -/
def agenCheck (d : List Byte) (fmt rowb : Nat) : Option Code :=
  let w := fun i => fieldAt d (4 * i) 4
  let base := bits (w 0) 21 0
  let pix := bits (w 1) 21 0
  let line := bits (w 2) 21 0
  let inH := w 3 / 65536
  let inW := w 3 % 65536
  let outW := w 5 % 65536
  if base % 32 ≠ 0 ∨ pix % 32 ≠ 0 ∨ line % 32 ≠ 0 then some Codes.misaligned
  else if w 0 / 2 ^ 22 ≠ 0 ∨ w 1 / 2 ^ 22 ≠ 0 ∨ w 2 / 2 ^ 22 ≠ 0 ∨ w 5 / 65536 ≠ 0 ∨ !zeroAt d 0x20 32 then some Codes.badRsvd
  else if inH = 0 ∨ 4096 < inH ∨ inW = 0 ∨ 4096 < inW ∨ outW = 0 ∨ 4096 < outW ∨
      (List.range 4).any (fun i => bits (w 6) (8 * i + 7) (8 * i) == 0) ∨ isMx fmt then some Codes.operandRange
  else if sramEnd < base + (inH - 1) * line + (inW - 1) * pix + rowb then some Codes.sramRange
  else none

/-- The SRAM address of row `i`, none for a row of zeros (R236). -/
def agenRow (d : List Byte) (i : Nat) : Option Nat :=
  let w := fun i => fieldAt d (4 * i) 4
  let f := fun (v hi lo : Nat) => ((bits v hi lo : Nat) : Int)
  let outW := w 5 % 65536
  let ox : Int := f (w 4) 15 0 + ((i % outW : Nat) : Int)
  let oy : Int := f (w 4) 31 16 + ((i / outW : Nat) : Int)
  let ix := ox * f (w 6) 7 0 + f (w 7) 23 16 * f (w 6) 23 16 - f (w 7) 7 0
  let iy := oy * f (w 6) 15 8 + f (w 7) 31 24 * f (w 6) 31 24 - f (w 7) 15 8
  if ix < 0 ∨ f (w 3) 15 0 ≤ ix ∨ iy < 0 ∨ f (w 3) 31 16 ≤ iy then none
  else some ((bits (w 0) 21 0) + iy.toNat * bits (w 2) 21 0 + ix.toNat * bits (w 1) 21 0)

/-- The activation rows of a pass with their scales (R222, R236), or the code that ends the task. -/
def Block.passRows (b : Block) (k a n fmt : Nat) (quad agen : Bool) : Except Code (List SramRow) :=
  let rowb := rowBytes fmt quad
  let scb := scaleBytes fmt quad
  if agen then
    match b.slotRead k a 64 64 with
    | .error e => .error e
    | .ok d =>
      match agenCheck d fmt rowb with
      | some e => .error e
      | none =>
        let addrs := (List.range n).map (agenRow d)
        if addrs.any fun x => match x with
          | some r => b.poisoned (sramAddr k r) rowb
          | none => false then .error Codes.memPoison
        else .ok (addrs.zipIdx.map fun x => match x.1 with
          | some r => ⟨rowGap fmt * x.2, some r, 0, b.readSram k r rowb, []⟩
          | none => ⟨rowGap fmt * x.2, none, 0, List.replicate rowb 0, []⟩)
  else
    match b.slotRead k a (n * rowb + n * scb) 64 with
    | .error e => .error e
    | .ok bs => .ok ((List.range n).map fun i =>
        ⟨rowGap fmt * i, some (a + i * rowb), a + n * rowb + i * scb, (bs.drop (i * rowb)).take rowb,
          (bs.drop (n * rowb + i * scb)).take scb⟩)

/-- The accumulator rows that a pass writes, as they stand: tile, row, values (R226). -/
def Coach.passBefore (c : Coach) (acc n : Nat) (quad : Bool) : List (Nat × Nat × List W32) :=
  let tiles := min 8 (ceilDiv n 32 * (if quad then 2 else 1))
  ((List.range tiles).map fun q => (List.range 32).map fun r => ((acc + q) % 8, r, c.accRow ((acc + q) % 8) r)).flatten

/-- MPASS (R207, R222 to R237, R252 to R256): row i is read i CCLK (4i at quarter rate) after the issue, so a later store that comes
before its read is seen (R223). -/
def execMpass (k : Slot) (ma an acc sn ch : Nat) (addTo quad swap agen : Bool) (s : State) :
    Host.Outcome State Fault Refusal :=
  s.run fun b => b.slotM (.mpass k ma an acc sn ch addTo quad swap agen) k fun c =>
    let n := (c.sReg sn).toNat
    if n = 0 ∨ 256 < n then raiseW Codes.operandRange
    else
      let (fmt, w) := c.wbuf swap ma
      match b.passRows k.coach (c.aReg an).toNat n fmt quad agen with
      | .error e => raiseW e
      | .ok rows =>
        let st : SramStream :=
          { ma := ma, load := false, start := b.bundleCclk c, acc := acc, ch := ch, addTo := addTo, quad := quad, fmt := fmt
            weights := w, before := c.passBefore acc n quad, rows := rows }
        okW ((if swap then [.swap ma] else []) ++ (c.runStream { st with before := [] }).2 ++ [.stream st])

/-- MZERO (R206). -/
def execMzero (k : Slot) (tiles : BitVec 8) (s : State) : Host.Outcome State Fault Refusal :=
  s.run fun b => b.slotM (.mzero k tiles) k fun _ =>
    okW (((List.range 8).filter fun t => tiles.getLsbD t).map fun t =>
      (List.range 32).map fun r => SlotWr.accRow t r 0 (List.replicate 32 0)).flatten

/-- MACCV (R206). -/
def execMaccv (k : Slot) (acc j v : Nat) (s : State) : Host.Outcome State Fault Refusal :=
  s.run fun b => b.slotM (.maccv k acc j v) k fun c => okW [.v v (c.accRow acc (2 * j) ++ c.accRow acc (2 * j + 1))]

/-- MVACC (R206). -/
def execMvacc (k : Slot) (acc j v : Nat) (s : State) : Host.Outcome State Fault Refusal :=
  s.run fun b => b.slotM (.mvacc k acc j v) k fun c =>
    let x := c.vReg v
    okW [.accRow acc (2 * j) 0 (x.take 32), .accRow acc (2 * j + 1) 0 (x.drop 32)]

end Sys2Proof.Machine
end

