-- ==== Sys2Proof/Machine/CoachV.lean ====
section
/-!
DEFINITION. Machine/CoachV.lean: the V slot of a coach (R194, R204, R205, R245 to R251, R257 to R259): lane operations,
conversions, functions and reductions.
-/
namespace Sys2Proof.Machine

/-- A V slot (slot number 2 of R215). -/
def Block.slotV (b : Block) (i : Instr) (k : Slot) (f : Coach → List SlotWr) : Block := b.slot i k 2 fun c => okW (f c)

/-- A lane result under the predicate (R194): a lane whose bit is 0 keeps its old value and sets no flag. -/
def Coach.lanesTo (c : Coach) (k : Slot) (vd : Nat) (r : List (W32 × BitVec 3)) : List SlotWr :=
  let m := c.mask k
  let old := c.vReg vd
  let taken := r.zipIdx.filter fun p => m.getLsbD p.2
  [.v vd ((r.zipIdx.zip old).map fun p => if m.getLsbD p.1.2 then p.1.1.1 else p.2),
   .flags (orFlags (taken.map fun p => p.1.2))]

/-- Two-operand lanes of a TYPE: 0 F32, 1 I32, 2 U32 (R204). -/
def Block.lane2 (b : Block) (i : Instr) (k : Slot) (vd va vb ty : Nat) (ff : W32 → W32 → W32) (fi fu : W32 → W32 → W32) : Block :=
  b.slotV i k fun c => c.lanesTo k vd (((c.vReg va).zip (c.vReg vb)).map fun p =>
    if ty = 0 then (let r := ff p.1 p.2
                    (r, madeF32 [p.1, p.2] r))
    else if ty = 1 then (fi p.1 p.2, 0) else (fu p.1 p.2, 0))

/-- Bitwise and integer lanes, which set no flag (R251). -/
def Block.laneInt (b : Block) (i : Instr) (k : Slot) (vd va vb : Nat) (f : W32 → W32 → W32) : Block :=
  b.slotV i k fun c => c.lanesTo k vd (((c.vReg va).zip (c.vReg vb)).map fun p => (f p.1 p.2, 0))

/-- VADD (R204, R248). -/
def execVadd (k : Slot) (vd va vb ty : Nat) (s : State) : Host.Outcome State Fault Refusal :=
  s.run fun b => b.lane2 (.vadd k vd va vb ty) k vd va vb ty addF32 (· + ·) (· + ·)

/-- VSUB (R204, R248). -/
def execVsub (k : Slot) (vd va vb ty : Nat) (s : State) : Host.Outcome State Fault Refusal :=
  s.run fun b => b.lane2 (.vsub k vd va vb ty) k vd va vb ty subF32 (· - ·) (· - ·)

/-- VMUL (R204, R248): the low 32 bits for integers. -/
def execVmul (k : Slot) (vd va vb ty : Nat) (s : State) : Host.Outcome State Fault Refusal :=
  s.run fun b => b.lane2 (.vmul k vd va vb ty) k vd va vb ty mulF32 (· * ·) (· * ·)

/-- VFMA (R204, R248): VD + VA × VB with one rounding. -/
def execVfma (k : Slot) (vd va vb : Nat) (s : State) : Host.Outcome State Fault Refusal :=
  s.run fun b => b.slotV (.vfma k vd va vb) k fun c => c.lanesTo k vd (((c.vReg vd).zip ((c.vReg va).zip (c.vReg vb))).map fun p =>
    let r := fmaF32 p.1 p.2.1 p.2.2
    (r, madeF32 [p.1, p.2.1, p.2.2] r))

/-- Larger of two integers. -/
def maxI32 (x y : W32) : W32 := if x.slt y then y else x
def minI32 (x y : W32) : W32 := if y.slt x then y else x
def maxU32 (x y : W32) : W32 := if x.ult y then y else x
def minU32 (x y : W32) : W32 := if y.ult x then y else x

/-- VMAX (R204, R249). -/
def execVmax (k : Slot) (vd va vb ty : Nat) (s : State) : Host.Outcome State Fault Refusal :=
  s.run fun b => b.lane2 (.vmax k vd va vb ty) k vd va vb ty maxF32 maxI32 maxU32

/-- VMIN (R204, R249). -/
def execVmin (k : Slot) (vd va vb ty : Nat) (s : State) : Host.Outcome State Fault Refusal :=
  s.run fun b => b.lane2 (.vmin k vd va vb ty) k vd va vb ty minF32 minI32 minU32

/-- VLOGIC (R204): 0 AND, 1 OR, 2 XOR, 3 ANDN. -/
def vlogic32 (fn : Nat) (x y : W32) : W32 :=
  match fn with
  | 0 => x &&& y
  | 1 => x ||| y
  | 2 => x ^^^ y
  | _ => x &&& ~~~y

/-- VLOGIC (R204). -/
def execVlogic (k : Slot) (vd va vb fn : Nat) (s : State) : Host.Outcome State Fault Refusal :=
  s.run fun b => b.laneInt (.vlogic k vd va vb fn) k vd va vb (vlogic32 fn)

/-- VSHIFT (R204). -/
def execVshift (k : Slot) (vd va vb fn : Nat) (s : State) : Host.Outcome State Fault Refusal :=
  s.run fun b => b.laneInt (.vshift k vd va vb fn) k vd va vb (shift32 fn)

/-- Ones of a word. -/
def ones32 (w : W32) : Nat := ((List.range 32).filter fun i => w.getLsbD i).length

/-- VPOPC (R204, R243). -/
def execVpopc (k : Slot) (vd va vb : Nat) (s : State) : Host.Outcome State Fault Refusal :=
  s.run fun b => b.laneInt (.vpopc k vd va vb) k vd va vb fun x y => BitVec.ofNat 32 (ones32 (x ^^^ y))

/-- A condition of VCMP (R204, R249): 0 EQ, 1 NE, 2 LT, 3 LE, 4 GT, 5 GE; with a NaN operand only NE holds. −0 equals +0. -/
def vcond (ty cond : Nat) (x y : W32) : Bool :=
  let nan := ty == 0 && ((f32 x).isNan || (f32 y).isNan)
  let lt := if ty = 0 then (f32 x).lt (f32 y) else if ty = 1 then x.slt y else x.ult y
  let gt := if ty = 0 then (f32 y).lt (f32 x) else if ty = 1 then y.slt x else y.ult x
  if nan then cond == 1
  else match cond with
    | 0 => !lt && !gt
    | 1 => lt || gt
    | 2 => lt
    | 3 => !gt
    | 4 => gt
    | _ => !lt

/-- VCMP (R194, R204): bits of lanes whose predicate bit is 0 keep their value. -/
def execVcmp (k : Slot) (pd va vb ty cond : Nat) (s : State) : Host.Outcome State Fault Refusal :=
  s.run fun b => b.slotV (.vcmp k pd va vb ty cond) k fun c =>
    let m := c.mask k
    let r := ((c.vReg va).zip (c.vReg vb)).map fun p => vcond ty cond p.1 p.2
    let w : W64 := BitVec.ofNat 64 (natSum (r.zipIdx.map fun p => if p.1 then 2 ^ p.2 else 0))
    [.p pd ((c.pReg pd &&& ~~~m) ||| (w &&& m))]

/-- VSEL (R204). -/
def execVsel (k : Slot) (vd va vb p : Nat) (s : State) : Host.Outcome State Fault Refusal :=
  s.run fun b => b.slotV (.vsel k vd va vb p) k fun c =>
    let q := c.pReg p
    c.lanesTo k vd (((c.vReg va).zip (c.vReg vb)).zipIdx.map fun x => (if q.getLsbD x.2 then x.1.1 else x.1.2, 0))

/-- VCVT (R245, R246): rounds as CO_ROUND selects. -/
def execVcvt (k : Slot) (vd va fn : Nat) (s : State) : Host.Outcome State Fault Refusal :=
  s.run fun b => b.slotV (.vcvt k vd va fn) k fun c => c.lanesTo k vd ((c.vReg va).map fun x =>
    let r := convertLane c.round fn x
    (BitVec.ofNat 32 r.val, r.flags))

/-- A function of VFUNC (R250). -/
def vfunc32 (fn : Nat) (x : W32) : W32 :=
  match fn with
  | 0 => exp2F32 x
  | 1 => log2F32 x
  | 2 => rcpF32 x
  | _ => rsqrtF32 x

/-- VFUNC (R250). -/
def execVfunc (k : Slot) (vd va fn : Nat) (s : State) : Host.Outcome State Fault Refusal :=
  s.run fun b => b.slotV (.vfunc k vd va fn) k fun c => c.lanesTo k vd ((c.vReg va).map fun x =>
    let r := vfunc32 fn x
    (r, madeF32 [x] r))

/-- The lanes that a reduction takes (R194). -/
def Coach.taken (c : Coach) (k : Slot) (va : Nat) : List W32 :=
  let m := c.mask k
  ((c.vReg va).zipIdx.filter fun p => m.getLsbD p.2).map (·.1)

/-- The lanes of a sum, those left out as +0 (R257). -/
def Coach.sumLanes (c : Coach) (k : Slot) (va : Nat) : List W32 :=
  let m := c.mask k
  (c.vReg va).zipIdx.map fun p => if m.getLsbD p.2 then p.1 else 0

/-- VRED SUM (R257). -/
def redSum (lanes old : List W32) (addTo : Bool) : List W32 :=
  let t := treeSum lanes
  [if addTo then addF32 t (old.getD 0 0) else t]

/-- VRED MOMENTS (R258): sum, sum of squares, mean, variance, count. -/
def redMoments (lanes sq old : List W32) (n : Nat) (addTo : Bool) : List W32 :=
  let join := fun (new : W32) (i : Nat) => if addTo then addF32 (old.getD i 0) new else new
  let s := join (treeSum lanes) 0
  let q := join (treeSum sq) 1
  let cnt := join (natF32 n) 4
  if cnt.toNat % 2 ^ 31 = 0 then [0, 0, 0, 0, cnt]
  else
    let m := divF32 s cnt
    let v := subF32 (divF32 q cnt) (mulF32 m m)
    [s, q, m, maxF32 0 v, cnt]

/-- VRED MAX and MIN (R259): `start` where no lane is taken; a NaN gives the default NaN (R241, R249), be it alone. -/
def redFold (f : W32 → W32 → W32) (start : W32) (taken old : List W32) (addTo : Bool) : List W32 :=
  match taken ++ (if addTo then [old.getD 0 0] else []) with
  | [] => [start]
  | x :: xs => [(x :: xs).foldl f x]

/-- What MAX gives with no lane (R259). -/
def maxStart (ty : Nat) : W32 := if ty = 0 then 0xFF800000 else if ty = 1 then 0x80000000 else 0
/-- What MIN gives with no lane (R259). -/
def minStart (ty : Nat) : W32 := if ty = 0 then 0x7F800000 else if ty = 1 then 0x7FFFFFFF else 0xFFFFFFFF

/-- The result lanes of VRED (R205): the rest of VD becomes 0. -/
def Coach.reduce (c : Coach) (k : Slot) (vd va ty mode : Nat) (addTo : Bool) : List W32 :=
  let old := c.vReg vd
  let taken := c.taken k va
  let pick := fun (ff fi fu : W32 → W32 → W32) => if ty = 0 then ff else if ty = 1 then fi else fu
  match mode with
  | 0 => redSum (c.sumLanes k va) old addTo
  | 1 => redMoments (c.sumLanes k va) ((c.sumLanes k va).map fun x => mulF32 x x) old taken.length addTo
  | 2 => redFold (pick maxF32 maxI32 maxU32) (maxStart ty) taken old addTo
  | _ => redFold (pick minF32 minI32 minU32) (minStart ty) taken old addTo

/-- VRED (R194, R205, R257 to R259): writes its whole destination. -/
def execVred (k : Slot) (vd va ty mode : Nat) (addTo : Bool) (s : State) : Host.Outcome State Fault Refusal :=
  s.run fun b => b.slotV (.vred k vd va ty mode addTo) k fun c =>
    let r := c.reduce k vd va ty mode addTo
    -- with ADD the lanes of VD that are combined are operands too: lane 0, for MOMENTS lanes 0, 1 and 4 (R257 to R259)
    let old := if mode = 1 then [0, 1, 4] else [0]
    let ops := c.taken k va ++ (if addTo then old.map ((c.vReg vd).getD · 0) else [])
    [.v vd ((r ++ List.replicate 64 0).take 64), .flags (if ty = 0 then orFlags (r.map (madeF32 ops)) else 0)]

/-- VPERM (R204). -/
def execVperm (k : Slot) (vd va vb : Nat) (s : State) : Host.Outcome State Fault Refusal :=
  s.run fun b => b.slotV (.vperm k vd va vb) k fun c =>
    let x := c.vReg va
    c.lanesTo k vd ((c.vReg vb).map fun i => (x.getD (i.toNat % 64) 0, 0))

/-- VMOV (R204). -/
def execVmov (k : Slot) (vd va : Nat) (s : State) : Host.Outcome State Fault Refusal :=
  s.run fun b => b.slotV (.vmov k vd va) k fun c => c.lanesTo k vd ((c.vReg va).map fun x => (x, 0))

end Sys2Proof.Machine
end

