-- ==== Sys2Proof/Machine/Drays.lean ====
section
/-!
DEFINITION. Machine/Drays.lean: the dray channels (R519 to R541): what a descriptor reads and writes, its access count, its
read-back and completion.
-/
namespace Sys2Proof.Machine

/-! ### Accesses (R525, R526, R535) -/

/-- The walk of R525: accesses that write `m` bytes from `a` on; `fuel` of at least `m` ends it. -/
def accWalk : Nat → Nat → Nat → Nat
  | 0, _, _ => 0
  | fuel + 1, a, m =>
    if m = 0 then 0
    else
      let s := (([64, 32, 16, 8, 4, 2] : List Nat).find? fun s => decide (s ≤ m) && a % s == 0).getD 1
      1 + accWalk fuel (a + s) (m - s)

/-- The same count for a whole run (R525): head, whole lines, tail. -/
def accCount (a m : Nat) : Nat :=
  let h := (64 - a % 64) % 64
  if m ≤ h then accWalk 64 a m else accWalk 64 a h + (m - h) / 64 + accWalk 64 (a + m - (m - h) % 64) ((m - h) % 64)

/-- Lines that hold a byte of a rising list of regions (R526). -/
def lineCount (rs : List (Nat × Nat)) : Nat :=
  (rs.foldl (fun (st : Nat × Option Nat) r =>
    if r.2 = 0 then st
    else
      let first := r.1 / 64
      let last := (r.1 + r.2 - 1) / 64
      (st.1 + (last - first + 1) - (if st.2 = some first then 1 else 0), some last)) (0, none)).1

/-- Regions of the source in the order of its bytes: address and length. -/
def UnitCmd.drSrcRegions (c : UnitCmd) : List (Nat × Nat) :=
  match c.drOp with
  | 1 => if c.srcFix then List.replicate (c.drLen / c.drFxw) (c.drSrc, c.drFxw) else [(c.drSrc, c.drLen)]
  | 3 => (List.range c.drNch).map fun k => (c.drSrc + k * c.drStride, c.drF * c.drS)
  | 5 => (List.range c.drW).map fun k => (c.drSrc + k * c.drStride, c.drLen / c.drW)
  | _ => [(c.drSrc, c.drLen)]

/-- Regions of the destination in the order of its bytes. -/
def UnitCmd.drDstRegions (c : UnitCmd) : List (Nat × Nat) :=
  match c.drOp with
  | 1 => if c.dstFix then List.replicate (c.drLen / c.drFxw) (c.drDst, c.drFxw) else [(c.drDst, c.drLen)]
  | 2 => (List.range c.drNch).map fun k => (c.drDst + k * c.drStride, c.drF * c.drS)
  | 4 => (List.range c.drW).map fun k => (c.drDst + k * c.drStride, c.drLen / c.drW)
  | _ => [(c.drDst, c.drLen)]

/-- Access count D (R535). -/
def UnitCmd.drCount (c : UnitCmd) : Nat :=
  (if c.srcFix then c.drLen / c.drFxw else lineCount c.drSrcRegions) +
  (if c.dstFix then c.drLen / c.drFxw else natSum (c.drDstRegions.map fun r => accCount r.1 r.2))

/-! ### Reshuffles (R527, R528) -/

/-- DEINT: interleaved bytes to channel regions, one after the other. -/
def deintBytes (nch s f : Nat) (x : List Byte) : List Byte :=
  ((List.range nch).map fun c => ((List.range f).map fun i => (x.drop ((i * nch + c) * s)).take s).flatten).flatten

/-- INT: channel regions, one after the other, to interleaved bytes. -/
def intBytes (nch s f : Nat) (x : List Byte) : List Byte :=
  ((List.range f).map fun i => ((List.range nch).map fun c => (x.drop ((c * f + i) * s)).take s).flatten).flatten

/-- A byte of eight bits, bit 0 first. -/
def byteOfBits (l : List Bool) : Byte := BitVec.ofNat 8 (natSum (l.zipIdx.map fun p => if p.1 then 2 ^ p.2 else 0))

/-- PLANE_SPLIT: packed elements of `w` bits to planes, one after the other. -/
def splitBytes (w : Nat) (x : List Byte) : List Byte :=
  let v := unle x
  let e := 8 * x.length / w
  ((List.range w).map fun p =>
    (List.range (e / 8)).map fun k => byteOfBits ((List.range 8).map fun i => v.testBit ((8 * k + i) * w + p))).flatten

/-- PLANE_JOIN: planes, one after the other, to packed elements. -/
def joinBytes (w : Nat) (x : List Byte) : List Byte :=
  let v := unle x
  let e := 8 * x.length / w
  (List.range x.length).map fun k => byteOfBits ((List.range 8).map fun i =>
    let j := 8 * k + i
    v.testBit (j % w * e + j / w))

def UnitCmd.drShuffle (c : UnitCmd) (x : List Byte) : List Byte :=
  match c.drOp with
  | 2 => deintBytes c.drNch c.drS c.drF x
  | 3 => intBytes c.drNch c.drS c.drF x
  | 4 => splitBytes c.drW x
  | 5 => joinBytes c.drW x
  | _ => x

/-! ### Moving the bytes -/

/-- Source bytes of a descriptor (R522, R536, R539, R613): the host's, or the task's own view of its tenant's space. -/
def Block.draySource (b : Block) (c : UnitCmd) (data : HostRead) : Except Code (List Byte) :=
  if c.srcHost then
    match data with
    | .fault => .error Codes.dmaError
    | .ok x => .ok (fitBytes c.drLen x)
  else
    c.drSrcRegions.foldl (fun acc r => match acc with
      | .error e => .error e
      | .ok x =>
        match b.fetchTask c Codes.drXlate r.1 r.2 with
        | .error e => .error e
        | .ok y => .ok (x ++ y)) (.ok [])

/-- Free bytes for the addresses from `a` on (R9). -/
def Block.freeBytes (b : Block) (a n : Nat) : List Byte := (List.range n).map fun i => Config.freeByte b.epoch (a + i)

/-- Overlapping destination bytes of a COPY are undefined (R521). -/
def Block.copyOverlap (b : Block) (c : UnitCmd) (x : List Byte) : List Byte :=
  let sn := if c.srcFix then c.drFxw else c.drLen
  if c.drOp ≠ 1 ∨ c.srcHost ≠ c.dstHost ∨ c.drSrc = c.drDst then x
  else x.zipIdx.map fun p =>
    let a := if c.dstFix then c.drDst + p.2 % c.drFxw else c.drDst + p.2
    if c.drSrc ≤ a ∧ a < c.drSrc + sn then Config.freeByte b.epoch a else p.1

/-- Write the destination regions; none where one does not translate. -/
def Block.dstWrite (b : Block) (c : UnitCmd) : List (Nat × Nat) → List Byte → Option Block
  | [], _ => some b
  | r :: rest, x =>
    let y := x.take r.2
    if c.dstHost then (b.emit (.write r.1 y false)).dstWrite c rest (x.drop r.2)
    else
      match b.writeTask c r.1 y with
      | none => none
      | some b => b.dstWrite c rest (x.drop r.2)

/-- The bytes of a descriptor's destination are undefined (R9): every region that translates reads free. -/
def Block.freeDst (b : Block) (c : UnitCmd) : Block :=
  (c.drDstRegions.foldl (fun (b : Block) r => (b.writeTask c r.1 (b.freeBytes r.1 r.2)).getD b) b).nextEpoch

/-- The pieces of a run by 64-byte lines (R525, R526): address and length. -/
def linePieces (a m : Nat) : List (Nat × Nat) :=
  let h := min m ((64 - a % 64) % 64)
  (if h = 0 then [] else [(a, h)]) ++ (List.range (ceilDiv (m - h) 64)).map fun i => (a + h + 64 * i, min 64 (m - h - 64 * i))

/-- Bytes written in order, piece by piece, up to the first that does not translate (R540): what was written before stands. -/
def Block.writePieces (b : Block) (c : UnitCmd) : List (Nat × List Byte) → Block
  | [] => b
  | (a, x) :: rest =>
    match if c.dstHost then some (b.emit (.write a x false)) else b.writeTask c a x with
    | some b => ({ b with dr := { b.dr with byteCount := sat32 b.dr.byteCount x.length } }).writePieces c rest
    | none => b

/-- A region's bytes as line pieces. -/
def regionPieces (r : (Nat × Nat) × List Byte) : List (Nat × List Byte) :=
  (linePieces r.1.1 r.1.2).map fun p => (p.1, (r.2.drop (p.1 - r.1.1)).take p.2)

/-- A descriptor meets a translation fault at its destination: what it had written is undefined (R539); a deferred one writes nothing
further, and the writes before the fault stand (R540). -/
def Block.drayBroken (b : Block) (c : UnitCmd) (parts : List ((Nat × Nat) × List Byte)) : Block :=
  if c.deferred then b.writePieces c (parts.map regionPieces).flatten
  else if c.dstHost then b
  else b.freeDst c

/-- Source bytes up to the first line that cannot be read. -/
def Block.readPrefix (b : Block) (c : UnitCmd) : List (Nat × Nat) → List Byte
  | [] => []
  | r :: rest =>
    match b.fetchTask c Codes.drXlate r.1 r.2 with
    | .ok x => x ++ b.readPrefix c rest
    | .error _ => []

/-- A descriptor meets a fault at its source (R539, R540): a COPY, which reads and writes in address order (R532), had written what it
read before; a reshuffle had written nothing (R529). -/
def Block.draySourceBroken (b : Block) (c : UnitCmd) : Block :=
  if !c.deferred then (if c.dstHost then b else b.freeDst c)
  else if c.drOp ≠ 1 || c.srcHost then b
  else
    let x := b.readPrefix c ((c.drSrcRegions.map fun r => linePieces r.1 r.2).flatten)
    let n := if c.dstFix then x.length - x.length % max 1 c.drFxw else x.length
    let parts := if c.dstFix then (List.range (n / max 1 c.drFxw)).map fun i => ((c.drDst, c.drFxw), (x.drop (i * c.drFxw)).take c.drFxw)
      else [((c.drDst, n), x)]
    b.drayBroken c parts

/-! ### Descriptors of several channels at once (R534) -/

/-- An address lies in one of some regions. -/
def inRegions (rs : List (Nat × Nat)) (a : Nat) : Bool := rs.any fun r => decide (r.1 ≤ a) && decide (a < r.1 + r.2)

/-- Two lists of regions share a byte. -/
def regionsMeet (xs ys : List (Nat × Nat)) : Bool :=
  xs.any fun x => ys.any fun y => decide (x.1 < y.1 + y.2) && decide (y.1 < x.1 + x.2) && decide (0 < x.2) && decide (0 < y.2)

/-- The descriptors of the same tenant that run on other channels now, host sides aside (R534). -/
def Block.otherTransfers (b : Block) (ch : Nat) (c : UnitCmd) : List UnitCmd :=
  b.dr.chans.filterMap fun u => match u.2.queue, u.2.moved with
    | o :: _, some _ => if u.1 ≠ ch ∧ o.tenant = c.tenant ∧ !o.dstHost ∧ !o.srcHost ∧ !c.dstHost ∧ !c.srcHost then some o else none
    | _, _ => none

/-- Bytes of regions in order, those that another running descriptor writes being undefined (R9, R534). -/
def Block.raced (b : Block) (rs hot : List (Nat × Nat)) (x : List Byte) : List Byte :=
  if !regionsMeet rs hot then x
  else
    let addrs := (rs.map fun r => (List.range r.2).map (r.1 + ·)).flatten
    (x.zip addrs).map fun p => if inRegions hot p.2 then Config.freeByte b.epoch p.2 else p.1

/-- The running descriptor of a channel ends and leaves it. -/
def Block.drayOut (b : Block) (ch : Nat) (c : UnitCmd) (code : Code) (bytes d : Nat) : Block :=
  (b.modChan ch fun u => { u with queue := u.queue.drop 1, moved := none }).drayEnd c code bytes d

/-- Run the descriptor at the head of a channel's queue when it is of operation `op` (R534): all its accesses, the read-back
still to come. -/
def Block.drayRun (b : Block) (ch op : Nat) (data : HostRead) : Block :=
  let u := b.chan ch
  match u.queue, u.moved with
  | c :: _, none =>
    if c.drOp ≠ op then b
    else if b.fenced 9 ch then b.drayOut ch c Codes.drFenced 0 0
    else
      match b.draySource c data with
      | .error code =>
        let b := if code = Codes.dmaError then b.dmaFailed else b
        (b.draySourceBroken c).drayOut ch c code 0 0
      | .ok x =>
        let others := b.otherTransfers ch c
        let b := if c.srcHost then b else b.touched c.drSrcRegions
        let x := b.raced c.drSrcRegions (others.map fun o => o.drDstRegions).flatten x
        let y := b.copyOverlap c (c.drShuffle x)
        let y := b.raced c.drDstRegions (others.map fun o => o.drDstRegions).flatten y
        let b := (others.filter fun o => !o.dstHost && regionsMeet o.drSrcRegions c.drDstRegions).foldl
          (fun (b : Block) o => b.freeDst o) b
        match b.nextEpoch.dstWrite c c.drDstRegions y with
        | none => (b.drayBroken c (c.drDstRegions.zipIdx.map fun r => (r.1, (y.drop (r.2 * r.1.2)).take r.1.2))).drayOut ch c Codes.drXlate 0 0
        | some b =>
          let b := { b with dr := { b.dr with byteCount := sat32 b.dr.byteCount c.drLen } }
          b.modChan ch fun u => { u with moved := some (c.drLen, c.drCount) }
  | _, _ => b

/-- COPY (R521 to R526). `data` is what a host source returns. -/
def execCopy (chan : Nat) (data : HostRead) (s : State) : Host.Outcome State Fault Refusal := s.run fun b => b.drayRun chan 1 data

/-- DEINT (R527). -/
def execDeint (chan : Nat) (data : HostRead) (s : State) : Host.Outcome State Fault Refusal := s.run fun b => b.drayRun chan 2 data

/-- INT (R527). -/
def execInt (chan : Nat) (data : HostRead) (s : State) : Host.Outcome State Fault Refusal := s.run fun b => b.drayRun chan 3 data

/-- PLANE_SPLIT (R528). -/
def execPlaneSplit (chan : Nat) (data : HostRead) (s : State) : Host.Outcome State Fault Refusal :=
  s.run fun b => b.drayRun chan 4 data

/-- PLANE_JOIN (R528). -/
def execPlaneJoin (chan : Nat) (data : HostRead) (s : State) : Host.Outcome State Fault Refusal :=
  s.run fun b => b.drayRun chan 5 data

/-- DRAY_READBACK (R532, R533, R536): the read-back of the last access returned, and the descriptor completes; a host read-back
that returns UR, CA or poison ends it with DMA_ERROR. -/
def execDrayReadback (chan : Nat) (fail : Bool) (s : State) : Host.Outcome State Fault Refusal :=
  s.run fun b =>
    let u := b.chan chan
    match u.queue, u.moved with
    | c :: _, some (bytes, d) =>
      if fail && c.dstHost then
        b.dmaFailed.drayOut chan c Codes.dmaError bytes d
      else b.drayOut chan c Codes.ok bytes d
    | _, _ => b

end Sys2Proof.Machine
end

