-- ==== Sys2Proof/Machine/Fence.lean ====
section
/-!
DEFINITION. Machine/Fence.lean: what a fence does to each kind of unit (R616 to R624) and the memory loss procedure
(R623).
-/
namespace Sys2Proof.Machine

/-- Who gave a fence (R641). -/
def fenceOrigin : Issuer → Nat
  | .lead => 1
  | .pf0 => 2
  | .ostler => 3
  | .tenant _ => 2

/-- A unit enters the fenced units, in the state and in the fence record of the flash (R621); DEGRADED is set (R620)
and the Ostler logs it with its origin (R641): DATA is 2 × origin, the unfence's 2 × origin + 1; the origins are 0 bring-up, 1 the team
lead, 2 PF0, 3 the Ostler, the module's own fences among its orders (DESIGN CHOICE, assumption 129). -/
def Block.markFenced (b : Block) (u : UnitId) (origin : Nat) : Block :=
  let add := fun (l : List UnitId) => if l.contains u then l else l ++ [u]
  let b := { b with rel := { b.rel with fenced := add b.rel.fenced }, flash := { b.flash with fences := add b.flash.fences } }
  (b.attnAll attnDegraded).log 0x02 2 Codes.ok (some u) none (2 * origin)

/-- A unit leaves the fenced units (R621). -/
def Block.unmarkFenced (b : Block) (u : UnitId) (origin : Nat) : Block :=
  let del := fun (l : List UnitId) => l.filter (· != u)
  let b := { b with rel := { b.rel with fenced := del b.rel.fenced }, flash := { b.flash with fences := del b.flash.fences } }
  b.log 0x02 0 Codes.ok (some u) none (2 * origin + 1)

/-- A hard fence of a coach (R619): its task returns to its ready set in this CCLK. -/
def Block.hardFenceCoach (b : Block) (k : Nat) : Block := b.returnTask k

/-- A soft fence or a withdrawal of a coach (R619, R649): no new dispatch, its task is pre-empted at its next relay point;
a dispatch of this CCLK is withdrawn (R620). -/
def Block.softStopCoach (b : Block) (k : Nat) : Block :=
  let c := b.coach k
  match c.task with
  | none => b
  | some _ =>
    if c.st = .arriving ∧ c.dispatchCclk = b.clk.cclk then b.returnTask k
    else b.modCoach k fun c => { c with preemptSent := true }

/-- A hot-row migration is abandoned (R458, R459): a FILLING slot becomes FREE, a DRAINING slot VALID again, the ledger
empties. STATE lies in bits [41:40] of the slot's directory entry (R455). -/
def Block.abandonLane (b : Block) (q : Nat) (count : Bool) : Block :=
  let g := b.gtuQ q
  match g.lane with
  | none => b
  | some l =>
    let hot := match b.readV l.tenant (l.table + 0x30) 8 with
      | some x => unle x
      | none => 0
    let ent := hot + 64 + 16 * l.slot
    let b := match b.readV l.tenant ent 8 with
      | some x =>
        let v := unle x
        let v := v - bits v 41 40 * 2 ^ 40 + (if l.draining then 1 else 0) * 2 ^ 40
        (b.writeV l.tenant ent (le 8 v)).getD b
      | none => b
    b.modGtu q fun g => { g with
      lane := none, ledger := [], abandonCount := if count then sat32 g.abandonCount 1 else g.abandonCount }

/-- Commands running on a unit complete with UNIT_FENCED (R618). A deferred command writes no record (R203). -/
def Block.failCmds (b : Block) (cs : List UnitCmd) : Block := cs.foldl (fun b c => (b.cmdCode c Codes.unitFenced).countRefused c) b

/-- A fence of a NAND die or a flash channel starts the copy of what lies there (R508). -/
def Block.fenceFlash (b : Block) (u : UnitId) : Block :=
  if u.kind = 11 ∨ u.kind = 12 then { b with sb := { b.sb with rebuilding := true } } else b

/-- What a fence does to a unit that is not a coach or a memory unit (R618). -/
def Block.fenceUnit (b : Block) (u : UnitId) : Block :=
  let i := u.index
  match u.kind with
  | 4 =>
    -- a pass in progress starts again on the next live engine: its queries wait there again
    let e := b.engine i
    let next := ((List.range 7).map fun d => (i + 1 + d) % 8).find? fun j => !b.fenced 4 j
    match next with
    | some j =>
      let qs := (e.passes.map fun p => p.queries).flatten ++ e.waiting
      (b.modEngine i fun e => { e with passes := [], waiting := [] }).modEngine j fun e => { e with waiting := e.waiting ++ qs }
    | none => b
  | 5 => (b.failCmds (b.sluQ i).queue).modSlu i fun u => { u with queue := [] }
  | 6 =>
    let g := b.gtuQ i
    let cs := g.queue ++ (match g.wait with
      | some w => [w.cmd]
      | none => [])
    -- commands of a step that this module issued itself end the step's result with the code; another member's LOOKUP is answered
    let b := cs.foldl (fun (b : Block) (c : UnitCmd) => match c.forwarded with
      | some w => if c.at 0 1 = 1 then b.answerWork w.domain w.dest { b.resultOf w.msg Codes.unitFenced with gather := true } else b
      | none =>
      if c.coach.isSome || c.deferred then b
      else b.modCtx c.ctx fun x => { x with step := x.step.map fun st =>
        { st with wait := .task, result := some (StepResult.ofCode Codes.unitFenced) } }) b
    ((b.abandonLane i true).failCmds cs).modGtu i fun u => { u with queue := [], candidate := none, wait := none }
  | 7 => (b.failCmds (b.rnuQ i).queue).modRnu i fun u => { u with queue := [] }
  | 8 =>
    match tabFind? i b.mt.moves with
    | none => b
    | some m =>
      let e := tabFind? m.page b.mt.map
      { b with mt := { b.mt with
          moves := tabErase i b.mt.moves
          candidate := tabErase i b.mt.candidate
          map := match e with
            | some e => tabSet m.page { e with migrating := false } b.mt.map
            | none => b.mt.map
          held := b.mt.held ++ [⟨m.toHbm, i, m.newPage, b.clk.cclk⟩]
          abandonCount := sat32 b.mt.abandonCount 1 } }
  | 9 =>
    match (b.chan i).queue with
    | [] => b
    | c :: _ => ((if (b.chan i).moved.isSome || c.deferred || c.dstHost then b else b.freeDst c)).drayOut i c Codes.unitFenced 0 0
  | 11 => b.fenceFlash u
  | 12 => b.fenceFlash u
  | 13 => b.modPort i fun p => { p with state := .disabled }
  | _ => b

/-- A unit is marked fenced; an object command whose bytes move on that dray channel ends with UNIT_FENCED, and what a WRITE may have
written is undefined (R23, R479, R618). -/
def Block.fenceMove (b : Block) (u : UnitId) (origin : Nat) : Block :=
  if u.kind = 9 ∧ b.ocMoves u.index then
    let b := if b.ocOp = 2 then
        match b.liveObj? b.ocTenant b.ocObj with
        | some x => b.eraseMem (x.base + b.ocSize) b.ocLen
        | none => b
      else b
    (b.ocEnd Codes.unitFenced).markFenced u origin
  else b.markFenced u origin

/-- The memory loss procedure (R623). Every request ends, every tile task is discarded, and the module admits nothing
until a reset. -/
def Block.memoryLoss (b : Block) (u : UnitId) : Block :=
  let b := { b with rel := { b.rel with memLost := true } }
  let b := (b.attnAll attnDegraded).attnPf0 attnMgmtEvent
  let lost := b.mt.objs.filter fun o => match u.kind with
    | 2 => o.2.hbm && o.2.quarter == u.index / 2
    | _ => !o.2.hbm && o.2.quarter == u.index / 6
  -- one record for each tenant with objects in the lost part, or one without a tenant
  let ts := (lost.map fun o => o.1 / 4096).eraseDups
  let b := if ts.isEmpty then b.log 0x03 3 Codes.memLost (some u) none 0
    else ts.foldl (fun (b : Block) t =>
      b.log 0x03 3 Codes.memLost (some u) (some t) (lost.filter fun o => o.1 / 4096 == t).length) b
  let b := if b.inTeam then b.cbEmit .leave else b
  let b : Block := { b with
    tp := { b.tp with ready := [], q := 0, queues := [] }
    coaches := tabMap (fun _ (k : Coach) => k.release) b.coaches }
  b.ctxs.foldl (fun (b : Block) (c : Nat × Ctx) =>
    match c.2.req with
    | none => b
    | some r =>
      if r.finish.isSome then b
      else if r.admitted then b.stopReq c.1 Codes.memLost
      else b.endQueued c.1 Codes.memLost 0) b

/-- A fence as an order of PF0 or the Ostler, or as the module's own (R616 to R623). -/
def Block.applyFence (b : Block) (u : UnitId) (hard : Bool) (origin : Nat) : Block :=
  if u.kind = 1 then
    if hard then (b.markFenced u origin).hardFenceCoach u.index else (b.markFenced u origin).softStopCoach u.index
  else if u.kind = 2 ∨ u.kind = 3 then (b.markFenced u origin).memoryLoss u
  else (b.fenceMove u origin).fenceUnit u

/-- A test of the unit ends with a code (R659, R660), which HUB_TEST_LAST records if the test had started. -/
def Block.endTest (b : Block) (t : TestRun) (code : Code) : Block :=
  let b := { b with ost := { b.ost with
    tests := b.ost.tests.filter (· != t)
    withdrawn := if t.unit.kind = 1 ∧ !t.unfence then b.ost.withdrawn.filter (· != t.unit.index) else b.ost.withdrawn
    testLast := if t.started then BitVec.ofNat 64 (t.unit.kind * 2 ^ 32 + t.unit.index * 2 ^ 16 + code.toNat) else b.ost.testLast } }
  if t.silent then b else b.orderReply t.issuer t.tag code 0

end Sys2Proof.Machine
end

