-- ==== Sys2Proof/Machine/Reset.lean ====
section
/-!
DEFINITION. Machine/Reset.lean: power, the main resets, bring-up and the reference clock (R41, R42, R54 to R76).
-/
namespace Sys2Proof.Machine

/-! ### Main resets -/

/-- Width of scope of R61: an AO power-on is the widest main reset. -/
def ResetKind.width : ResetKind → Nat
  | .aoPowerOn => 4
  | .mainPowerOn => 3
  | .fundamental => 2
  | .warm => 1

/-- HUB_RESET_CAUSE codes of R75. -/
def causeAo : Byte := 0x01
def causeMain : Byte := 0x02
def causePerst : Byte := 0x03
def causeWarm : Byte := 0x04
def causeRefLost : Byte := 0x05
def causeShutdown : Byte := 0x06
def causeUpdate : Byte := 0x07

/-- The clock and reset block after a main reset (R61, R67, R72): bring-up starts again, a warm reset at FW_LOAD. The
sticky registers keep their value, but for the cause. A warm reset leaves the PLL locked: a member goes back to J15 (R58) by a
slew (R59), a reference that is gone stays gone (R60); a warm bring-up has no start under R66, and ELAPSED counts from the reset
(DESIGN CHOICE, assumption 110). Any other main reset unlocks the PLL, and the Ostler is back on REFCLK (R55). -/
def Clk.reset (c : Clk) (k : ResetKind) (cause : Byte) (tick : Nat) : Clk :=
  let warm := k == .warm
  { c with
    cause := cause, stage := if warm then .fwLoad else .held
    resetting := if c.mainOn then some k else none, cold := c.cold || k == .aoPowerOn
    selftestDone := false, mapDone := false, startTick := if warm then some tick else none, localReadyTick := tick
    rebuild := false, joinLate := false, journal := false, refLost := false, refNow := false
    slewing := warm && c.locked && (c.slewing || c.refSrc != 0), holdover := warm && c.holdover && c.refSrc == 0
    locked := warm && c.locked, onOclk := warm && c.onOclk, refSrc := 0, waitRef := false, resetNow := warm
    drsSent := false }

/-- Ostler registers after a main reset that keeps the Ostler's state (R61, R650, R664). -/
def Ost.mainReset (o : Ost) : Ost :=
  { o with
    logAck := 0, logSel := 0, logLost := 0, nowLink := 0, nowProg := 0, updAddr := 0, updLen := 0, calWithdraw := 4
    calDeferMs := 16, calPeriod := 256, deferCount := 0, calWindow := 0, calUsed := [], withdrawn := [], tests := []
    lbCtrl := 0, lbRefused := false, lbRefusedNow := false, lbLock := 0, lbErr := 0, lbOstlerCclk := none, testLast := 0, follower := false
    scanBusy := false, scanOp := 0, scanLen := 0, scanData := 0 }

/-- Reliability and power after a main reset; PWR_INPUT and PWR_SENSOR return to the Reset column with the readings behind them,
the shutdown hold belongs to the Ostler, and the count of shutdowns is sticky (R61, R632). -/
def Rel.mainReset (r : Rel) (k : ResetKind) (ddrPoison : List Nat) : Rel :=
  { Rel.new with
    shutTick := r.shutTick, shutHold := r.shutHold
    lastShutdown := if k == .fundamental || k == .warm then r.lastShutdown else 0, poison := ddrPoison }

/-- Security logic after a main reset (R61, R604, R608): ISOLATE is kept across a warm reset alone. An open challenge is the
Ostler's, and goes with an AO power-on; the alias key is derived again at the next FW_LOAD (R601). -/
def Sec.mainReset (s : Sec) (k : ResetKind) : Sec :=
  { Sec.new with
    isolate := s.isolate && k == .warm, drawn := s.drawn, challenge := if k == .aoPowerOn then none else s.challenge
    pufOk := s.pufOk && (k == .warm || k == .fundamental) }

/-- The strongbox keeps slots, map, wear and READ_ONLY; registers, queues and coach house images go (R61, R62, R65). -/
def Sb.mainReset (s : Sb) : Sb :=
  { Sb.new with
    readOnly := s.readOnly, spare := s.spare, erased := s.erased, slots := s.slots, counter := s.counter, turns := []
    erases := s.erases, retired := s.retired, blocks := s.blocks, nextSeq := s.nextSeq, rebuilding := s.rebuilding
    journal := s.journal, replay := s.replay }

/-- Device addresses of the DDR range (R464). -/
def inDdr (a : Nat) : Bool := decide (0x0200_0000_0000 ≤ a) && decide (a ≤ 0x043F_FFFF_FFFF)

/-- A shard across a main reset (R65): STAGING returns to LIVE at the epoch before the STAGE, whose effects are discarded. STAGE
is one row of the table, so no reset finds one half done (assumption 31). -/
def Shard.mainReset (x : Shard) : Shard :=
  { x with state := if x.state = .staging then .live else x.state, dropReply := none, advanced := none }

/-- A main reset of kind `k` (R61, R64, R65). What it ends gives no reply. -/
def Block.mainReset (b : Block) (k : ResetKind) (cause : Byte) : Block :=
  let keep := k == .warm
  let b := if b.inTeam then b.cbEmit .leave else b
  let ost := if k == .aoPowerOn then { Ost.new with events := b.ost.events } else b.ost.mainReset
  let b' : Block := { b with
    clk := b.clk.reset k cause ost.tick
    ost := ost
    rel := b.rel.mainReset k (if keep then b.rel.poison.filter fun l => inDdr (l * 64) else [])
    sec := b.sec.mainReset k
    host := { HostSt.new with out := b.host.out, readData := b.host.readData, pcie := { Pcie.new with rid := b.host.pcie.rid } }
    tp := Tp.new, store := CtxStore.new, mt := Mt.new
    ske := { Ske.new with shards := tabMap (fun _ x => x.mainReset) b.ske.shards }
    txu := Txu.new, slu := [], rnu := [], gtu := [], sb := b.sb.mainReset, dr := Dr.new
    cb := { Cb.new with out := b.cb.out, linkCycle := 0 }
    tenants := [], ctxs := [], otherQ := [], arrivals := 0, coaches := []
    mem := if keep then b.mem.filter fun c => inDdr c.1 else []
    epoch := b.epoch + 1 }
  { b' with ost := { b'.ost with
      events := b'.ost.events ++ [resetEvent b'.ost.tick 0 cause.toNat b'.ost.mainCount] } }

/-- A reset of this kind takes effect (R63): none of the same or a wider scope is in progress. A reset is in progress until its
bring-up enters READY, TEST or FAILED, the wait in TEAM_JOIN included (DESIGN CHOICE, assumption 111). -/
def Block.resetTakes (b : Block) (k : ResetKind) : Bool :=
  match b.clk.resetting with
  | some j => decide (j.width < k.width)
  | none => true

/-- A reset arrives (R63): it takes effect, or is discarded and logged. -/
def Block.resetArrives (b : Block) (k : ResetKind) (cause : Byte) : Block :=
  if b.resetTakes k then b.mainReset k cause else b.log 0x01 0 (Codes.ofNat cause.toNat) none none cause.toNat

/-- Slot writes are outstanding (R67, R503): one was accepted and its bytes lie in the write buffer, or its completion is not
reported yet. -/
def Sb.outstanding (s : Sb) : Bool :=
  s.writes.any (fun w => !w.2.isEmpty) || s.slots.any fun x => x.2.place.isNone

/-- A loss of main power: the write buffer and the journal are programmed by the hold-up energy (R503). -/
def Block.losePower (b : Block) : Block :=
  { b with
    sb := { b.sb with replay := b.sb.outstanding }
    clk := { b.clk with mainOn := false, stage := .held, resetting := none, locked := false, onOclk := false } }

/-! ### Power (R41, R42) -/

/-- STRAP_BOOT (R49): bits 5 and 4 of the sample. -/
def Block.strapBoot (b : Block) : Nat := bits b.clk.straps.toNat 5 4

/-- AO_POWER_ON (R50, R61): the always-on domain starts with new straps. While J1 stands up already, J1 was removed and restored
(DESIGN CHOICE, assumption 112). A boot strap that is not valid is logged with its value (R49), at severity SERVICE (DESIGN
CHOICE, assumption 113). -/
def execAoPowerOn (straps : BitVec 6) (s : State) : Host.Outcome State Fault Refusal :=
  s.run fun b =>
    let b := if b.clk.mainOn then b.losePower else b
    let b := { b with ost := { b.ost with events := [] } }
    let b := b.mainReset .aoPowerOn causeAo
    let b : Block := { b with
      clk := { b.clk with straps := straps, j1Up := true, onOclk := false, resetting := none }
      rel := { b.rel with shutHold := false }
      flash := { b.flash with aoCount := b.flash.aoCount + 1 } }
    if b.strapBoot = 0 then b.log 0x01 2 Codes.ok none none straps.toNat else b

/-- STRAP_SOLO (R49). -/
def Block.solo (b : Block) : Bool := bit b.clk.straps.toNat 3
/-- The module is the lead of its team (R49, R58). -/
def Block.isLead (b : Block) : Bool := b.solo || bits b.clk.straps.toNat 2 0 == 0
/-- It works alone: STRAP_SOLO, or a lead whose record names only itself (R557). -/
def Block.alone (b : Block) : Bool := b.solo || (b.isLead && b.flash.teamExpected == 1)

/-- A security event (R607). -/
def Block.secEvent (b : Block) (ev : Nat) (t : Option Nat) : Block :=
  let b := { b with sec := { b.sec with
    eventCount := sat32 b.sec.eventCount 1, lastEvent := ev, lastTenant := t.getD 0 } }
  let b := match t with
    | some t => b.attnTen attnSecurity t
    | none => b.attnPf0 attnSecurity
  b.log 0x06 1 (Codes.ofNat ev) none t ev

/-- Main conversion starts: a main power-on reset, and the device secret is reconstructed (R61, R598). -/
def Block.powerMain (b : Block) (cause : Byte) (pufOk : Bool) : Block :=
  let b := { b with
    clk := { b.clk with mainOn := true, mated := true, convTick := b.ost.tick }, rel := { b.rel with shutHold := false } }
  let b := b.mainReset .mainPowerOn cause
  let b := { b with sec := { b.sec with pufOk := pufOk } }
  if pufOk then b
  else
    let b := b.secEvent 6 none
    { b with clk := { b.clk with stage := .failed, resetting := none } }

/-- MAIN_POWER_ON (R42, R49, R75, R598): main conversion starts with J1 in range and MATE_N low, unless the boot strap is
invalid or a shutdown holds it off (R631). A device secret that cannot be reconstructed ends bring-up in FAILED. -/
def execMainPowerOn (pufOk : Bool) (s : State) : Host.Outcome State Fault Refusal :=
  s.run fun b =>
    if !b.clk.j1Up || b.clk.mainOn then b
    else if b.strapBoot = 0 || b.rel.shutHold then { b with clk := { b.clk with mated := true } }
    else b.powerMain causeMain pufOk

/-- MAIN_CONVERSION_STOP (R41, R42). Below the turn-off threshold the always-on domain stops as well. -/
def execMainConversionStop (cause : StopCause) (s : State) : Host.Outcome State Fault Refusal :=
  s.run fun b =>
    let b := if b.clk.mainOn then b.losePower else b
    match cause with
    | .inputLow => { b with clk := { b.clk with j1Up := false } }
    | .mateHigh => { b with clk := { b.clk with mated := false } }

/-- PERST_N (R61, R63): a fundamental reset. -/
def execPerstN (s : State) : Host.Outcome State Fault Refusal :=
  s.run fun b =>
    let b := { b with clk := { b.clk with perstHigh := false } }
    if b.clk.mainOn then b.resetArrives .fundamental causePerst else b

/-! ### Bring-up (R66 to R71) -/

/-- Start a stage of bring-up when the module stands in another one. -/
def Block.onStage (b : Block) (st : Stage) (f : Block → Block) : Block :=
  if b.clk.mainOn ∧ b.clk.stage = st then f b else b

/-- TICK that main conversion has to run before bring-up starts: 30 ms (R66). -/
def convWait : Nat := 15000000

/-- BRINGUP_START (R66): PERST_N is high, which this row says, and main conversion has run for 30 ms. A new update's first
bring-up counts as any other (R639 MAIN_COUNT). -/
def execBringupStart (s : State) : Host.Outcome State Fault Refusal :=
  s.run fun b => b.onStage .held fun b =>
    if b.clk.waitRef || decide (b.ost.tick < b.clk.convTick + convWait) then b
    else { b with
      clk := { b.clk with perstHigh := true, stage := .pllLock, startTick := some b.ost.tick }
      ost := { b.ost with mainCount := b.ost.mainCount + 1 } }

/-- PLL_LOCK (R55, R67, R73): the Ostler moves to OCLK. -/
def execPllLock (s : State) : Host.Outcome State Fault Refusal :=
  s.run fun b => b.onStage .pllLock fun b =>
    { b with clk := { b.clk with locked := true, onOclk := true, stage := .fwLoad } }

/-- The image area passes R599: signature, SVN, length. -/
def Block.imageOk (b : Block) (area : Nat) : Bool :=
  match tabFind? area b.flash.images with
  | some i => i.sigOk && decide (b.flash.minSvn ≤ i.svn) && decide (i.len ≤ 0x4000000)
  | none => false

/-- The image of an area, an unverifiable one where it holds none. -/
def Block.image (b : Block) (area : Nat) : Image := tabGet ⟨false, 0, 0, false, 0⟩ area b.flash.images

/-- Bring-up ends in FAILED (R69). Under the trial of an update the old roles come back and bring-up starts again on the
old image (R647). -/
def Block.bringupFailed (b : Block) : Block :=
  let b := { b with clk := { b.clk with stage := .failed, resetting := none } }
  match b.flash.oldRoles with
  | some (p, k, g) =>
    let b := b.log 0x07 2 Codes.updBad none none 0
    { b with
      flash := { b.flash with primary := p, backup := k, staging := g, oldRoles := none }
      ost := { b.ost with updState := .idle, updResult := 0x0A }
      clk := { b.clk with stage := .held, resetting := some .fundamental, locked := false, onOclk := false, startTick := none } }
  | none => b.log 0x01 2 Codes.ok none none 0xF

/-- Memory units of a mask in the layout of HUB_FENCE_MEM (R632). -/
def memUnits (m : W32) : List UnitId :=
  (List.range 32).filterMap fun i => if m.toNat.testBit i then some (if i < 8 then ⟨2, i⟩ else ⟨3, i - 8⟩) else none

/-- The kept fences and the pending memory fences apply before TRAIN (R621, R622); DEGRADED is set when some unit is
fenced. -/
def Block.applyKeptFences (b : Block) : Block :=
  let un := memUnits b.flash.pendUnfence
  let fs := (b.flash.fences.filter fun u => !un.contains u)
  let fs := fs ++ (memUnits b.flash.pendFence).filter fun u => !fs.contains u
  let b := { b with
    flash := { b.flash with fences := fs, pendFence := 0, pendUnfence := 0 }
    rel := { b.rel with fenced := fs } }
  if fs.isEmpty then b else b.attnAll attnDegraded

/-- FW_LOAD (R67, R599, R600, R647, R663): the boot ROM verifies the image that STRAP_BOOT selects; the Ostler loads the
module number (R557) and applies the kept fences. Without a device secret no bring-up passes (R598, R599). The alias key is derived from the device secret and the image's measurement (R601). -/
def execFwLoad (s : State) : Host.Outcome State Fault Refusal :=
  s.run fun b => b.onStage .fwLoad fun b =>
    let go := fun (b : Block) (area : Nat) (backup : Bool) =>
      let b := { b with
        sec := { b.sec with svn := (b.image area).svn, backup := backup, alias_ := some (b.image area).content }
        cb := { b.cb with module := b.flash.teamModule }
        clk := { b.clk with stage := .train, resetNow := false } }
      let b := if backup then (b.secEvent 1 none).attnPf0 attnMgmtEvent else b
      b.applyKeptFences
    if !b.sec.pufOk then b.bringupFailed
    else if b.strapBoot = 1 then
      if b.imageOk b.flash.primary && (b.image b.flash.primary).testImage then go b b.flash.primary false
      else b.bringupFailed
    else if b.strapBoot = 2 then
      if b.imageOk b.flash.backup then go b b.flash.backup true else b.bringupFailed
    else if b.imageOk b.flash.primary then go b b.flash.primary false
    else if b.flash.oldRoles.isSome then b.bringupFailed
    else if b.imageOk b.flash.backup then go b b.flash.backup true
    else b.bringupFailed

/-- Some HBM stack is live (R69). -/
def Block.hbmLive (b : Block) : Bool := (List.range 8).any fun i => !b.fenced 2 i

/-- R69: too few live coaches or no live HBM stack end bring-up in FAILED. -/
def Block.bringupOk (b : Block) : Bool := decide (b.tp.floor ≤ b.liveCoaches) && b.hbmLive

/-- Fence the units that failed in bring-up (R69, R621); a die or channel that failed has its stripes copied (R508). -/
def Block.fenceFailed (b : Block) (us : List UnitId) : Block :=
  us.foldl (fun (b : Block) u => (b.markFenced u 0).fenceFlash u) b

/-- TRAIN (R61, R67, R69): full after an AO power-on, else verified from the saved values; units that fail are fenced. -/
def execTrain (failed : List UnitId) (s : State) : Host.Outcome State Fault Refusal :=
  s.run fun b => b.onStage .train fun b =>
    let b := b.fenceFailed (failed.filter fun u => u.kind == 2 || u.kind == 3 || u.kind == 11 || u.kind == 12)
    let b := { b with
      flash := { b.flash with training := true }
      clk := { b.clk with cold := false, stage := .selftest
                          journal := b.sb.replay && b.clk.resetting != some .warm } }
    if b.bringupOk then b else b.bringupFailed

/-- LOCAL_READY begins when SELFTEST and MAP_LOAD have both ended (R67); engines start their turns (R288). -/
def Block.stageAfterTests (b : Block) : Block :=
  if b.clk.selftestDone && b.clk.mapDone then
    { b with
      clk := { b.clk with stage := .localReady }
      ske := { b.ske with engines := (List.range 8).map fun e =>
        (e, { Engine.new e with shared := b.ske.shared, length := b.ske.turnLen, since := b.clk.cclk }) } }
  else if b.clk.selftestDone then { b with clk := { b.clk with stage := .mapLoad } }
  else b

/-- BRINGUP_SELFTEST (R67, R69). -/
def execBringupSelftest (failed : List UnitId) (s : State) : Host.Outcome State Fault Refusal :=
  s.run fun b => b.onStage .selftest fun b =>
    let b := b.fenceFailed (failed.filter fun u => u.kind != 2 && u.kind != 3)
    let b := { b with clk := { b.clk with selftestDone := true } }
    if b.bringupOk then b.stageAfterTests else b.bringupFailed

/-- Free the slots of a shard and its entry (R276, R284): it becomes FREE. -/
def Block.freeShard (b : Block) (n : Nat) : Block :=
  { b with
    ske := { b.ske with shards := tabErase n b.ske.shards }
    sb := { b.sb with slots := b.sb.slots.filter fun x => x.2.shard != some n } }

/-- MAP_LOAD (R65, R67, R512): a checkpoint or journal that cannot be read starts the rebuild from slot headers; then the
map is read, a CLOSING shard completes its drop and the journal has been replayed. -/
def execMapLoad (checkpointOk journalOk : Bool) (s : State) : Host.Outcome State Fault Refusal :=
  s.run fun b =>
    if b.clk.mainOn ∧ (b.clk.stage = .selftest ∨ b.clk.stage = .mapLoad) ∧ !b.clk.mapDone then
      if (checkpointOk && journalOk) || b.clk.rebuild then
        let b := { b with
          clk := { b.clk with mapDone := true, rebuild := false, journal := false }
          sb := { b.sb with replay := false, journal := 0 } }
        let b := (b.ske.shards.filter fun x => x.2.state == .closing).foldl (fun b x => b.freeShard x.1) b
        b.stageAfterTests
      else { b with clk := { b.clk with rebuild := true, journal := false } }
    else b

/-- The activated update has reached LOCAL_READY (R647): the minimum SVN rises and the old roles are forgotten. -/
def Block.updateProved (b : Block) : Block :=
  match b.flash.oldRoles with
  | some _ =>
    let b := { b with
      flash := { b.flash with oldRoles := none, minSvn := b.sec.svn }
      ost := { b.ost with updState := .idle, updResult := 0 } }
    b.log 0x07 0 Codes.ok none none b.sec.svn.toNat
  | none => b

/-- Enter READY (R67, R70, R71); TEAM_CHANGE is set when a team has formed. -/
def Block.enterReady (b : Block) (team : Bool) : Block :=
  let b := { b with clk := { b.clk with stage := .ready, resetting := none } }
  if team then b.attnAll attnTeamChange else b

/-- The cage of a team port (0 to 7) or a domain port (8 to 11) holds its plugged module in low-power mode: its lanes are disabled
(R45, R46). -/
def Block.laneOff (b : Block) (cage : Nat) : Bool := (tabGet Cage.new cage b.ost.cages).lowPower

/-- The lead transmits on every team port (R70 step 2), whose disabled ones stay silent. -/
def Block.inviteAll (b : Block) (ports : List (Nat × PortState)) : Block :=
  ports.foldl (fun (b : Block) p => if p.2 == .disabled then b else b.cbEmit (.invite p.1)) b

/-- LOCAL_READY (R67, R70, R71, R663): test entry stays in TEST; a lone module enters READY; a lead invites, a member
waits in TEAM_JOIN. -/
def execLocalReady (s : State) : Host.Outcome State Fault Refusal :=
  s.run fun b => b.onStage .localReady fun b =>
    let b := b.updateProved
    let b := { b with clk := { b.clk with localReadyTick := b.ost.tick } }
    if b.strapBoot = 1 then { b with clk := { b.clk with stage := .test, resetting := none } }
    else if b.alone then
      let b := { b with cb := { b.cb with
        present := BitVec.ofNat 8 (2 ^ b.position), expected := BitVec.ofNat 8 (2 ^ b.position), size := 1, lead := true
        teamMods := [(b.position, b.flash.teamModule)] } }
      b.enterReady false
    else
      let ports := (List.range 8).map fun p =>
        (p, { Port.new with state := if b.fenced 13 p || b.laneOff p then .disabled else .training })
      let b := if b.isLead then b.inviteAll (ports.map fun p => (p.1, p.2.state)) else b
      { b with
        clk := { b.clk with stage := .teamJoin }
        cb := { b.cb with
          lead := b.isLead, inviting := b.isLead, ports := ports, present := BitVec.ofNat 8 (2 ^ b.position)
          expected := if b.isLead then b.flash.teamExpected else 0
          teamMods := [(b.position, b.flash.teamModule)] } }

/-- TEAM_JOIN (R70, R551, R556, R557, R558): members report lock. While one is missing the lead retries its invitation. It admits those that its record expects and whose
module numbers differ, sets L to the largest latency from 2 to 64 and starts the link cycles; a repeated number or an
unexpected position leaves its port MISWIRED, a latency above 64 MISFIT. -/
def execTeamJoin (reports : List MemberReport) (s : State) : Host.Outcome State Fault Refusal :=
  s.run fun b =>
    if !b.clk.mainOn || !(b.clk.stage == .teamJoin || (b.clk.stage == .ready && b.cb.broken)) || !b.isLead then b
    else
      let step := fun (b : Block) (r : MemberReport) =>
        let port := portTo b.position r.pos
        if b.fenced 13 port || b.laneOff port then b
        else if r.pos ≥ 8 || !bit b.flash.teamExpected.toNat r.pos || (b.cb.teamMods.any fun m => m.2 == r.module && m.1 != r.pos) then
          (b.modPort port fun p => { p with state := .miswired, partner := some r.pos }).log 0x08 1 Codes.ok (some ⟨13, port⟩) none r.pos
        else if 64 < r.latency || (b.cb.lockstep && b.cb.l < r.latency) then
          b.modPort port fun p => { p with state := .misfit, partner := some r.pos, latency := r.latency }
        else
          let b := b.modPort port fun p => { p with state := .up, partner := some r.pos, latency := r.latency, refHops := 1 }
          { b with cb := { b.cb with
              present := b.cb.present ||| BitVec.ofNat 8 (2 ^ r.pos), teamMods := tabSet r.pos r.module b.cb.teamMods } }
      let b := reports.foldl step b
      let lats := (b.cb.ports.filter fun p => p.2.state == .up).map fun p => p.2.latency
      let size := ((List.range 8).filter fun p => bit b.cb.expected.toNat p).length
      if b.cb.present = b.cb.expected then
        let l := if b.cb.lockstep then b.cb.l else max 2 (lats.foldl max 2)
        let b := { b with cb := { b.cb with
          l := l, size := size, lockstep := true
          linkCycle := if b.cb.lockstep then b.cb.linkCycle else 0, linkSub := if b.cb.lockstep then b.cb.linkSub else 0 } }
        b.cbEmit (.train l b.cb.expected.toNat)
      else b.inviteAll (b.cb.ports.map fun p => (p.1, p.2.state))

/-- JOIN_LATE (R71): 5,000 ms (2,500,000,000 OCLK) after the lead's own LOCAL_READY. -/
def execJoinLate (s : State) : Host.Outcome State Fault Refusal :=
  s.run fun b => b.onStage .teamJoin fun b =>
    if b.isLead ∧ b.clk.localReadyTick + 2500000000 ≤ b.ost.tick then { b with clk := { b.clk with joinLate := true } } else b

/-- The rate in tenths of GT/s at which the link trains with a partner (R77, R78): the highest that both support. -/
def trainedRate (partner : Nat) : Nat := (([640, 320, 160, 80, 50, 25] : List Nat).find? fun r => decide (r ≤ partner)).getD 25

/-- The width at which it trains. -/
def trainedWidth (partner : Nat) : Nat := (([16, 8, 4, 2, 1] : List Nat).find? fun w => decide (w ≤ partner)).getD 1

/-- DEVICE_READINESS_STATUS (R68, R78, R80): sent once when the configuration space first answers; the link has reached L0 by then,
at the highest rate and width that both sides support. -/
def execDeviceReadinessStatus (s : State) : Host.Outcome State Fault Refusal :=
  s.run fun b =>
    if b.mainUp ∧ !b.clk.drsSent then
      ({ b with
        clk := { b.clk with drsSent := true }
        host := { b.host with pcie := { b.host.pcie with
          up := true, rate := trainedRate Config.hostRate, width := trainedWidth Config.hostWidth, flit := Config.hostFlit } } }).emit
        .drs
    else b

/-- VF_ENABLE (R79, R80): one Function Readiness Status message for each of the 256 virtual functions, virtual function v with routing
identifier PF0 + v. -/
def execVfEnable (s : State) : Host.Outcome State Fault Refusal :=
  s.run fun b =>
    if b.clk.drsSent ∧ !b.host.vfEnable then
      let b := { b with host := { b.host with vfEnable := true } }
      (List.range 256).foldl (fun b v => b.emit (.frs (b.host.pcie.rid + (v + 1)))) b
    else b

/-! ### Reference (R58 to R60) -/

/-- REF_LOST (R60): the PLL holds its last frequency. The event is logged at severity WARNING (DESIGN CHOICE, assumption 114). -/
def execRefLost (s : State) : Host.Outcome State Fault Refusal :=
  s.run fun b =>
    if b.clk.locked then
      ({ b with clk := { b.clk with refLost := true, refNow := true, holdover := true } }).log 0x08 1 Codes.ok none none
        b.clk.refSrc.toNat
    else b

/-- Ports that may serve as a replacement reference: UP, partner's REF_HOPS 0 or 1, lowest first (R555). -/
def Block.refPort (b : Block) : Option Nat :=
  ((List.range 8).find? fun p => (b.port p).state == .up && decide ((b.port p).refHops ≤ 1))

/-- A member leaves its team (R60, R568, R570): it keeps only itself and returns to step 3 of R70. -/
def Block.leaveTeam (b : Block) : Block :=
  let b := b.cbEmit .leave
  let b := { b with
    cb := { b.cb with present := BitVec.ofNat 8 (2 ^ b.position), lockstep := false, lostPending := [], commits := [], broken := true }
    clk := { b.clk with stage := if b.clk.stage == Stage.ready then Stage.teamJoin else b.clk.stage } }
  b.attnAll attnTeamChange

/-- The port that faces the lead (R545, R555): T(7 − p). -/
def Block.leadPort (b : Block) : Nat := portTo b.position 0

/-- A valid reference with this REF_SRC code (R58, R60, R555): in holdover the source itself, or a replacement of a team port; on a
member that joins, the port that faces the lead. A lead and a lone module know J15 alone. -/
def Block.refValid (b : Block) (src : Nat) : Bool :=
  if b.isLead then b.clk.holdover
  else if b.clk.holdover then
    src == b.clk.refSrc.toNat || (b.clk.refSrc != 0 && decide (8 ≤ src) && b.refPort == some (src - 8))
  else b.clk.stage == .teamJoin && b.clk.refSrc == 0 && src == 8 + b.leadPort

/-- REF_RETURN (R58, R59, R60, R70): a valid reference returns or is selected; the PLL slews to it. `src` is a REF_SRC code of
R73. In stage HELD after a reset for a lost reference, J15 returns. -/
def execRefReturn (src : Nat) (s : State) : Host.Outcome State Fault Refusal :=
  s.run fun b =>
    if b.clk.waitRef then { b with clk := { b.clk with waitRef := false } }
    else if !b.clk.locked || !b.refValid src then b
    else
      let src := if b.isLead then 0 else src
      let ports := tabMap (fun p (x : Port) => { x with isRef := decide (src = p + 8) }) b.cb.ports
      { b with
        clk := { b.clk with holdover := false, slewing := true, refSrc := BitVec.ofNat 4 src }
        cb := { b.cb with ports := ports } }

/-- SLEW_COMPLETE (R59, R70 step 3): SLEWING clears; a member that joins reports lock to the lead. -/
def execSlewComplete (s : State) : Host.Outcome State Fault Refusal :=
  s.run fun b =>
    if b.clk.slewing then
      let b' := { b with clk := { b.clk with slewing := false } }
      if b.clk.stage = .teamJoin ∧ b.clk.refSrc.toNat = 8 + b.leadPort ∧ !b.isLead then
        b'.cbEmit (.lockReport b.leadPort b.cb.module)
      else b'
    else b

/-- HUB_CLK_STATUS (R11, R73): REF_LOST is W1C. -/
def execHubClkStatus (value : BitVec 64) (s : State) : Host.Outcome State Fault Refusal :=
  s.run fun b => b.hubWrite fun b =>
    if value.getLsbD 7 then
      let b := b.afterEvents b.clk.refNow
      { b with clk := { b.clk with refLost := false } }
    else b

end Sys2Proof.Machine
end

