-- ==== Sys2Proof/Machine/Store.lean ====
section
/-!
DEFINITION. Machine/Store.lean: teardown of contexts and the freeing of objects (R149, R411, R479, R480).
-/
namespace Sys2Proof.Machine

/-- Slots of a swap image (R171, R513). -/
def imageSlots (bytes : Nat) : Nat := ceilDiv bytes 4096

/-- Slots of the coach house that an image of `slots` takes: it begins a fresh stripe of 60 slots and fills whole stripes (R496, R513). -/
def imageSpan (slots : Nat) : Nat := roundUp slots 60

/-- Release the swap image of a context, and the pages of a swap-in under way (R149, R173, R513). -/
def Block.dropImage (b : Block) (n : Nat) : Block :=
  let c := b.ctx n
  let used := match c.swap with
    | .none => 0
    | .out x => imageSlots x
    | .held _ x => imageSlots x
    | .inn _ x => imageSlots x
  let b := match c.swap with
    | .inn fs _ => b.freePages (fs.map fun (f : Frame) => f.pages).flatten
    | _ => b
  ({ b with sb := { b.sb with chUsed := b.sb.chUsed - imageSpan used } }).modCtx n fun c => { c with swap := .none, swapPages := 0 }

/-- Release a context's key-value blocks without any write (R170, R426, R613): KV_LEN is kept, RECOMPUTE set. -/
def Block.dropBlocks (b : Block) (n : Nat) : Block :=
  (b.unrefAll (b.ctx n).blocks).modCtx n fun c => { c with
    blocks := [], sharedBlocks := 0, prefixShared := false, recompute := decide (0 < c.kvLen) }

/-- A frame of the context's block table or draft table holds a poisoned line (R613). -/
def Block.framesPoisoned (b : Block) (n : Nat) : Bool :=
  let c := b.ctx n
  (c.blocks ++ c.draftTable).any fun e => match b.frame e.frame with
    | some f => b.poisoned (ctxRangeBase + 64 * e.frame) (65536 * f.pages.length)
    | none => false

/-- A poisoned frame of a context (R613): RECOMPUTE, and its frames go. -/
def Block.loseFrames (b : Block) (n : Nat) : Block := (b.dropBlocks n).dropDraft n

/-- Free everything a context holds and zero its entry (R149, R411). -/
def Block.wipeCtx (b : Block) (n : Nat) : Block :=
  let c := b.ctx n
  let m := coachman n
  let sliced := match b.generator c.tenant c.gen with
    | some g => g.sliced && decide (0 < c.kvLen)
    | none => false
  let b := (((b.dropTasks n).dropImage n).dropPins n).dropFetches n
  -- the slices on other members go (R409)
  let b := if b.inTeam && sliced then b.startCommit (.blocks n c.tenant c.gen 0) true else b
  let b := (b.unrefAll c.blocks).unrefAll c.draftTable
  let cache := match c.req with
    | some r => r.cachePages
    | none => []
  let share := match c.req with
    | some r => r.share
    | none => 0
  let b := b.freePages ((c.listPages.map (·.2)).flatten ++ c.pages ++ cache)
  let b := { b with tp := { b.tp with
    q := b.tp.q - share
    queues := tabSet m ((tabGet [] m b.tp.queues).filter (· != n)) b.tp.queues } }
  let b := b.setCtx n Ctx.new
  (b.gcRoutes c.tenant).gcAdapters c.tenant

/-! ### Objects: freeing (R479, R480) -/

/-- Mask cache entries of a grammar object go (R397). -/
def Block.dropMasks (b : Block) (t o : Nat) : Block :=
  { b with rnu := tabMap (fun _ (u : Rnu) => { u with cache := u.cache.filter fun k => !(k.tenant == t && k.obj == o) }) b.rnu }

/-- Free a RELEASING object when nothing holds it (R479): its pages are free, its bytes forgotten. -/
def Block.freeObj (b : Block) (t o : Nat) : Block :=
  match b.obj? t o with
  | none => b
  | some x =>
    if x.state = .releasing ∧ b.objHolds t o = 0 ∧ (x.forced ∨ !b.objBound t o) then
      let b := b.eraseMem x.base x.size
      let b := ({ b with mt := { b.mt with objs := tabErase (t * 4096 + o) b.mt.objs } }).dropMasks t o
      -- a release invalidates a migration of the table (R459)
      (List.range 4).foldl (fun b q => match (b.gtuQ q).lane with
        | some l => if l.tenant = t ∧ l.obj = o then b.modGtu q fun g => { g with
            lane := none, ledger := [], abandonCount := sat32 g.abandonCount 1 } else b
        | none => b) b
    else b

/-- An object command of the tenant that still runs ends with MT_TENANT_OFF (R481). -/
def Block.endObjCmd (b : Block) (t : Nat) : Block :=
  if b.mt.objBusy ∧ fieldAt b.mt.objCmd 0 4 / 2 ^ 20 = t then
    { b with mt := { b.mt with objBusy := false, objCode := Codes.mtTenantOff } }
  else b

/-- Release every object of a tenant (R116, R587); those that nothing holds become FREE at once. -/
def Block.releaseObjects (b : Block) (t : Nat) : Block :=
  let b := b.endObjCmd t
  let mine := b.mt.objs.filter fun o => o.1 / 4096 == t
  let b := mine.foldl (fun b o => b.modObj t (o.1 % 4096) fun x => { x with state := .releasing, forced := true }) b
  mine.foldl (fun b o => b.freeObj t (o.1 % 4096)) b

end Sys2Proof.Machine
end

