-- ==== Sys2Proof/Machine/Host.lean ====
section
/-!
DEFINITION. Machine/Host.lean: doorbell pages and rings (R89 to R100), request records (R101 to R103), replies that wait
(R98), attention acknowledgement (R110) and function-level resets (R116 to R118).
-/
namespace Sys2Proof.Machine

/-- A page answers: the order page of PF0, or the page of an enabled tenant (R93). -/
def Block.pageOn (b : Block) (p : Nat) : Bool :=
  b.mainUp && (p == pf0Page || (decide (p < 4096) && (b.ten p).state == .on))

/-- A reset of this CCLK affects the page's registers: a warm module reset, or an FLR of the page's function (R667). -/
def Block.pageReset (b : Block) (p : Nat) : Bool :=
  b.clk.resetNow || b.host.flrNow.contains (if p = pf0Page then 0 else p / 16 + 1)

/-- Change a page that acts on writes; a write in the CCLK of a reset of the page is discarded (R667). -/
def Block.onPage (b : Block) (p : Nat) (f : Page → Page) : Block :=
  if b.pageOn p && !b.pageReset p then b.modPage p f else b

/-- Set a bit of HUB_TDB_ERR: 0 REQ_OVERRUN, 1 RPL_CI_BAD, 2 CFG_BAD, 3 DMA_FAULT (R91). -/
def Page.setErr (p : Page) (i : Nat) : Page :=
  { p with err := p.err ||| BitVec.ofNat 4 (2 ^ i), errNow := p.errNow ||| BitVec.ofNat 4 (2 ^ i) }

/-- Base and size of both rings are valid for an enable (R89, R92). -/
def Page.cfgOk (p : Page) : Bool :=
  p.reqBase.toNat % 4096 == 0 && p.rplBase.toNat % 4096 == 0 &&
  decide (6 ≤ p.reqSize.toNat) && decide (p.reqSize.toNat ≤ 16) &&
  decide (6 ≤ p.rplSize.toNat) && decide (p.rplSize.toNat ≤ 16)

/-- HUB_TDB_CTRL (R90, R92). -/
def execTdbCtrl (page : Nat) (value : BitVec 64) (s : State) : Host.Outcome State Fault Refusal :=
  s.run fun b => b.onPage page fun p =>
    if !value.getLsbD 0 then { p with enable := false }
    else if p.active || !p.cfgOk then p.setErr 2
    else { p with enable := true, reqPi := 0, reqCi := 0, rplPi := 0, rplCi := 0, phase := true, reserved := 0
                  owed := 0, waiting := [] }

/-- HUB_TDB_REQ_PI (R94). -/
def execTdbReqPi (page : Nat) (value : BitVec 64) (s : State) : Host.Outcome State Fault Refusal :=
  s.run fun b => b.onPage page fun p =>
    let v : W32 := BitVec.ofNat 32 value.toNat
    if (v - p.reqCi).toNat ≤ 2 ^ p.reqSize.toNat then { p with reqPi := v } else p.setErr 0

/-- HUB_TDB_RPL_CI (R94). -/
def execTdbRplCi (page : Nat) (value : BitVec 64) (s : State) : Host.Outcome State Fault Refusal :=
  s.run fun b => b.onPage page fun p =>
    let v : W32 := BitVec.ofNat 32 value.toNat
    if (v - p.rplCi).toNat ≤ (p.rplPi - p.rplCi).toNat then { p with rplCi := v } else p.setErr 1

/-- HUB_TDB_ATTN_ACK (R110): the set bits clear in the page's own summary; a bit that this CCLK has set is cleared in the next
one. PF0's summary is kept by FLR_PF0 (R117), so its acknowledgement acts in that CCLK too. -/
def execTdbAttnAck (page : Nat) (value : BitVec 64) (s : State) : Host.Outcome State Fault Refusal :=
  s.run fun b =>
    let v : Byte := BitVec.ofNat 8 value.toNat
    if b.pageOn page && (page == pf0Page && !b.clk.resetNow || !b.pageReset page) then
      let b := b.afterEvents (b.host.setNow page &&& v != 0)
      { b with host := { b.host with attn := tabSet page (b.host.attnOf page &&& ~~~v) b.host.attn } }
    else b

/-- HUB_TDB_ERR (R11, R91): W1C; a bit that this CCLK has set is cleared in the next one. -/
def execTdbErr (page : Nat) (value : BitVec 64) (s : State) : Host.Outcome State Fault Refusal :=
  s.run fun b =>
    let v : BitVec 4 := BitVec.ofNat 4 value.toNat
    (b.afterEvents ((b.page page).errNow &&& v != 0)).onPage page fun p => { p with err := p.err &&& ~~~v }

/-! ### Request records -/

/-- A page has a record to fetch and a reply slot to reserve for it (R95, R96). -/
def Page.fetchable (p : Page) : Bool := p.enable && p.reqPi != p.reqCi && decide (p.reserved < p.freeSlots)

/-- A page may fetch now: PF0's order page, or the tenant next in rotation (R95). -/
def Block.fetchTurn (b : Block) (page : Nat) : Bool :=
  let ok := fun p => p < 4096 && b.pageOn p && (b.page p).fetchable
  if page = pf0Page then b.pageOn page && (b.page page).fetchable
  else
    let ready := (b.host.pages.map (·.1)).filter ok
    let after := ready.filter fun p => decide (b.host.fetchLast < p)
    ((after ++ ready).head?) == some page

/-- RSVD fields of a request record by KIND (R101, R103 check 1). -/
def recordRsvd (r : List Byte) : Bool :=
  let kind := fieldAt r 0 1
  let base := bits (fieldAt r 0 4) 31 16 == 0 && bits (fieldAt r 0 4) 15 10 == 0 && bits (fieldAt r 4 4) 31 17 == 0
  base && (kind != 1 || (zeroAt r 0x12 2 && bits (fieldAt r 0x60 4) 31 17 == 0 && zeroAt r 0x70 16)) &&
  (kind != 2 || (zeroAt r 0x12 2 && zeroAt r 0x14 4))

/-- R103 check 2: KIND, BUDGET, IN_LEN, address and length pairs, CONTEXT of an order. -/
def recordOk (r : List Byte) : Bool :=
  let kind := fieldAt r 0 1
  if kind = 1 then
    fieldAt r 0x14 4 != 0 && decide (fieldAt r 0x60 4 ≤ 65536) &&
    ((fieldAt r 0x58 8 == 0) == (fieldAt r 0x60 4 == 0)) && ((fieldAt r 0x68 8 == 0) == (fieldAt r 0x64 4 == 0))
  else kind == 2 && fieldAt r 4 4 == 0

/-- The request that a ROUTE record makes (R101, R102). -/
def reqOf (r : List Byte) (now : Nat) : Req :=
  { admitted := false, queued := false, tag := BitVec.ofNat 64 (fieldAt r 8 8), queue := bit (fieldAt r 0 4) 8
    ackQueued := bit (fieldAt r 0 4) 9, routeId := fieldAt r 0x10 2, budget := fieldAt r 0x14 4
    args := (List.range 8).map fun i => BitVec.ofNat 64 (fieldAt r (0x18 + 8 * i) 8)
    inAddr := fieldAt r 0x58 8, inLen := fieldAt r 0x60 4, outAddr := fieldAt r 0x68 8, outLen := fieldAt r 0x64 4
    arrival := now, reason := 0, reservation := true, outOff := 0, qualified := none, need := Tiers.zero, share := 0
    pins := [], records := [], cachePages := [], ownLists := [], shards := [], ending := none, endingAux := 0, finish := none }

/-- REQUEST_RECORD (R95, R96, R100, R103): a fetched record is checked, then goes to its coachman or the order port. A ROUTE record
on PF0's order page, which carries orders alone, is refused with BAD_ORDER after checks 1 and 2 (DESIGN CHOICE, assumption 115).
The refusal of a record whose KIND is invalid shows CONTEXT 0 (DESIGN CHOICE, assumption 116). -/
def execRequestRecord (page : Nat) (data : HostRead) (s : State) : Host.Outcome State Fault Refusal :=
  s.run fun b =>
    if !b.fetchTurn page then b
    else
      let b := if page = pf0Page then b else { b with host := { b.host with fetchLast := page } }
      match data with
      | .fault =>
        b.dmaFailed.modPage page fun p => ({ p with enable := false }).setErr 3
      | .ok bytes =>
        let r := (bytes ++ List.replicate 128 0).take 128
        let b := b.modPage page fun p => { p with reqCi := p.reqCi + 1, reserved := p.reserved + 1, owed := p.owed + 1 }
        let kind := fieldAt r 0 1
        let n := if kind = 1 then bits (fieldAt r 4 4) 16 0 else 0
        let tag : W64 := BitVec.ofNat 64 (fieldAt r 8 8)
        if !recordRsvd r then b.refuse page n tag Codes.badRsvd 0
        else if !recordOk r then b.refuse page n tag Codes.badRecord 0
        else if kind = 2 then
          let i : Issuer := if page = pf0Page then .pf0 else .tenant page
          let o : OrderIn := ⟨i, tag, fieldAt r 0x1F 1, fieldAt r 0x18 7, r.drop 0x20⟩
          let code := fieldAt r 0x10 2
          if code = 0 ∨ 15 < code then b.orderReply i tag Codes.badOrder 0
          else { b with host := { b.host with port := b.host.port ++ [⟨code, o⟩] } }
        else if page = pf0Page then b.refuse page n tag Codes.badOrder 0
        else if !b.ownsCtx page n || (b.ctx n).state == .free then b.refuse page n tag Codes.badContext 0
        else if (b.ctx n).req.isSome then b.refuse page n tag Codes.contextBusy 0
        else b.modCtx n fun c => { c with seq := 0, req := some (reqOf r b.clk.cclk) }

/-- REPLY_SLOT_TAKEN (R98, R106): the oldest waiting reply takes a free slot; its context's wait ends once none of its
replies waits, and a last reply ends its request. -/
def execReplySlotTaken (page : Nat) (s : State) : Host.Outcome State Fault Refusal :=
  s.run fun b =>
    let p := b.page page
    match p.waiting with
    | [] => b
    | r :: rest =>
      if p.freeSlots ≤ p.reserved then b
      else
        let b := (b.modPage page fun p => { p with waiting := rest }).putReply page r
        let c := b.ctx r.ctx
        if !c.replyWait || c.tenant != page || rest.any (fun x => x.ctx == r.ctx) then b
        else
          let b := b.modCtx r.ctx fun c => { c with
            replyWait := false
            state := if c.state = CtxState.blocked then CtxState.running else c.state
            prev := if c.state = CtxState.swapped ∧ c.prev = CtxState.blocked then CtxState.running else c.prev }
          match c.req with
          | some q =>
            match q.finish with
            | some st => b.finishReq r.ctx st
            | none => b
          | none => b

/-! ### Loopbacks (R654, R655) -/

/-- Production test entry (R663). -/
def Block.testEntry (b : Block) : Bool := b.clk.stage == .test

/-- A loopback of this interface at this depth is accepted now (R654). -/
def Block.loopOk (b : Block) (kind index depth : Nat) : Bool :=
  let t := b.testEntry
  match kind with
  | 0x10 => index == 0 && [1, 2].contains depth && t
  | 0x0D => decide (index < 8) && decide (1 ≤ depth ∧ depth ≤ 5) && (b.fenced 13 index || b.solo || t)
  | 0x0E => decide (index < 4) && decide (1 ≤ depth ∧ depth ≤ 5) &&
      (b.fenced 14 index || !b.cb.domEnable.getLsbD index || t)
  | 0x0C => decide (index < 32) && [1, 2].contains depth && (b.fenced 12 index || t)
  | 0x03 => decide (index < 24) && [1, 2, 6].contains depth && t
  | 0x02 => decide (index < 8) && [1, 2, 6].contains depth && t
  | 0x11 => index == 0 && [1, 2].contains depth && t
  | _ => false

/-- The module clears RUN of HUB_LB_CTRL (R655). -/
def Block.stopLoop (b : Block) : Block :=
  { b with ost := { b.ost with lbCtrl := b.ost.lbCtrl &&& ~~~(1 : W64), lbLock := 0 } }

/-- RUN is cleared when the condition of R654 has lapsed (R655). -/
def Block.loopCheck (b : Block) : Block :=
  let n := b.ost.lbCtrl.toNat
  if bit n 0 && !b.loopOk (bits n 31 24) (bits n 23 8) (bits n 7 5) then b.stopLoop else b

/-! ### Function-level reset -/

/-- The orders of an issuer whose ring goes with a function-level reset end without a reply (R105, R116 to R118): those at the order
port are dropped, and what runs for others owes none. -/
def Block.silence (b : Block) (i : Issuer) : Block :=
  let mine := fun (o : PortOrder) => o.order.issuer == i
  { b with
    host := { b.host with
      port := b.host.port.filter fun o => !mine o, dropped := b.host.dropped ++ b.host.port.filter mine }
    ost := { b.ost with tests := b.ost.tests.map fun t => if t.issuer = i then { t with silent := true } else t }
    tenants := tabMap (fun _ (e : Tenant) => { e with
      closing := e.closing.map fun c => if c.issuer = i then { c with silent := true } else c }) b.tenants
    ctxs := tabMap (fun _ (c : Ctx) => { c with
      freeReply := match c.freeReply with
        | some (j, _) => if j = i then none else c.freeReply
        | none => none }) b.ctxs
    cb := { b.cb with commits := b.cb.commits.map fun c => match c.msg.body with
      | .order _ o => if o.issuer = i then { c with silent := true } else c
      | _ => c } }

/-- A dray channel without a tenant's descriptors: no further DMA is made for them (R116). -/
def DrChan.without (c : DrChan) (t : Nat) : DrChan :=
  { queue := c.queue.filter fun x => x.tenant != t
    moved := match c.queue with
      | x :: _ => if x.tenant = t then none else c.moved
      | [] => none }

/-- What an FLR does to one tenant (R65, R116): no reply is written for it; what is owed to other
issuers is, but to PF0 in an FLR of PF0 (R117). -/
def Block.flrTenant (b : Block) (pf0 : Bool) (t : Nat) : Block :=
  let mine := b.ctxs.filter fun c => c.2.tenant == t
  let b := mine.foldl (fun (b : Block) (c : Nat × Ctx) =>
    let b := b.wipeCtx c.1
    match c.2.freeReply with
    | some (i, tag) => if i = .tenant t ∨ (pf0 ∧ i = .pf0) then b else b.orderReply i tag Codes.ok 0
    | none => b) b
  let b := b.silence (.tenant t)
  let b : Block := { b with
    host := { b.host with pages := tabErase t b.host.pages, attn := tabSet t 0 b.host.attn }
    dr := { b.dr with chans := tabMap (fun _ (c : DrChan) => c.without t) b.dr.chans }
    ske := { b.ske with
      shards := tabMap (fun _ x => match x.dropReply with
        | some (.tenant y, _) => if y = t then { x with dropReply := none } else x
        | _ => x) b.ske.shards } }
  let b := b.modTen t fun e => { e with routes := [] }
  (b.dropTenantCaches t).releaseObjects t

/-- A function-level reset arrives: the narrowest kind of R61. During a main reset it is discarded and logged (R63). -/
def Block.onFlr (b : Block) (f : Block → Block) : Block :=
  if !b.clk.mainOn then b
  else if b.clk.resetting.isSome then b.log 0x01 0 Codes.ok none none 0
  else if b.mainUp then f b
  else b

/-- FLR (R63, R116, R118) of virtual function `vf`, 1 to 256; the function is in D0 afterwards (R77). Any reset ends a
loopback (R655). -/
def execFlr (vf : Nat) (s : State) : Host.Outcome State Fault Refusal :=
  s.run fun b => b.onFlr fun b =>
    if 1 ≤ vf ∧ vf ≤ 256 then
      let b := ((vfTenants vf).foldl (Block.flrTenant · false) b).stopLoop
      { b with host := { b.host with
          flrNow := vf :: b.host.flrNow
          pcie := { b.host.pcie with d3hot := b.host.pcie.d3hot.filter (· != vf) } } }
    else b

/-- FLR_PF0 (R63, R117): VF Enable clears, R116 applies to every virtual function, and the order page's ring registers return
to reset; PF0's attention summary is kept. -/
def execFlrPf0 (s : State) : Host.Outcome State Fault Refusal :=
  s.run fun b => b.onFlr fun b =>
    let listed := fun (b : Block) (t : Nat) =>
      b.host.pages.any (fun p => p.1 == t) || (b.ten t).state != .off || b.mt.objs.any (fun o => o.1 / 4096 == t)
    let b := ((List.range 4096).filter (listed b)).foldl (Block.flrTenant · true) b
    let b := (b.silence .pf0).stopLoop
    { b with host := { b.host with
        vfEnable := false, flrNow := List.range 257, pcie := { b.host.pcie with d3hot := [] }
        pages := tabErase pf0Page b.host.pages, attnBase := 0
        attn := [(pf0Page, b.host.attnOf pf0Page)] } }

end Sys2Proof.Machine
end

