-- ==== Sys2Proof/Machine/Routes.lean ====
section
/-!
DEFINITION. Machine/Routes.lean: route tables and ROUTE_LOAD (R119 to R124), the route steps BRANCH, REPLY, YIELD and
END (R127, R135 to R137), and the orders on contexts (R147 to R149).
-/
namespace Sys2Proof.Machine

/-- Every operand bit of an order outside the given fields (offset, width in bits) is zero (R8). -/
def opClear (o : OrderIn) (fs : List (Nat × Nat)) : Bool :=
  unle o.ops == natSum (fs.map fun f => opAt o f.1 ((f.2 + 7) / 8) % 2 ^ f.2 * 2 ^ (8 * (f.1 - 0x20)))

/-! ### Checking a route image (R121, R123, R124) -/

/-- IFLAGS bits that a valid opcode defines (R124). -/
def iflagsOf (op : Nat) : Nat := if [1, 2, 5, 6, 0xB, 0xD, 0xE, 0x10, 0x11].contains op then 1 else 0

/-- RPLMASK bits that an opcode accepts (R125). -/
def rplOf (op : Nat) : Nat := if op = 0xB ∨ op = 0xF then 15 else if op ≤ 0xB then 7 else 0

/-- Fields that R124 names for an opcode: OBJ, IMM16, IMM32, SUB, RA, RB, RD, LA, LB, LD from bit 0. -/
def namedFields (op : Nat) : Nat :=
  match op with
  | 0x01 => 0b1011010001
  | 0x02 => 0b1110000001
  | 0x03 => 0b1010001001
  | 0x04 => 0b0110000001
  | 0x05 => 0b1010000011
  | 0x06 => 0b1111101011
  | 0x07 => 0b1111101111
  | 0x08 => 0b1111000111
  | 0x09 => 0b1111000101
  | 0x0A => 0b0011000001
  | 0x0B => 0b1001001111
  | 0x0C => 0b0000000011
  | 0x0D => 0b0000000011
  | 0x0E => 0b0010000000
  | 0x0F => 0b0010000000
  | 0x10 => 0b0010111110
  | 0x11 => 0b0010010010
  | _ => 0

/-- Every field that R124 does not name for the opcode is zero. -/
def RInstr.unnamedZero (i : RInstr) : Bool :=
  let n := namedFields i.op
  ([i.obj, i.imm16, i.imm32, i.sub, i.ra, i.rb, i.rd, i.la, i.lb, i.ld].zipIdx).all fun p => n.testBit p.2 || p.1 == 0

/-- The operands lie in the ranges of R124. -/
def RInstr.inRange (i : RInstr) (count : Nat) : Bool :=
  match i.op with
  | 0x01 => i.obj != 0
  | 0x02 => i.obj != 0
  | 0x03 => i.obj != 0 && decide (i.sub ≤ 1)
  | 0x04 => i.obj != 0
  | 0x05 => i.obj != 0 && i.imm16 != 0
  | 0x06 => i.obj != 0 && i.imm16 != 0 && decide (i.sub ≤ 1)
  | 0x07 => i.obj != 0 && decide (1 ≤ i.imm16 ∧ i.imm16 ≤ 64) && decide (i.sub ≤ 1) && decide (i.imm32 < 65536) &&
      decide (1 ≤ i.imm32 % 256 ∧ i.imm32 % 256 ≤ 32) && decide (i.imm32 / 256 ≤ 64)
  | 0x08 => i.imm16 != 0 && decide (i.imm32 < 65536)
  | 0x09 => i.obj != 0 && decide (1 ≤ i.imm32 ∧ i.imm32 ≤ 1048575)
  | 0x0A => i.obj != 0
  | 0x0B => i.obj != 0 && i.imm16 != 0 && decide (i.sub ≤ 1) && decide (i.imm32 < 128) &&
      (i.sub == 0 || decide (1 ≤ i.imm32 ∧ i.imm32 ≤ 64))
  | 0x0C => if i.obj = 0 then i.imm16 == 0 else decide (1 ≤ i.imm16 ∧ i.imm16 ≤ 8)
  | 0x10 => decide (i.sub ≤ 9) && decide (i.imm16 < 64) && decide (i.imm16 < count)
  | 0x11 => decide (i.ra ≤ if bit i.iflags 0 then 14 else 12)
  | _ => true

/-- The checks of R121 on one instruction, in their order. -/
def instrCheck (v count : Nat) : Option Code :=
  let i := RInstr.ofNat v
  if bit v 51 || bit v 47 || bit v 43 || bits v 39 32 != 0 then some Codes.badRsvd
  else if i.op = 0 ∨ 0x13 < i.op then some Codes.routeInvalid
  else if 16 ≤ i.rpl ∨ i.iflags &&& (255 - iflagsOf i.op) ≠ 0 then some Codes.badRsvd
  else if !i.inRange count || !i.unnamedZero || i.rpl &&& (255 - rplOf i.op) != 0 then some Codes.routeInvalid
  else none

/-- The first instruction of a route that fails (R121), or its missing end: the code and its AUX. -/
def routeCheck (code : List (List Byte)) : Option (Code × Nat) :=
  let bad := code.zipIdx.findSome? fun p => (instrCheck (unle p.1) code.length).map fun c =>
    (c, if c = Codes.routeInvalid then p.2 else 0)
  match bad with
  | some r => some r
  | none =>
    match code.getLast? with
    | none => none
    | some x =>
      let i := RInstr.ofNat (unle x)
      if i.op = 0x13 ∨ (i.op = 0x10 ∧ i.sub = 0) then none else some (Codes.routeInvalid, code.length - 1)

/-- A tenant's route takes no new admissions any more (R122). -/
def Block.retireRoute (b : Block) (t rid : Nat) : Block :=
  (b.modTen t fun e => { e with
    routes := e.routes.map fun v => if v.routeId = rid then { v with current := false } else v }).gcRoutes t

/-- ROUTE_LOAD applied (R120 to R122). A replaced version that no context holds is freed before the new one is
charged. -/
def Block.routeLoad (b : Block) (o : OrderIn) (image : HostRead) : OrderEnd :=
  let t := o.target
  let rid := opAt o 0x20 2
  let count := opAt o 0x22 1
  let src := opAt o 0x28 8
  if !opClear o [(0x20, 16), (0x22, 8), (0x28, 64)] then b.ended Codes.badRsvd
  else if (b.ten t).state ≠ TenState.on then b.ended Codes.tenantNotOn
  else if 0x3FF < rid then b.ended Codes.badRoute
  else if 64 < count ∨ src % 16 ≠ 0 then ⟨b, some (Codes.routeInvalid, 0xFFFFFF)⟩
  else if count = 0 then
    if (b.currentRoute t rid).isNone then b.ended Codes.badRoute else (b.retireRoute t rid).ended Codes.ok
  else
    match image with
    | .fault => b.dmaFailed.ended Codes.dmaError
    | .ok bytes =>
      let code := (List.range count).map fun k => (bytes.drop (16 * k) ++ List.replicate 16 0).take 16
      match routeCheck code with
      | some (c, aux) => ⟨b, some (c, aux)⟩
      | none =>
        let ver := (tabGet 0 rid (b.ten t).routeLast + 1) % 256
        if b.routeHeldBy t rid ver then b.ended Codes.routeBusy
        else
          let b' := b.retireRoute t rid
          if (b'.ten t).quota.ddr < (b'.use t).ddr + 1024 then b.ended Codes.mtQuotaDdr
          else
            let v : RouteVersion := { routeId := rid, version := ver, current := true, code := code }
            ((b'.withNear t fun b => b.modTen t fun e => { e with
              routes := e.routes ++ [v], routeLast := tabSet rid ver e.routeLast })).ended Codes.ok

/-- ROUTE_LOAD (R119 to R122). -/
def execRouteLoad (o : OrderIn) (image : HostRead) (s : State) : Host.Outcome State Fault Refusal :=
  s.run fun b => b.gate 7 o fun b => b.routeLoad o image

/-! ### Route steps that are no compute steps -/

/-- The condition of a BRANCH (R127). -/
def Block.branchHolds (b : Block) (n : Nat) (i : RInstr) : Bool :=
  let c := b.ctx n
  let a := (c.reg i.ra).toNat
  let x := if bit i.iflags 0 then (c.reg i.rb).toNat else i.imm32
  let l := c.list i.la
  match i.sub with
  | 0 => true
  | 1 => a == x
  | 2 => a != x
  | 3 => decide (a < x)
  | 4 => decide (x ≤ a)
  | 5 => a &&& x != 0
  | 6 => a &&& x == 0
  | 7 => c.lastCode.toNat == i.imm32 % 65536
  | 8 => c.lastCode.toNat != i.imm32 % 65536
  | 9 => l.kind == 0 || l.count == 0
  | _ => false

/-- BRANCH (R127). -/
def execBranch (ctx : Nat) (s : State) : Host.Outcome State Fault Refusal :=
  s.run fun b => b.onStep ctx 0x10 fun i b =>
    b.advance ctx (if b.branchHolds ctx i then i.imm16 % 64 else (b.ctx ctx).pc + 1)

/-- Remember a qualified code for END (R136). -/
def Block.qualify (b : Block) (n : Nat) (code : Code) : Block :=
  if code = Codes.ok then b
  else b.modCtx n fun c => { c with req := c.req.map fun q => { q with qualified := some code } }

/-- REPLY (R135): one STREAM reply; with LIST, list LA is copied to the output buffer (R134). A copy's OUT_TRUNC or NO_OUTBUF is kept
as the request's qualified code and not in LAST_CODE (DESIGN CHOICE, assumption 118). -/
def execReply (ctx : Nat) (s : State) : Host.Outcome State Fault Refusal :=
  s.run fun b => b.onStep ctx 0x11 fun i b =>
    let c := b.ctx ctx
    if bit i.iflags 0 && b.listPoison ctx i.la then (b.poisonCopy ctx).commitStep ctx i (StepResult.ofCode Codes.memPoison)
    else if bit i.iflags 0 then
      let (b, off, copied, oc) := b.outCopy ctx (listUnit (c.list i.la).kind (b.listBytes ctx i.la)) (b.listBytes ctx i.la)
      let pay := le 8 (c.reg i.ra).toNat ++ le 8 (c.reg (i.ra + 1)).toNat ++ le 4 off ++ le 4 copied
      ((b.qualify ctx oc).ctxReply ctx 1 Codes.ok (decide (0 < copied)) false c.pc i.imm16 pay).1.advance ctx (c.pc + 1)
    else
      let pay := ((List.range 4).map fun k => le 8 (c.reg (i.ra + k)).toNat).flatten
      (b.ctxReply ctx 1 Codes.ok false false c.pc i.imm16 pay).1.advance ctx (c.pc + 1)

/-- YIELD (R137): the last reply carries YIELDED; the configuration and the versions held stay. -/
def execYield (ctx : Nat) (s : State) : Host.Outcome State Fault Refusal :=
  s.run fun b => b.onStep ctx 0x12 fun _ b =>
    let pc := (b.ctx ctx).pc
    let b := (b.advance ctx pc).modCtx ctx fun c => { c with yielded := true }
    (b.lastReply ctx 2 Codes.yielded 0 .idle).modCtx ctx fun c => { c with pc := pc + 1 }

/-- END (R136): class DONE with OK, or with the request's most recent qualified code. -/
def execEndRoute (ctx : Nat) (s : State) : Host.Outcome State Fault Refusal :=
  s.run fun b => b.onStep ctx 0x13 fun _ b =>
    let code := match (b.ctx ctx).req with
      | some r => r.qualified.getD Codes.ok
      | none => Codes.ok
    let b := (b.advance ctx (b.ctx ctx).pc).modCtx ctx fun c => { c with yielded := false }
    (b.lastReply ctx 2 code 0 .idle).modCtx ctx fun c => { c with pc := 0 }

/-! ### Contexts -/

/-- CONTEXT_ALLOC (R148). -/
def execContextAlloc (o : OrderIn) (s : State) : Host.Outcome State Fault Refusal :=
  s.run fun b => b.gate 9 o fun b =>
    let n := o.target
    if !opClear o ((List.range 8).map fun k => (0x20 + 8 * k, 64)) then b.ended Codes.badRsvd
    else if (b.ctx n).state ≠ .free then b.ended Codes.contextInUse
    else
      let t := match o.issuer with
        | .tenant t => t
        | _ => 0
      let c : Ctx := { Ctx.new with
        tenant := t, state := .idle
        rg := (List.range 8).map fun k => (8 + k, BitVec.ofNat 64 (opAt o (0x20 + 8 * k) 8)) }
      match (b.setCtx n c).growAux n 0 0 with
      | .done b' =>
        let text := ((b'.ctx n).pages.drop 1).headD 0 * 65536
        ((b'.modCtx n fun c => { c with blockTable := c.pages.headD 0 * 65536, textRec := text }).writeMem (ctxRangeBase + text)
          (List.replicate 1280 0)).ended Codes.ok
      | _ => b.ended Codes.mtQuotaPages

/-- A teardown begins (R149): FREEING, and the tasks go; the request ends with `code` once they are gone. -/
def Block.beginFree (b : Block) (n : Nat) (code : Code) (reply : Option (Issuer × W64)) : Block :=
  (b.dropTasks n).modCtx n fun c => { c with freeing := true, freeCode := code, freeReply := reply }

/-- CONTEXT_FREE (R149). -/
def execContextFree (o : OrderIn) (s : State) : Host.Outcome State Fault Refusal :=
  s.run fun b => b.gate 10 o fun b =>
    let c := b.ctx o.target
    if !opClear o [] then b.ended Codes.badRsvd
    else if c.state = .free ∨ c.freeing then b.ended Codes.contextNotAlloc
    else ⟨b.beginFree o.target Codes.contextFreed (some (o.issuer, o.tag)), none⟩

end Sys2Proof.Machine
end

