-- ==== Sys2Proof/Machine/Index.lean ====
section
/-!
DEFINITION. Machine/Index.lean: the passage index (R262 to R284): shard areas, tails, locators, passage records and
their slots, and SHARD_PUBLISH.
-/
namespace Sys2Proof.Machine

/-! ### Shard areas (R264 to R267) -/

/-- Element bytes of a vector format (R206 codes 0x0, 0x2, 0x6, 0x7). -/
def elemBytes (fmt : Nat) : Nat := if fmt = 6 ∨ fmt = 7 then 2 else 1

/-- Vector bytes VB. -/
def Shard.vb (x : Shard) : Nat := x.dim * elemBytes x.fmt
/-- Sketch bytes SB. -/
def sketchBytes (code : Nat) : Nat := 32 * 2 ^ code
def Shard.sb (x : Shard) : Nat := sketchBytes x.sketch

/-- Areas of R264: base, size, HBM. -/
def Shard.areas (x : Shard) : List (Nat × Nat × Bool) :=
  [(x.centroids, x.parts * x.vb, true), (x.directory, x.parts * 16, false), (x.sketches, x.capacity * x.sb, false),
   (x.tails, x.capacity * 16, false), (x.locators, x.capacity * 16, false)]

/-- Every area lies wholly in a LIVE object of the owner. -/
def Block.areasLive (b : Block) (x : Shard) : Bool :=
  x.areas.all fun a => (b.xlate x.owner a.1 a.2.1).isSome

/-- Every area lies in an object of the tier that R264 gives it. -/
def Block.areasTier (b : Block) (x : Shard) : Bool :=
  x.areas.all fun a => decide (a.1 < 2 ^ 47) && match b.liveObj? x.owner (a.1 / 2 ^ 35) with
    | some o => o.hbm == a.2.2
    | none => false

/-- Bytes of a shard area; none on a translation fault. -/
def Block.areaRead (b : Block) (x : Shard) (base off n : Nat) : List Byte := (b.readV x.owner (base + off) n).getD []

def Block.areaWrite (b : Block) (x : Shard) (base off : Nat) (bs : List Byte) : Block :=
  (b.writeV x.owner (base + off) bs).getD b

/-- A partition directory entry (R265): FIRST_ROW, CAPACITY, FILL and the RSVD bytes. -/
structure PartEnt where
  first : Nat
  cap : Nat
  fill : Nat
  rsvd : Nat
deriving DecidableEq, Repr

def Block.partEnt (b : Block) (x : Shard) (p : Nat) : PartEnt :=
  let r := b.areaRead x x.directory (16 * p) 16
  ⟨fieldAt r 0 4, fieldAt r 4 4, fieldAt r 8 4, fieldAt r 12 4⟩

/-- A tail (R266). -/
structure Tail where
  tags : W64
  birth : Nat
  death : Nat
deriving DecidableEq, Repr

def Block.tail (b : Block) (x : Shard) (row : Nat) : Tail :=
  let r := b.areaRead x x.tails (16 * row) 16
  ⟨BitVec.ofNat 64 (fieldAt r 0 8), fieldAt r 8 4, fieldAt r 12 4⟩

def Tail.bytes (t : Tail) : List Byte := le 8 t.tags.toNat ++ le 4 t.birth ++ le 4 t.death

/-- DEATH of a passage with no deletion staged, and the ROW of an index never inserted. -/
def noEpoch : Nat := 0xFFFFFFFF

/-- Visible at epoch `e` (R280). -/
def Tail.visible (t : Tail) (e : Nat) : Bool := decide (t.birth ≤ e) && decide (e < t.death)

/-- The filter of R291. -/
def Tail.passes (t : Tail) (mask : W64) (any : Bool) : Bool :=
  if any then mask == 0 || t.tags &&& mask != 0 else t.tags &&& mask == mask

/-- A locator (R267): ROW and SLOT; none where the index has never been inserted or lies beyond X. -/
def Block.locator (b : Block) (x : Shard) (idx : Nat) : Option (Nat × Nat) :=
  if x.capacity ≤ idx then none
  else
    let r := b.areaRead x x.locators (16 * idx) 16
    if fieldAt r 0 4 = noEpoch ∨ r = [] then none else some (fieldAt r 0 4, bits (fieldAt r 8 8) 39 0)

/-- A global passage identifier (R262). -/
def passageId (module shard idx : Nat) : Nat := module * 2 ^ 32 + shard * 2 ^ 26 + idx

def idModule (id : Nat) : Nat := id / 2 ^ 32
def idShard (id : Nat) : Nat := id / 2 ^ 26 % 64
def idIndex (id : Nat) : Nat := id % 2 ^ 26

/-! ### Strongbox slots (R498, R503, R512) -/

/-- Key of a tenant slot in the slot table. -/
def slotKey (t slot : Nat) : Nat := t * 2 ^ 40 + slot

def Block.slot? (b : Block) (t slot : Nat) : Option SbSlot := tabFind? (slotKey t slot) b.sb.slots

/-- The first passage slot number (R498). -/
def passageBase : Nat := 0x80_0000_0000

/-- The next passage slot number of a tenant (R498): at or above its counter, with one return to the range's base. -/
def Block.passageSlot (b : Block) (t : Nat) : Nat :=
  let c := tabGet passageBase t b.sb.counter
  let held := (b.sb.slots.filter fun x => x.1 / 2 ^ 40 == t).length
  let nth := fun k => passageBase + (c - passageBase + k) % 2 ^ 39
  (((List.range (held + 1)).map nth).find? fun s => (b.slot? t s).isNone).getD c

/-- Chunks of the map in use (R512): runs of 4,096 slot numbers that hold a slot. -/
def chunksOf : Tab SbSlot → Nat
  | [] => 0
  | [_] => 1
  | (i, _) :: (j, y) :: rest => (if i / 4096 = j / 4096 then 0 else 1) + chunksOf ((j, y) :: rest)

/-- Slots that the module holds at most (R497). -/
def slotLimit : Nat := 11718750000
/-- Map chunks (R512). -/
def chunkLimit : Nat := 3145728

/-- Chunk of a slot key (R512). -/
def Block.chunkUsed (b : Block) (chunk : Nat) : Bool := b.sb.slots.any fun x => x.1 / 4096 == chunk

/-- Chunks that writing `n` slots from a key takes anew (R512). -/
def Block.newChunks (b : Block) (key n : Nat) : Nat :=
  if n = 0 then 0
  else ((List.range ((key + n - 1) / 4096 - key / 4096 + 1)).filter fun i => !b.chunkUsed (key / 4096 + i)).length

/-- A write can be placed (R503, R511): an erased or spare block is left, a block has pages left, or one holds no held slot and
can be erased. -/
def Block.canPlace (b : Block) : Bool :=
  decide (0 < b.sb.erased) || decide (0 < b.sb.spare) ||
  b.sb.blocks.any fun x => !b.sb.retired.contains x.1 && (decide (x.2 < 1536) ||
    !b.sb.slots.any fun s => match s.2.place with
      | some p => p.die * 8192 + p.block == x.1
      | none => false)

/-- The strongbox enters READ_ONLY (R511). -/
def Block.enterReadOnly (b : Block) : Block :=
  if b.sb.readOnly then b
  else
    let b := { b with sb := { b.sb with readOnly := true } }
    (b.attnPf0 attnMgmtEvent).log 0x09 2 Codes.sbRo none none 0

/-- A write that cannot be placed makes the strongbox READ_ONLY (R511). -/
def Block.checkPlace (b : Block) : Block := if b.canPlace then b else b.enterReadOnly

/-- Write a slot into a part of the write buffer: its bytes lie there until a program turn places them (R503). -/
def Block.putSlot (b : Block) (part t slot : Nat) (shard : Option Nat) (bytes : List Byte) : Block :=
  let x : SbSlot := { data := bytes, lost := false, shard := shard, place := none, part := part, wseq := b.sb.nextSeq }
  { b with sb := { b.sb with
      slots := tabSet (slotKey t slot) x b.sb.slots, journal := b.sb.journal + 1, nextSeq := b.sb.nextSeq + 1 } }

/-- A slot is no longer held (R501, R276). -/
def Block.dropSlots (b : Block) (p : Nat → SbSlot → Bool) : Block :=
  { b with sb := { b.sb with slots := b.sb.slots.filter fun x => !p x.1 x.2, journal := b.sb.journal + 1 } }

/-! ### Passage records (R268, R269) -/

/-- The checks of R268 on a record given to STAGE. -/
def recordChecks (r : List Byte) : Bool :=
  let w0 := fieldAt r 0 4
  let w4 := fieldAt r 4 4
  let w20 := fieldAt r 0x20 4
  bits w0 19 1 == 0 && decide (bits w4 31 16 ≤ 512) && decide (bits w4 15 0 ≤ 32) && bits w20 31 11 == 0 &&
  decide (bits w20 10 0 ≤ 1216) && zeroAt r 0x24 28

/-- The record that STAGE writes (R269, R279). -/
def recordOf (r : List Byte) (t id tags birth : Nat) : List Byte :=
  let r := (r ++ List.replicate 4096 0).take 4096
  putField (putField (putField (putField (putField r 0 4 (t * 2 ^ 20)) 8 8 id) 0x10 8 tags) 0x18 4 birth) 0x1C 4 noEpoch

/-- A record as a step gets it (R269): DEATH from the tail, TOMBSTONE set when a deletion is staged. -/
def deliver (r : List Byte) (death : Nat) : List Byte :=
  let w0 := fieldAt r 0 4
  let w0 := if death = noEpoch then w0 / 2 * 2 else w0 / 2 * 2 + 1
  putField (putField r 0 4 w0) 0x1C 4 death

/-! ### SHARD_PUBLISH (R275 to R279) -/

def Block.setShard (b : Block) (n : Nat) (x : Shard) : Block :=
  { b with ske := { b.ske with shards := tabSet n x b.ske.shards } }

/-- State code of a shard in the directory and in SKE_SHARD. -/
def ShardState.code : ShardState → Nat
  | .live => 1
  | .staging => 2
  | .closing => 3

/-- The directory entry of a shard of this module (R578); a FREE one has state 0. -/
def Block.dirEntry (b : Block) (n : Nat) : DirEntry :=
  match b.shard? n with
  | some x =>
    { module := b.cb.module, shard := n, state := x.state.code, epoch := x.epoch, owner := (b.ten x.owner).dtid
      readers := x.readers.map fun t => (b.ten t).dtid }
  | none => { module := b.cb.module, shard := n, state := 0, epoch := 0, owner := 0, readers := [] }

/-- The domain lead takes an entry into its directory: it holds every shard that is not FREE (R578). -/
def Block.dirPut (b : Block) (e : DirEntry) : Block :=
  let k := e.module * 64 + e.shard
  { b with cb := { b.cb with
      directory := if e.state = 0 then tabErase k b.cb.directory else tabSet k e b.cb.directory } }

/-- Report a shard to the domain lead (R578). -/
def Block.reportShard (b : Block) (n : Nat) : Block :=
  let e := b.dirEntry n
  if b.cb.domEnable = 0 then b
  else if b.cb.domLead = b.cb.module then b.dirPut e
  else b.domSend b.cb.domLead (.dirReport b.cb.domLead e)

/-- Report every shard again (R578). -/
def Block.reportAll (b : Block) : Block := b.ske.shards.foldl (fun (b : Block) x => b.reportShard x.1) b

/-- A SHARD_PUBLISH mode has been applied: the shard's new descriptor, and its report (R578). -/
def Block.pubShard (b : Block) (n : Nat) (x : Shard) : Block := (b.setShard n x).reportShard n

/-- A request holds the shard (R284). -/
def Block.shardHeld (b : Block) (n : Nat) : Bool :=
  (b.ctxs.any fun c => match c.2.req with
    | some r => r.shards.contains n
    | none => false) || b.ske.remote.any fun r => r.2.2.1 == n

/-- The issuing tenant of a SHARD_PUBLISH. -/
def issuerTenant (o : OrderIn) : Nat :=
  match o.issuer with
  | .tenant t => t
  | _ => 0

/-- A MODE of SHARD_PUBLISH applies to its own row. -/
def publish (mode : Nat) (o : OrderIn) (f : Block → OrderEnd) (b : Block) : Block :=
  if opAt o 0x20 1 = mode ∨ (mode = 1 ∧ (opAt o 0x20 1 = 0 ∨ 4 < opAt o 0x20 1)) then b.gate 11 o f else b

/-- Row ranges of the directory lie below X and do not overlap, and every FILL is 0 (R276). -/
def directoryOk (x : Shard) (es : List PartEnt) : Bool :=
  let spans := sortBy (fun p q => decide (p.1 ≤ q.1)) ((es.filter fun e => e.cap != 0).map fun e => (e.first, e.cap))
  es.all (fun e => e.fill == 0) && spans.all (fun p => decide (p.1 + p.2 ≤ x.capacity)) &&
  (spans.zip (spans.drop 1)).all fun p => decide (p.1.1 + p.1.2 ≤ p.2.1)

/-- SHARD_PUBLISH CREATE (R275, R276). -/
def execShardCreate (o : OrderIn) (s : State) : Host.Outcome State Fault Refusal :=
  s.run <| publish 1 o fun b =>
    let n := o.target
    let x : Shard :=
      { state := .live, owner := issuerTenant o, epoch := 0, readers := [], fmt := opAt o 0x21 1, dim := opAt o 0x22 2
        sketch := opAt o 0x24 1, parts := opAt o 0x28 4, capacity := opAt o 0x2C 4, centroids := opAt o 0x30 8
        directory := opAt o 0x38 8, sketches := opAt o 0x40 8, tails := opAt o 0x48 8, locators := opAt o 0x50 8
        dropReply := none }
    if !opClear o ([(0x20, 8), (0x21, 8), (0x22, 16), (0x24, 8), (0x28, 32), (0x2C, 32)] ++
        (List.range 5).map fun k => (0x30 + 8 * k, 64)) then b.ended Codes.badRsvd
    else if (b.shard? n).isSome then b.ended Codes.shardInUse
    else if !([0, 2, 6, 7].contains x.fmt) || x.dim < 32 || 1024 < x.dim || x.dim % 32 != 0 || decide (1024 < x.vb) ||
        decide (2 < x.sketch) || x.parts == 0 || decide (65536 < x.parts) || x.capacity == 0 ||
        decide (67108864 < x.capacity) || x.areas.any (fun a => a.1 % 4096 != 0) || !b.areasTier x ||
        !b.areasLive x || !directoryOk x ((List.range x.parts).map (b.partEnt x)) then b.ended Codes.shardBad
    else
      let fill := (List.range x.capacity).foldl (fun b k => b.areaWrite x x.locators (16 * k) (le 4 noEpoch)) b
      (fill.pubShard n x).ended Codes.ok

/-- A validated entry of a stage list (R277): INSERT with index, partition, tags, record and sketch, or DELETE. -/
inductive StageEnt
  | insert (idx part tags : Nat) (record sketch : List Byte)
  | delete (idx : Nat)
deriving DecidableEq, Repr

/-- Outcome of validating a stage list (R278). -/
inductive StageCheck
  | bad (i : Nat)
  | dma
  | fine (es : List StageEnt)
deriving DecidableEq, Repr

/-- RSVD bytes and fields that the entry's KIND does not use are zero (R277). -/
def stageRsvd (e : List Byte) : Bool :=
  zeroAt e 1 3 && zeroAt e 0x0A 6 && zeroAt e 0x28 24 && (fieldAt e 0 1 != 2 || zeroAt e 8 0x20)

/-- Validate a stage list in order (R278). -/
def Block.stageCheck (b : Block) (x : Shard) : Nat → List (List Byte × StageData) → List StageEnt → StageCheck
  | _, [], acc => .fine acc
  | i, (e, d) :: rest, acc =>
    let idx := fieldAt e 4 4
    let part := fieldAt e 8 2
    let known := (b.locator x idx).isSome || acc.any (fun a => match a with
      | .insert j _ _ _ _ => j == idx
      | .delete _ => false)
    let before := (acc.filter fun a => match a with
      | .insert _ p _ _ _ => p == part
      | .delete _ => false).length
    if !stageRsvd e then .bad i
    else if fieldAt e 0 1 = 1 then
      let pe := b.partEnt x part
      if known || decide (x.capacity ≤ idx) || decide (x.parts ≤ part) || decide (pe.cap ≤ pe.fill + before) then .bad i
      else
        match d.record, d.sketch with
        | .ok r, .ok k =>
          let r := (r ++ List.replicate 4096 0).take 4096
          if recordChecks r then
            b.stageCheck x (i + 1) rest
              (acc ++ [.insert idx part (fieldAt e 0x10 8) r ((k ++ List.replicate x.sb 0).take x.sb)])
          else .bad i
        | _, _ => .dma
    else if fieldAt e 0 1 = 2 then
      if known then b.stageCheck x (i + 1) rest (acc ++ [.delete idx]) else .bad i
    else .bad i

/-- Give every entry inserted so far DEATH = BIRTH (R279). -/
def Block.killInserts (b : Block) (x : Shard) (rows : List Nat) : Block :=
  rows.foldl (fun b row =>
    let t := b.tail x row
    b.areaWrite x x.tails (16 * row) ({ t with death := t.birth }).bytes) b

/-- Step 2 of R279: every INSERT in list order; `rows` are the rows inserted so far, which a failing write kills. -/
def Block.stageInserts (b : Block) (n : Nat) (x : Shard) : List StageEnt → List Nat → Block × Option Code
  | [], _ => (b, none)
  | .delete _ :: rest, rows => b.stageInserts n x rest rows
  | .insert idx part tags r k :: rest, rows =>
    let b := b.checkPlace
    if b.sb.readOnly then (b.killInserts x rows, some Codes.sbRo)
    else if slotLimit ≤ b.sb.slots.length then (b.killInserts x rows, some Codes.sbFull)
    else if chunkLimit < chunksOf b.sb.slots + b.newChunks (slotKey x.owner (b.passageSlot x.owner)) 1 then
      (b.killInserts x rows, some Codes.sbMapFull)
    else
      let pe := b.partEnt x part
      let row := pe.first + pe.fill
      let slot := b.passageSlot x.owner
      let id := passageId b.cb.module n idx
      let b := b.putSlot 8 x.owner slot (some n) (recordOf r x.owner id tags (x.epoch + 1))
      let nxt := passageBase + (slot + 1 - passageBase) % 2 ^ 39
      let b := { b with sb := { b.sb with counter := tabSet x.owner nxt b.sb.counter } }
      let b := b.areaWrite x x.sketches (x.sb * row) k
      let b := b.areaWrite x x.tails (16 * row) (Tail.bytes ⟨BitVec.ofNat 64 tags, x.epoch + 1, noEpoch⟩)
      let b := b.areaWrite x x.locators (16 * idx) (le 4 row ++ le 2 part ++ le 2 0 ++ le 8 slot)
      let b := b.areaWrite x x.directory (16 * part + 8) (le 4 (pe.fill + 1))
      b.stageInserts n x rest (rows ++ [row])

/-- Step 3 of R279: every DELETE, after the inserts. -/
def Block.stageDeletes (b : Block) (x : Shard) (es : List StageEnt) : Block :=
  es.foldl (fun (b : Block) e => match e with
    | .insert _ _ _ _ _ => b
    | .delete idx => match b.locator x idx with
      | some (row, _) => b.areaWrite x x.tails (16 * row) ({ b.tail x row with death := x.epoch + 1 }).bytes
      | none => b) b

/-- Apply a validated stage list (R279). A code where a write fails. -/
def Block.stageApply (b : Block) (n : Nat) (x : Shard) (es : List StageEnt) : Block × Option Code :=
  let r := b.stageInserts n x es []
  if r.2.isSome then r else (r.1.stageDeletes x es, none)

/-- SHARD_PUBLISH STAGE (R276 to R279): the list, its records and sketches come as the command's host reads. The command
is one step, so the shard is STAGING only within it. -/
def execShardStage (o : OrderIn) (list : HostRead) (data : List StageData) (s : State) :
    Host.Outcome State Fault Refusal :=
  s.run <| publish 2 o fun b =>
    let n := o.target
    let addr := opAt o 0x28 8
    let count := opAt o 0x30 4
    match b.shard? n with
    | none => b.ended Codes.notPermitted
    | some x =>
      if !opClear o [(0x20, 8), (0x28, 64), (0x30, 32)] then b.ended Codes.badRsvd
      else if x.state ≠ ShardState.live then b.ended Codes.shardBusy
      else if addr % 64 ≠ 0 ∨ 65536 < count then ⟨b, some (Codes.stageBad, 0xFFFFFF)⟩
      else if !b.areasLive x then b.ended Codes.noObject
      else
        let dma := b.dmaFailed
        match (if count = 0 then HostRead.ok [] else list) with
        | .fault => dma.ended Codes.dmaError
        | .ok bytes =>
          let es := (List.range count).map fun k => ((bytes.drop (64 * k) ++ List.replicate 64 0).take 64,
            (data[k]?).getD ⟨.fault, .fault⟩)
          match b.stageCheck x 0 es [] with
          | .bad i => ⟨b, some (Codes.stageBad, i)⟩
          | .dma => dma.ended Codes.dmaError
          | .fine es =>
            let ins := (es.filter fun e => match e with
              | .insert _ _ _ _ _ => true
              | .delete _ => false).length
            if (b.ten x.owner).quota.slots < (b.use x.owner).slots + ins ∧ 0 < ins then b.ended Codes.mtQuotaSlots
            else if x.epoch = 0xFFFFFFFE then b.ended Codes.epochSpent
            else
              let r := b.stageApply n x es
              match r.2 with
              | some c => r.1.ended c
              | none =>
                ⟨(b.withNear x.owner fun _ => r.1).pubShard n { x with epoch := x.epoch + 1, advanced := some b.clk.cclk },
                  some (Codes.ok, count)⟩

/-- SHARD_PUBLISH SHARE (R275, R276). -/
def execShardShare (o : OrderIn) (s : State) : Host.Outcome State Fault Refusal :=
  s.run <| publish 3 o fun b =>
    match b.shard? o.target with
    | none => b.ended Codes.notPermitted
    | some x =>
      let k := opAt o 0x21 1
      if !opClear o ([(0x20, 8), (0x21, 8)] ++ (List.range 16).map fun j => (0x40 + 2 * j, 12)) then b.ended Codes.badRsvd
      else if x.state = ShardState.closing then b.ended Codes.shardBusy
      else if 16 < k then b.ended Codes.shardBad
      else
        (b.pubShard o.target { x with
          readers := (List.range k).map fun j => opAt o (0x40 + 2 * j) 2 % 4096 }).ended Codes.ok

/-- SHARD_PUBLISH DROP (R276): the shard is CLOSING; its reply comes when the drop completes. -/
def execShardDrop (o : OrderIn) (s : State) : Host.Outcome State Fault Refusal :=
  s.run <| publish 4 o fun b =>
    match b.shard? o.target with
    | none => b.ended Codes.notPermitted
    | some x =>
      if !opClear o [(0x20, 8)] then b.ended Codes.badRsvd
      else if x.state ≠ ShardState.live then b.ended Codes.shardBusy
      else ⟨b.pubShard o.target { x with state := .closing, dropReply := some (o.issuer, o.tag) }, none⟩

/-- A CLOSING shard that no request holds becomes FREE, and DROP is answered (R276, R284). -/
def Block.dropShard (b : Block) (n : Nat) : Block :=
  match b.shard? n with
  | some x =>
    if x.state = ShardState.closing ∧ !b.shardHeld n then
      let b := (b.freeShard n).reportShard n
      match x.dropReply with
      | some (i, tag) => b.orderReply i tag Codes.ok 0
      | none => b
    else b
  | none => b

/-- SHARD_DROP_COMPLETE (R276, R284). -/
def execShardDropComplete (shard : Nat) (s : State) : Host.Outcome State Fault Refusal := s.run fun b => b.dropShard shard

/-- Every shard of a tenant is dropped as by DROP (R586, R587). -/
def Block.dropShards (b : Block) (t : Nat) : Block :=
  (b.ske.shards.filter fun x => x.2.owner == t).foldl (fun (b : Block) (x : Nat × Shard) =>
    (b.setShard x.1 { x.2 with state := .closing }).dropShard x.1) b

end Sys2Proof.Machine
end

