-- ==== Sys2Proof/Machine/Kernels.lean ====
section
/-!
DEFINITION. Machine/Kernels.lean: kernel images (R186 to R189): the slot encodings of R195, R197, R204 and R206, the checks
at load, and the kernel store.
-/
namespace Sys2Proof.Machine

/-- Codes of the destinations that a slot names (R188): S, A, V and P registers and accumulator tiles. -/
def dS (i : Nat) : Nat := i
def dA (i : Nat) : Nat := 100 + i
def dV (i : Nat) : Nat := 200 + i
def dP (i : Nat) : Nat := 300 + i
def dT (i : Nat) : Nat := 400 + i

/-- A slot's check: whether it passes, and the destinations it names. -/
structure SlotCheck where
  ok : Bool
  dests : List Nat

def good (c : Bool) (ds : List Nat) : SlotCheck := ⟨c, ds⟩

/-- C slot (R195, R196, R201, R208). -/
def checkC (w pc bundles relays : Nat) : SlotCheck :=
  let f := fun hi lo => bits w hi lo
  let d := f 21 16
  let a := f 15 10
  let y := f 9 4
  let fn := f 3 0
  let rel : Int := (BitVec.ofNat 16 w).toInt
  match f 31 26 with
  | 0x01 => good (fn == 0) [dS d]
  | 0x02 => good (fn == 0) [dS d]
  | 0x03 => good (fn == 0) [dS d]
  | 0x04 => good (fn == 0) [dS d]
  | 0x05 => good (fn == 0) [dS d]
  | 0x06 => good (decide (fn ≤ 2)) [dS d]
  | 0x07 => good (fn == 0) [dS d]
  | 0x08 => good true [dS d]
  | 0x09 => good true [dS d]
  | 0x0A => good true [dS d]
  | 0x0B => good (decide (fn ≤ 5) && decide (d < 8) && decide (a < 8) && decide (y < 8)) [dP d]
  | 0x0C => good (decide (fn ≤ 3) && decide (d < 8) && decide (a < 8) && decide (y < 8)) [dP d]
  | 0x0D => good (fn == 0 && decide (d < 16) && decide (a < 16)) [dA d]
  | 0x0E => good (decide (d < 16) && decide (a < 16)) [dA d]
  | 0x0F => good (fn == 0 && decide (d < 16)) [dA d]
  | 0x10 => good (decide (fn ≤ 1) && decide (a < 16) && y == 0) [dS d]
  | 0x11 => good (d == 0 && decide (0 ≤ (pc : Int) + rel) && decide ((pc : Int) + rel < (bundles : Int))) []
  | 0x12 => good (f 15 12 == 0 && f 11 0 != 0 && decide (pc + f 11 0 < bundles)) []
  | 0x13 => good (d == 0) []
  | 0x14 => good (f 21 11 == 0 && f 9 8 == 0 && decide (f 7 0 < relays)) []
  | 0x15 => good (f 15 0 == 0) []
  | 0x16 => good (f 15 8 == 0 && decide (f 7 0 ≤ 6)) [dS d]
  | 0x17 => good (f 15 8 == 0 && decide (f 7 0 ≤ 6)) []
  | _ => good (w == 0) []

/-- L slot (R197, R201). -/
def checkL (w : Nat) (fw : Bool) : SlotCheck :=
  let f := fun hi lo => bits w hi lo
  match f 31 26 with
  | 0x01 => good true (dV (f 21 17) :: if bit w 12 then [dA (f 16 13)] else [])
  | 0x02 => good true (if bit w 12 then [dA (f 16 13)] else [])
  | 0x03 => good true [dS (f 21 16)]
  | 0x04 => good true []
  | 0x05 => good (f 12 0 == 0) []
  | 0x06 => good (f 14 0 == 0) [dT (f 21 19)]
  | 0x07 => good (f 4 0 == 0) [dS (f 21 16)]
  | 0x08 => good (f 3 0 == 0 && (!bit w 4 || f 10 5 == 0)) [dV (f 21 17)]
  | 0x09 => good (f 2 0 == 0) []
  | 0x0A =>
    let st := f 13 10
    good (f 6 0 == 0 && decide (st ≤ 11) && st != 7 && (decide (st < 8) || f 9 8 == 0) &&
      (fw || !([6, 10, 11].contains st))) []
  | 0x0B => good (f 13 0 == 0) []
  | 0x0C => good (f 13 0 == 0) []
  | _ => good (w == 0) []

/-- V slot (R204, R205, R245). -/
def checkV (w : Nat) : SlotCheck :=
  let f := fun hi lo => bits w hi lo
  let ty := f 6 5
  let fn := f 4 0
  let vd := [dV (f 21 17)]
  let vb0 := f 11 7 == 0
  let typed := decide (ty ≤ 2)
  match f 31 26 with
  | 0x01 => good (typed && fn == 0) vd
  | 0x02 => good (typed && fn == 0) vd
  | 0x03 => good (typed && fn == 0) vd
  | 0x04 => good (ty == 0 && fn == 0) vd
  | 0x05 => good (typed && fn == 0) vd
  | 0x06 => good (typed && fn == 0) vd
  | 0x07 => good (typed && decide (fn ≤ 3)) vd
  | 0x08 => good (typed && decide (fn ≤ 2)) vd
  | 0x09 => good (typed && fn == 0) vd
  | 0x0A => good (typed && f 21 20 == 0 && decide (fn ≤ 5)) [dP (f 19 17)]
  | 0x0B => good (typed && decide (fn ≤ 7)) vd
  | 0x0C => good (vb0 && convCode (f 6 0)) vd
  | 0x0D => good (vb0 && ty == 0 && decide (fn ≤ 3)) vd
  | 0x0E => good (vb0 && typed && decide (fn ≤ 7) && (decide (2 ≤ fn % 4) || ty == 0)) vd
  | 0x0F => good (typed && fn == 0) vd
  | 0x10 => good (vb0 && typed && fn == 0) vd
  | _ => good (w == 0) []

/-- M slot (R206, R207). A pass names the tile from which it writes. -/
def checkM (w : Nat) : SlotCheck :=
  let f := fun hi lo => bits w hi lo
  match f 31 26 with
  | 0x01 => good (f 11 0 == 0 && decide (f 15 12 ≤ 7)) []
  | 0x02 => good (f 0 0 == 0) [dT (f 15 13)]
  | 0x03 => good (f 13 0 == 0) (((List.range 8).filter fun t => bit w (14 + t)).map dT)
  | 0x04 => good (f 9 0 == 0) [dV (f 14 10)]
  | 0x05 => good (f 9 0 == 0) [dT (f 21 19)]
  | _ => good (w == 0) []

/-- Two lists share an element. -/
def meets (x y : List Nat) : Bool := x.any y.contains

/-- The first slot of a bundle that fails (R188, R189): 0 C, 1 L, 2 V, 3 M. Of two slots that name one destination, the
later one is the failure (DESIGN CHOICE, assumption 132). -/
def checkBundle (v pc bundles relays : Nat) (fw : Bool) : Option Nat :=
  let c := checkC (bits v 31 0) pc bundles relays
  let l := checkL (bits v 63 32) fw
  let x := checkV (bits v 95 64)
  let m := checkM (bits v 127 96)
  if !c.ok then some 0
  else if !l.ok || meets l.dests c.dests then some 1
  else if !x.ok || meets x.dests (c.dests ++ l.dests) then some 2
  else if !m.ok || meets m.dests (c.dests ++ l.dests ++ x.dests) then some 3
  else none

/-- AUX of KERNEL_BAD for a header or relay table failure (R188). -/
def badHeader : Nat := 0xFFF

/-- A relay table entry (R209). -/
def relayEntry (bs : List Byte) : RelayEntry :=
  let rs := (List.range 12).map fun i => fieldAt bs (0x10 + 4 * i) 4
  ⟨BitVec.ofNat 64 (fieldAt bs 0 8), (rs.filter fun r => r % 65536 != 0).map fun r => (r / 65536, r % 65536)⟩

/-- RSVD fields of a relay table entry are zero, its ranges lie in coach SRAM and do not overlap (R188, R209). -/
def relayOk (bs : List Byte) : Bool :=
  let e := relayEntry bs
  let live := e.live.toNat
  let rs := sortBy (fun p q => decide (p.1 ≤ q.1)) e.ranges
  live % 4 == 0 && bits live 15 8 == 0 && zeroAt bs 8 8 && rs.all (fun r => decide (64 * (r.1 + r.2) ≤ sramEnd)) &&
  (rs.zip (rs.drop 1)).all fun p => decide (p.1.1 + p.1.2 ≤ p.2.1)

/-- A kernel image loaded and checked (R186, R188), or AUX of KERNEL_BAD. -/
def loadKernel (bs : List Byte) (tenant obj kid : Nat) : Except Nat Kernel :=
  let w0 := fieldAt bs 0 4
  let bundles := fieldAt bs 4 2
  let relays := fieldAt bs 6 2
  let table := (List.range relays).map fun i => (bs.drop (64 + 16 * bundles + 64 * i)).take 64
  let es := table.map relayEntry
  let saveMax := fieldAt bs 12 4
  let code := (List.range bundles).map fun i => fieldAt bs (64 + 16 * i) 16
  let failed := code.zipIdx.findSome? fun p => (checkBundle p.1 p.2 bundles relays false).map fun s => p.2 + 2 ^ 22 * s
  let last := code.getD (bundles - 1) 0
  let op := bits last 31 26
  if bits w0 30 16 ≠ 0 ∨ bit w0 31 ∨ !zeroAt bs 0x10 48 ∨ bundles = 0 ∨ 4096 < bundles ∨ 256 < relays then .error badHeader
  else
    match failed with
    | some x => .error x
    | none =>
      if !table.all relayOk ∨ saveMax ≠ (es.map RelayEntry.size).foldl max 0 then .error badHeader
      else if op ≠ 0x15 ∧ ¬ (op = 0x11 ∧ bits last 25 22 = 0) then .error (bundles - 1)
      else .ok { firmware := false, kernelId := kid, tenant := tenant, obj := obj, bundles := bundles
                 tileCclk := fieldAt bs 8 4, saveMax := saveMax, relays := es, size := 64 + 16 * bundles + 64 * relays
                 code := code }

/-- A kernel of the firmware image (R186): its fields are free. -/
def firmwareKernel (kid : Nat) : Kernel :=
  let f := Config.fwKernel kid
  let relays := (List.range (f 0 % 257)).map fun i =>
    (⟨BitVec.ofNat 64 (f (16 + 13 * i)), (List.range (f (17 + 13 * i) % 13)).map fun j =>
      let s := f (18 + 13 * i + j) % 0xC000
      (s, f (4000 + 13 * i + j) % (0xC000 - s))⟩ : RelayEntry)
  { firmware := true, kernelId := kid, tenant := 0, obj := 0, bundles := f 1 % 4096 + 1, tileCclk := f 2
    saveMax := (relays.map RelayEntry.size).foldl max 0, relays := relays, size := 64 + 16 * (f 1 % 4096 + 1) + 64 * relays.length }

/-- The image that a task names (R186): the bytes at its place in its object, or the firmware's. -/
def Block.fetchKernel (b : Block) (tenant obj kid : Nat) : Except Nat Kernel :=
  if obj = 0 then .ok (firmwareKernel kid)
  else
    match b.liveObj? tenant obj with
    | none => .error badHeader
    | some x =>
      match x.decl.bind fun d => tabFind? kid d.kernels with
      | none => .error badHeader
      | some off =>
        let h := b.readMem (x.base + off) 8
        let size := 64 + 16 * fieldAt h 4 2 + 64 * fieldAt h 6 2
        if x.size < off + size ∨ fieldAt h 0 2 ≠ kid % 65536 then .error badHeader
        else loadKernel (b.readMem (x.base + off) size) tenant obj kid

/-- The kernel store of a coach holds an image of this tenant, object and KERNEL_ID, or the shared firmware image
(R187, R595). -/
def Coach.resident (c : Coach) (tenant obj kid : Nat) : Option Kernel :=
  c.images.find? fun k => k.kernelId == kid && k.obj == obj && (obj == 0 || k.tenant == tenant)

/-- Images that stay when a new one of `size` bytes comes: of those that may go, the least recently dispatched go first (R187). -/
def evict (keep : Kernel → Bool) (size : Nat) : List Kernel → List Kernel
  | [] => []
  | k :: ks =>
    if natSum ((k :: ks).map (·.size)) + size ≤ 524288 then k :: ks
    else if keep k then k :: evict keep (size + k.size) ks
    else evict keep size ks

/-- Two images are the same one (R595). -/
def Kernel.same (x y : Kernel) : Bool := x.kernelId == y.kernelId && x.obj == y.obj && x.tenant == y.tenant

/-- The kernel store after a dispatch of an image: it is the most recently dispatched. -/
def Coach.loadImage (c : Coach) (keep : Kernel → Bool) (k : Kernel) : Coach :=
  { c with images := evict keep k.size (c.images.filter fun x => !x.same k) ++ [k], kernel := some k }

/-- The kernel store holds no more than 512 KiB (R187). -/
def Coach.storeFits (c : Coach) : Bool := decide (natSum (c.images.map (·.size)) ≤ 524288)

end Sys2Proof.Machine
end

