-- ==== Sys2Proof/Machine/Tasks.lean ====
section
/-!
DEFINITION. Machine/Tasks.lean: tile tasks (R32 to R35, R159, R163 to R168, R184 to R188, R203, R210 to R215): making them,
dispatch, arrival, restores, pre-emption, saves, completion notices and the commit of a task and its step.
-/
namespace Sys2Proof.Machine

/-! ### Making tasks -/

/-- A tile task of a context's step by a firmware kernel or by a kernel of an object (R27, R33, R164, R186); the kernel of an object
declares the task's count (R159, R186). What the coachman hands it as arguments, and the up to four output ranges it names
(R185), are the firmware's own: free. -/
def Block.newTask (b : Block) (n : Nat) (decode : Bool) (obj kid cclk : Nat) (order : Nat := 0) : Block :=
  let k := match b.fetchKernel (b.tenantOf n) obj kid with
    | .ok k => some k
    | .error _ => none
  let t : TileTask :=
    { id := b.tp.nextTask, ctx := n, decode := decode, order := order, prefQ := coachman n % 4, kernelObj := obj, kernelId := kid
      cclk := match k with
        | some x => if x.firmware then cclk else x.tileCclk
        | none => cclk
      maxSave := match k with
        | some x => x.saveMax
        | none => 0
      image := none
      sArgs := (List.range 15).map fun i => Config.freeWord b.epoch i
      aArgs := (List.range 8).map fun i => (Config.freeWord b.epoch (16 + i)).setWidth 48
      ranges := (List.range (Config.freeNat b.epoch 32 % 5)).map fun i =>
        (Config.freeNat b.epoch (33 + 2 * i) % 2 ^ 48, Config.freeNat b.epoch (34 + 2 * i) % 2 ^ 48) }
  (({ b with tp := { b.tp with nextTask := b.tp.nextTask + 1 } }).nextEpoch).pushReady t

/-- The kernel of a model object that its step's tile task runs (R285, R477): one of those in the object's kernel table, which of
them is the toolchain's matter and free; none where the table lists none. -/
def Block.modelKernel (b : Block) (n obj : Nat) : Option Nat :=
  match (b.liveObj? (b.ctx n).tenant obj).bind fun o => o.decl with
  | none => none
  | some d => (d.kernels[Config.freeNat b.epoch 48 % max 1 d.kernels.length]?).map (·.1)

/-- A compute step begins: its result where it is known already, and its tile task in the ready set (R32, R132), by a kernel of the
model object `model`, or a firmware kernel (0). -/
def Block.startStep (b : Block) (n : Nat) (i : RInstr) (wait : StepWait) (decode : Bool) (cclk : Nat)
    (r : Option StepResult) (search : Option SearchRun) (dec : Option DecodeRun) (holds : List Nat) (model : Nat := 0)
    (cmds : List StepCmd := []) : Block :=
  let b := b.modCtx n fun c => { c with
    state := if c.state = .admitted then .running else c.state
    step := some { step := c.pc, opcode := i.op, wait := wait, tasks := 1, result := r, search := search, decode := dec, rerank := none, prefill := none
                   holds := holds.map fun o => c.tenant * 4096 + o, remoteSince := b.clk.cclk, cmds := cmds } }
  match if model = 0 then none else b.modelKernel n model with
  | some kid => b.newTask n decode model kid cclk
  | none => b.newTask n decode 0 i.op cclk

/-- One more tile task of a context's step, by a kernel of the model object `model`, or a firmware kernel (0). -/
def Block.addTask (b : Block) (n op model cclk order : Nat) : Block :=
  let b := b.modCtx n fun c => { c with step := c.step.map fun st => { st with tasks := st.tasks + 1 } }
  match if model = 0 then none else b.modelKernel n model with
  | some kid => b.newTask n false model kid cclk order
  | none => b.newTask n false 0 op cclk order

/-- The code with which a step's tasks ended joins its result (R133, R214): OK and the result's own code leave the result as it is;
another kernel code takes its place. -/
def joinCode (r : StepResult) (code : Code) : StepResult :=
  if code = Codes.ok ∨ code = r.code then r else { r with code := code }

/-- The step of a context commits once its tile tasks have completed and its result is known (R126, R131, R133, R214). -/
def Block.stepCheck (b : Block) (n : Nat) : Block :=
  match (b.ctx n).step, b.instrAt n with
  | some st, some i =>
    if st.tasks = 0 ∧ st.wait = .task then
      match st.result with
      | some r0 =>
        let r := joinCode r0 st.endCode
        let b := match st.prefill with
          | some p => if Codes.continues r.code then (b.storeCommit n p).sliceDecision n else b
          | none => b
        let b' := b.commitStep n i r
        -- deferred commands go out once the step has committed (R203, R443)
        if Codes.continues r.code && (b'.ctx n).step.isNone then r.deferred.foldl Block.arrive b' else b'
      | none => b
    else b
  | _, _ => b

/-- Steps that stand committed but for a page that their lists wait for (R170) try again. -/
def Block.retrySteps (b : Block) : Block := b.ctxs.foldl (fun (b : Block) (c : Nat × Ctx) => b.stepCheck c.1) b

/-- The last task of a request that stopped has left its coach: its FAILED reply is written (R152). -/
def Block.leftCoach (b : Block) (n : Nat) : Block :=
  match (b.ctx n).req with
  | some q =>
    match q.ending with
    | some code =>
      if b.onCoach n ∨ q.finish.isSome ∨ (b.ctx n).freeing then b
      else
        let b := b.modCtx n fun c => { c with req := c.req.map fun r => { r with ending := none } }
        b.lastReply n 4 code q.endingAux (endState code)
    | none => b
  | none => b

/-- The same for every context, after coaches lost their tasks to a fence. -/
def Block.settleStops (b : Block) : Block := b.ctxs.foldl (fun (b : Block) c => b.leftCoach c.1) b

/-- A context waits for other modules (R144, R298, R450), or waits no more. -/
def Block.blockCtx (b : Block) (n : Nat) : Block :=
  b.modCtx n fun c => { c with state := if c.state = .running ∨ c.state = .admitted then .blocked else c.state }

def Block.unblockCtx (b : Block) (n : Nat) : Block :=
  b.modCtx n fun c =>
    if c.replyWait then c
    else { c with
      state := if c.state = .blocked then .running else c.state
      prev := if c.state = .swapped ∧ c.prev = .blocked then .running else c.prev }

/-! ### Dispatch (R34, R164 to R166, R187, R188) -/

/-- Presentation order of the ready set (R164). -/
def Block.taskBefore (b : Block) (x y : TileTask) : Bool :=
  let key := fun (t : TileTask) => [if t.decode then 0 else 1, b.admitOf t.ctx, t.ctx, t.order]
  decide (List.Lex (· < ·) (key x) (key y)) || key x == key y

/-- The tasks that a coachman may present, in order: those whose context may run (R149, R152) and is resident (R170, R172), and
waits for no reply slot (R385). -/
def Block.presentable (b : Block) (m : Nat) : List TileTask :=
  let ok := fun (t : TileTask) => (b.work? t.ctx).isSome || !(b.ctx t.ctx).freeing && !(b.ctx t.ctx).replyWait &&
    (b.ctx t.ctx).state != .swapped && !(b.ctx t.ctx).recompute && (match (b.ctx t.ctx).req with
    | some r => r.ending.isNone
    | none => false)
  sortBy b.taskBefore ((tabGet [] m b.tp.ready).filter ok)

/-- The task that a coachman presents next. -/
def Block.presented (b : Block) (m : Nat) : Option TileTask := (b.presentable m).head?

/-- A coach takes dispatches: not fenced and not withdrawn (R164, R619, R649, R658). -/
def Block.coachOpen (b : Block) (k : Nat) : Bool :=
  !b.fenced 1 k && !b.ost.withdrawn.contains k && !b.testWithdrawn.contains k

/-- A coach seems idle to coachman `m`: idle, or dispatched by another coachman in this CCLK (R34). -/
def Block.idleFor (b : Block) (m k : Nat) : Bool :=
  let c := b.coach k
  b.coachOpen k && (c.st == .idle || (c.st == .arriving && c.dispatchCclk == b.clk.cclk && match c.task with
    | some t => coachman t.ctx != m
    | none => false))

/-- The coach for a task (R164): the lowest idle one of the preferred quarter, else of any quarter. -/
def Block.pickCoach (b : Block) (m prefQ : Nat) : Option Nat :=
  match ((List.range 128).map (128 * prefQ + ·)).find? (b.idleFor m) with
  | some k => some k
  | none => (List.range 512).find? (b.idleFor m)

/-- Take a task out of its ready set. -/
def Block.unready (b : Block) (t : TileTask) : Block :=
  { b with tp := { b.tp with ready := tabMap (fun _ l => l.filter fun x => x.id != t.id) b.tp.ready } }

/-- An image that may not leave coach `k`'s store (R187): a task that runs there, or one with a save image, is of it. -/
def Block.imageHeld (b : Block) (k : Nat) (x : Kernel) : Bool :=
  let uses := fun (t : TileTask) => t.kernelId == x.kernelId && t.kernelObj == x.obj &&
    (x.obj == 0 || b.tenantOf t.ctx == x.tenant)
  (match (b.coach k).task with
    | some t => uses t
    | none => false) ||
  b.tp.ready.any (fun r => r.2.any fun t => t.image.isSome && uses t)

/-- A task goes to a coach, its image loaded first where it is not resident (R187, R188). A failed check ends the step with
KERNEL_BAD. Where the images that must stay leave no room, the task waits (DESIGN CHOICE, assumption 131). -/
def Block.dispatchTo (b : Block) (t : TileTask) (k : Nat) : Block :=
  let tenant := b.tenantOf t.ctx
  let found := match (b.coach k).resident tenant t.kernelObj t.kernelId with
    | some x => Except.ok x
    | none => b.fetchKernel tenant t.kernelObj t.kernelId
  match found with
  | .error aux =>
    -- the firmware's own kernels, which work for other modules runs, never fail here
    ((b.unready t).modCtx t.ctx fun c => { c with lastCode := Codes.kernelBad }).stopReqAux t.ctx Codes.kernelBad aux
  | .ok x =>
    let keep := b.imageHeld k
    if !((b.coach k).loadImage keep x).storeFits then b
    else (b.unready t).modCoach k fun c => { (c.loadImage keep x) with
      st := .arriving, task := some t, tenant := tenant, dispatchCclk := b.clk.cclk, ranges := t.ranges, tile := t.order }

/-- DISPATCH (R34, R164, R166): coachman `cm` presents its first ready task; a dispatch to the same coach in the same CCLK
is settled by class, then by coachman, and the loser is presented again. -/
def execDispatch (cm : Nat) (s : State) : Host.Outcome State Fault Refusal :=
  s.run fun b =>
    match b.presented cm with
    | none => b
    | some t =>
      match b.pickCoach cm t.prefQ with
      | none => b
      | some k =>
        match (b.coach k).task with
        | none => b.dispatchTo t k
        | some old =>
          if (t.decode && !old.decode) || (t.decode == old.decode && decide (cm < coachman old.ctx)) then
            (b.returnTask k).dispatchTo t k
          else b

/-- The order of R374 among commands to the text unit: DECODE tasks first, then earlier arrival, then the lower coach number. -/
def TextIssue.before (x y : TextIssue) : Bool :=
  let key := fun (c : TextIssue) => [if c.decode then 0 else 1, c.arrived, c.coach]
  decide (List.Lex (· < ·) (key x) (key y)) || key x == key y

/-- A step's tile task issues one of its unit commands (R23); the coach adds the task's class and output ranges (R328, R374). -/
def Block.issueCmd (b : Block) (k : Nat) (t : TileTask) (c : StepCmd) : Block :=
  let by_ : TextIssue := ⟨t.decode, k, t.ranges, b.clk.cclk⟩
  match c with
  | .unit c => b.arrive { c with decode := t.decode }
  | .segment c => { b with txu := { b.txu with
      segQ := insertBy (fun x y => x.issue.before y.issue) { c with issue := by_ } b.txu.segQ } }
  | .detok c => { b with txu := { b.txu with
      detokQ := insertBy (fun x y => x.issue.before y.issue) { c with issue := by_ } b.txu.detokQ } }

/-- The tile task of a step first runs: its kernel issues the step's unit commands, once (R23). The first tentative write of a
DECODE round follows, so SPEC_OPEN is set (R421). -/
def Block.firstRun (b : Block) (k : Nat) (t : TileTask) : Block :=
  match (b.ctx t.ctx).step with
  | none => b
  | some st =>
    let b := b.modCtx t.ctx fun c => { c with
      specOpen := c.specOpen || (t.decode && st.decode.isSome)
      step := c.step.map fun st => { st with cmds := [] } }
    st.cmds.foldl (fun b c => b.issueCmd k t c) b

/-- A task begins from its start (R184). -/
def Block.startTask (b : Block) (k : Nat) (t : TileTask) : Block :=
  let d := b.clk.delivered
  let b := (b.undefineCoach k).modCoach k fun c => { c with
    st := .running, pc := 0
    s := (List.range 63).map fun i => (i + 1, if i < 15 then t.sArgs.getD i 0 else 0)
    a := (List.range 16).map fun i => (i, if i < 8 then t.aArgs.getD i 0 else 0)
    p := [], loops := [], tags := [], fpflags := 0, round := false, cycleBase := d, stretchBase := d, remoteFrom := none
    relayDue := false, finalSeen := false, deferred := [], overlay := [], streams := [], slots := [], ready := d }
  (b.passEmpty k).firstRun k t

/-- DISPATCH_ARRIVAL (R166, R184): the task starts, or its restore begins. -/
def execDispatchArrival (coach : Nat) (s : State) : Host.Outcome State Fault Refusal :=
  s.run fun b =>
    let c := b.coach coach
    match c.task with
    | none => b
    | some t =>
      if c.st ≠ .arriving then b
      else
        match t.image with
        | some _ => b.modCoach coach fun c => { c with st := .restoring }
        | none => b.startTask coach t

/-- RESTORE_COMPLETE (R167, R213): the task goes on from its relay point, its uncommitted writes with it (R33). -/
def execRestoreComplete (coach : Nat) (s : State) : Host.Outcome State Fault Refusal :=
  s.run fun b =>
    let c := b.coach coach
    if c.st ≠ .restoring then b
    else
      match c.task with
      | some t =>
        match t.image with
        | some m => b.restore coach m
        | none => b.startTask coach t
      | none => b

/-! ### Pre-emption (R165 to R168) -/

/-- Bytes of the save region in use (R167): every image that a task holds. -/
def Block.saveUsed (b : Block) : Nat :=
  let size := fun (m : Option SaveImage) => match m with
    | some x => x.bytes.length
    | none => 0
  natSum ((b.tp.ready.map fun r => r.2.map fun t => size t.image).flatten) +
  natSum (b.coaches.map fun k => size k.2.image +
    (match k.2.notice with
      | some (.saved m) => m.bytes.length
      | _ => 0) +
    match k.2.task with
    | some t => size t.image
    | none => 0)

/-- The save region (R167). -/
def saveRegion : Nat := 8 * 2 ^ 30

/-- The victim of R165: a GENERAL task on a coach, one outside a remote wait first, the latest ADMIT, the higher coach
number. -/
def Block.victim (b : Block) : Option Nat :=
  let cands := b.coaches.filterMap fun k => match k.2.task with
    | some t =>
      if !t.decode && !k.2.preemptSent && (k.2.st == .running || k.2.st == .arriving || k.2.st == .restoring)
      then some (k.1, k.2, b.admitOf t.ctx) else none
    | none => none
  let better := fun (x y : Nat × Coach × Nat) =>
    let rx := if x.2.1.remoteFrom.isSome then 1 else 0
    let ry := if y.2.1.remoteFrom.isSome then 1 else 0
    decide (rx < ry) || (rx == ry && (decide (y.2.2 < x.2.2) || (x.2.2 == y.2.2 && decide (y.1 ≤ x.1))))
  ((sortBy better cands).head?).map (·.1)

/-- PREEMPTION_DECISION (R165): a DECODE task is ready, no coach is idle and none is being freed for it; the first such task. -/
def execPreemptionDecision (cm : Nat) (s : State) : Host.Outcome State Fault Refusal :=
  s.run fun b =>
    match (b.presentable cm).find? fun t => t.decode && !(b.coaches.any fun k => k.2.preemptFor == some t.id) with
    | none => b
    | some t =>
      if (b.pickCoach cm t.prefQ).isSome then b
      else
        match b.victim with
        | none => b
        | some k =>
          let need := match (b.coach k).task with
            | some v => 64 + v.maxSave
            | none => 0
          if saveRegion < b.saveUsed + need then b
          else b.modCoach k fun c => { c with preemptSent := true, preemptFor := some t.id }

/-- PREEMPTION_REQUEST_ARRIVAL (R166, R210): the request is pending at the coach from now on. -/
def execPreemptionRequestArrival (coach : Nat) (s : State) : Host.Outcome State Fault Refusal :=
  s.run fun b =>
    let c := b.coach coach
    if c.preemptSent ∧ c.task.isSome then b.modCoach coach fun c => { c with preempt := true } else b

/-- SAVE_COMPLETE (R167): the image is in the save region and the coach sends its completion notice. -/
def execSaveComplete (coach : Nat) (s : State) : Host.Outcome State Fault Refusal :=
  s.run fun b =>
    let c := b.coach coach
    match c.st, c.image with
    | .saving, some m =>
      ({ b with tp := { b.tp with preemptCount := sat32 b.tp.preemptCount 1 } }).modCoach coach fun c => { c with
        st := .ending, image := none, notice := some (.saved m) }
    | _, _ => b

/-! ### Completion notices (R33, R165, R203) -/

/-- Uncommitted writes of a task become memory (R33, R185); whole lines written lose their poison (R612). -/
def Block.commitOverlay (b : Block) (cells : List Host.Cell) : Block :=
  let whole := fun (l : Nat) => (List.range 64).all fun i => (tabFind? (64 * l + i) cells).isSome
  { b with
    mem := cells.foldl (fun m c => tabSet c.1 c.2 m) b.mem
    rel := { b.rel with poison := b.rel.poison.filter fun l => !whole l } }

/-- A declared count leaves Q (R159). -/
def Block.taskDone (b : Block) (n cclk : Nat) : Block :=
  let b := { b with tp := { b.tp with q := b.tp.q - cclk } }
  b.modCtx n fun c => { c with req := c.req.map fun r => { r with share := r.share - cclk } }

/-! ### Work for other modules (R298, R299) -/

/-- Work is over or given up: its tasks, reads and queries go, and its staging area is released (R299). -/
def Block.dropWork (b : Block) (n : Nat) : Block :=
  match b.work? n with
  | none => b
  | some w =>
    let b := ((b.dropTasks n).dropFetches n).freePages w.pages
    { b with ske := { b.ske with works := tabErase n b.ske.works } }

/-- The answer of work goes out once it is formed and its tile tasks have completed (R299). -/
def Block.workCheck (b : Block) (n : Nat) : Block :=
  match b.work? n with
  | none => b
  | some w =>
    match w.result with
    | some r => if w.tasks = 0 then (b.answerWork w.domain w.dest r).dropWork n else b
    | none => b

/-- Work has its answer. -/
def Block.workResult (b : Block) (n : Nat) (r : ResultMsg) : Block :=
  (b.modWork n fun w => { w with result := some r }).workCheck n

/-- A tile task of work ended; a code that stops a step is the work's. -/
def Block.workTaskEnd (b : Block) (n : Nat) (w : WorkRun) (code : Code) : Block :=
  let b := b.modWork n fun w => { w with tasks := w.tasks - 1 }
  if Codes.continues code then b.workCheck n else b.workResult n (b.resultOf w.msg code)

/-- A task ended with a code (R33, R133, R159, R203, R215): its writes commit, its deferred commands go to their stations,
and its step goes on with that code; a stop or halting code discards the step's other tasks. -/
def Block.taskEnd (b : Block) (k : Nat) (t : TileTask) (code : Code) (aux : Nat) : Block :=
  let c := b.coach k
  let n := t.ctx
  if c.discard then (b.modCoach k Coach.release).leftCoach n
  else if Codes.continues code then
    let b := (b.commitOverlay c.overlay).modCoach k Coach.release
    let b := c.deferred.foldl Block.arrive b
    match b.work? n with
    | some w => b.workTaskEnd n w code
    | none =>
    let b := (b.taskDone n t.cclk).modCtx n fun x => { x with step := x.step.map fun st => { st with
      tasks := st.tasks - 1, quarter := some (k / 128), endCode := if code = Codes.ok then st.endCode else code } }
    b.stepCheck n
  else
    let b := b.modCoach k Coach.release
    match b.work? n with
    | some w => b.workTaskEnd n w code
    | none => (b.modCtx n fun x => { x with lastCode := code }).stopReqAux n code aux

/-- COMPLETION_NOTICE (R126, R131, R159, R165, R203, R215): a coach's notice reaches the hub; the coach is idle. -/
def execCompletionNotice (coach : Nat) (s : State) : Host.Outcome State Fault Refusal :=
  s.run fun b =>
    let c := b.coach coach
    match c.notice, c.task with
    | some (.discarded), some t => (b.modCoach coach Coach.release).leftCoach t.ctx
    | some (.saved m), some t =>
      let b := b.modCoach coach Coach.release
      if c.discard then b.leftCoach t.ctx else b.pushReady { t with image := some m }
    | some (.done code aux), some t => b.taskEnd coach t code aux
    | _, _ => b

/-! ### Budgets and the decode window -/

/-- A request whose last reply waits for its slot ends with another code (R151): that reply becomes a FAILED one. A FAILED reply
stays as it is, the request having stopped before. -/
def Block.failLast (b : Block) (n : Nat) (code : Code) : Block :=
  let page := (b.ctx n).tenant
  let mine := fun (r : Reply) => r.ctx == n && r.last && r.cls != 4
  if (b.page page).waiting.any mine then
    let failed := fun (r : Reply) =>
      if mine r then { r with cls := 4, code := code, outbuf := false, aux := 0, payload := [] } else r
    (b.modPage page fun p => { p with waiting := p.waiting.map failed }).modCtx n fun c => { c with
        yielded := false, req := c.req.map fun r => { r with finish := some .idle } }
  else b

/-- BUDGET_SPENT (R151, R152): BUDGET × 1,024 ungated CCLK have passed since admission and the last reply has not been handed over. -/
def execBudgetSpent (ctx : Nat) (s : State) : Host.Outcome State Fault Refusal :=
  s.run fun b =>
    let c := b.ctx ctx
    match c.req with
    | some r =>
      if r.admitted ∧ r.ending.isNone ∧ !c.freeing ∧ c.admitAt + r.budget * 1024 ≤ b.clk.cclk then
        if r.finish.isSome then b.failLast ctx Codes.budgetSpent else b.stopReq ctx Codes.budgetSpent
      else b
    | none => b

/-- DECODE_WINDOW (R163, R179): a window of 1,048,576 ungated CCLK ends. With no coach the share is full. -/
def execDecodeWindow (s : State) : Host.Outcome State Fault Refusal :=
  s.run fun b =>
    if b.clk.cclk < b.tp.windowStart + 1048576 then b
    else
      let n := b.nCoaches
      let d := if n = 0 then (if b.tp.decodeCclk = 0 then 0 else 1024) else min 1024 (b.tp.decodeCclk * 1024 / (n * 1048576))
      { b with tp := { b.tp with
          share := d, window := (b.tp.window + 1) % 2 ^ 32, windowStart := b.tp.windowStart + 1048576, decodeCclk := 0 } }

end Sys2Proof.Machine
end

