-- ==== Sys2Proof/Machine/Control.lean ====
section
/-!
DEFINITION. Machine/Control.lean: the orders on the module, tenants, units and the LED, and the end of a teardown
(R61, R427, R489, R514, R583 to R589, R618 to R622, R644, R647, R657 to R660).
-/
namespace Sys2Proof.Machine

/-! ### Module orders -/

/-- WARM_RESET (R61, R63). The reset ends the request itself, so that an issuer whose ring it discards gets no reply
(R64, R105); the Ostler and the lead get OK. -/
def execWarmReset (o : OrderIn) (s : State) : Host.Outcome State Fault Refusal :=
  s.run fun b => b.gate 1 o fun b =>
    if !opClear o [] then b.ended Codes.badRsvd
    else
      let b := match o.issuer with
        | .ostler => b.emit (.orderResult o.issuer o.tag Codes.ok)
        | .lead => b.emit (.orderResult o.issuer o.tag Codes.ok)
        | _ => b
      ⟨b.resetArrives .warm causeWarm, none⟩

/-- UPDATE_ACTIVATE applied (R647). -/
def Block.activate (b : Block) (issuer : Issuer) (tag : W64) : Block :=
  let f := b.flash
  let b := b.orderReply issuer tag Codes.ok 0
  let b := { b with
    flash := { b.flash with
      primary := f.staging, backup := f.primary, staging := f.backup, oldRoles := some (f.primary, f.backup, f.staging) }
    ost := { b.ost with updState := .activating } }
  (b.log 0x07 0 Codes.ok none none 0).resetArrives .fundamental causeUpdate

/-- UPDATE_ACTIVATE (R647): outside STAGED it ends with UPD_NONE. -/
def execUpdateActivate (o : OrderIn) (s : State) : Host.Outcome State Fault Refusal :=
  s.run fun b => b.gate 2 o fun b =>
    if !opClear o [] then b.ended Codes.badRsvd
    else if b.ost.updState ≠ UpdState.staged then b.ended Codes.updNone
    else ⟨b.activate o.issuer o.tag, none⟩

/-- LOCATE (R51, R644). -/
def execLocate (o : OrderIn) (s : State) : Host.Outcome State Fault Refusal :=
  s.run fun b => b.gate 15 o fun b =>
    if !opClear o [(0x20, 1)] then b.ended Codes.badRsvd
    else ({ b with ost := { b.ost with locate := bit (opAt o 0x20 1) 0 } }).ended Codes.ok

/-! ### Tenant orders -/

/-- Tenants that are ON or CLOSING, other than `t`. -/
def Block.othersOn (b : Block) (t : Nat) : List Tenant :=
  (b.tenants.filter fun e => e.1 != t && e.2.state != .off).map (·.2)

/-- Context ranges [b1, b1 + c1) and [b2, b2 + c2) meet. -/
def rangesMeet (b1 c1 b2 c2 : Nat) : Bool := decide (b1 < b2 + c2) && decide (b2 < b1 + c1) && c1 != 0 && c2 != 0

/-- A stored slot key is destroyed with every slot and shard of the tenant number (R586, R587). -/
def Block.destroyKey (b : Block) (t : Nat) : Block :=
  let b := b.dropShards t
  ({ b with slotKeys := tabErase t b.slotKeys }).dropSlots fun k _ => k / 2 ^ 40 == t

/-- TENANT_SET applied on this module (R584 to R586). -/
def Block.tenantSet (b : Block) (o : OrderIn) : OrderEnd :=
  let t := o.target
  let flags := opAt o 0x20 1
  let newKeys := bit flags 1
  let dtid := opAt o 0x24 4
  let base := opAt o 0x28 3 % 2 ^ 17
  let count := opAt o 0x2C 3 % 2 ^ 18
  let key := tabFind? t b.slotKeys
  if !opClear o [(0x20, 2), (0x24, 32), (0x28, 17), (0x2C, 18)] then b.ended Codes.badRsvd
  else if (b.ten t).state ≠ TenState.off then b.ended Codes.secTenantOn
  else if b.sec.debug ≠ 0 then b.ended Codes.secDebug
  else if 131072 < base + count ∨ (b.othersOn t).any (fun e => rangesMeet base count e.ctxBase e.ctxCount) then
    b.ended Codes.secRange
  else if dtid = 0 ∨ (b.othersOn t).any (fun e => e.dtid.toNat == dtid) then b.ended Codes.secDtid
  else
    let bad := match key with
      | none => none
      | some k =>
        if newKeys then none
        else if k.dtid.toNat ≠ dtid then some (3, Codes.secDtidMismatch)
        else if !k.unwraps then some (2, Codes.secKeyFail)
        else none
    match bad with
    | some (ev, code) => (b.secEvent ev (some t)).ended code
    | none =>
      let b := if newKeys then b.destroyKey t else b
      let d : W32 := BitVec.ofNat 32 dtid
      let keep := (tabFind? t b.slotKeys).isSome
      let old := b.ten t
      let e : Tenant :=
        { state := .on, hintOk := bit flags 0, dtid := d, ctxBase := base, ctxCount := count, memKey := true
          quota := Quota.new, chBudget := 0, routes := old.routes, adapters := [⟨0, true, []⟩], routeLast := old.routeLast
          closing := none }
      let b := { b with
        tenants := tabSet t e b.tenants
        slotKeys := if keep then b.slotKeys else tabSet t ⟨d, true⟩ b.slotKeys
        sec := { b.sec with drawn := b.sec.drawn + (if keep then 1 else 2) }
        host := { b.host with attn := tabSet t 0 b.host.attn } }
      b.ended Codes.ok

/-- TENANT_SET (R584 to R586, R589). -/
def execTenantSet (o : OrderIn) (s : State) : Host.Outcome State Fault Refusal :=
  s.run fun b => b.gate 3 o fun b => b.teamOrder 3 o fun b => b.tenantSet o

/-- The teardown of a CLOSING tenant is complete when no context and no object of it is left (R587): the tenant is OFF and
TENANT_DISABLE is answered. -/
def Block.closeTenant (b : Block) (t : Nat) : Block :=
  let e := b.ten t
  match e.closing with
  | none => b
  | some c =>
    if e.state = TenState.closing ∧ b.ctxs.all (fun x => x.2.tenant != t) ∧ b.mt.objs.all (fun x => x.1 / 4096 != t) then
      let b := b.dropTenantCaches t
      let b := if c.erase then b.destroyKey t else b
      let b := b.modTen t fun e => { e with state := .off, memKey := false, closing := none }
      if c.silent then b else b.orderReply c.issuer c.tag Codes.ok 0
    else b

/-- A SHARD_PUBLISH of the tenant that is still running, a DROP that waits for the shard's holds, ends with TENANT_CLOSED (R587); the
shard stays CLOSING. -/
def Block.endPublish (b : Block) (t : Nat) : Block :=
  (b.ske.shards.filter fun x => x.2.owner == t).foldl (fun (b : Block) (x : Nat × Shard) => match x.2.dropReply with
    | some (i, tag) => (b.setShard x.1 { x.2 with dropReply := none }).orderReply i tag Codes.tenantClosed 0
    | none => b) b

/-- TENANT_DISABLE applied on this module (R587). -/
def Block.tenantDisable (b : Block) (o : OrderIn) : OrderEnd :=
  let t := o.target
  if !opClear o [(0x20, 1)] then b.ended Codes.badRsvd
  else if (b.ten t).state ≠ TenState.on then b.ended Codes.tenantNotOn
  else
    let b := b.modTen t fun e => { e with
      state := .closing, closing := some ⟨bit (opAt o 0x20 1) 0, o.issuer, o.tag, false⟩ }
    let b := b.modPage t fun p => { p with enable := false }
    let mine := b.ctxs.filter fun c => c.2.tenant == t && !c.2.freeing
    let b := mine.foldl (fun (b : Block) (c : Nat × Ctx) => b.beginFree c.1 Codes.tenantClosed none) b
    ⟨((b.endPublish t).releaseObjects t).closeTenant t, none⟩

/-- TENANT_DISABLE (R587, R589). -/
def execTenantDisable (o : OrderIn) (s : State) : Host.Outcome State Fault Refusal :=
  s.run fun b => b.gate 4 o fun b => b.teamOrder 4 o fun b => b.tenantDisable o

/-- QUOTA_SET (R489, R492, R583). -/
def execQuotaSet (o : OrderIn) (s : State) : Host.Outcome State Fault Refusal :=
  s.run fun b => b.gate 5 o fun b =>
    let t := o.target
    let near := opAt o 0x34 1
    let hint := opAt o 0x35 1
    if !opClear o [(0x20, 64), (0x28, 64), (0x30, 32), (0x34, 8), (0x35, 3), (0x38, 64)] then b.ended Codes.badRsvd
    else if (b.ten t).state ≠ TenState.on then b.ended Codes.tenantNotOn
    else if 100 < near ∨ (bit hint 0 ∧ bit hint 1) then b.ended Codes.mtOperand
    else if hint ≠ 0 ∧ !(b.ten t).hintOk then b.ended Codes.mtHint
    else
      let q : Quota :=
        { hbm := opAt o 0x20 8, ddr := opAt o 0x28 8, pages := opAt o 0x30 4, slots := opAt o 0x38 8, near := near
          pinHbm := bit hint 0, preferDdr := bit hint 1, noMigrate := bit hint 2 }
      let b := b.modTen t fun e => { e with quota := q }
      let b := if near ≠ 0 ∧ (q.nearTiers (b.use t)).any id then b.attnTen attnQuotaNear t else b
      b.ended Codes.ok

/-- CH_REFILL (R514, R583). -/
def execChRefill (o : OrderIn) (s : State) : Host.Outcome State Fault Refusal :=
  s.run fun b => b.gate 6 o fun b =>
    let t := o.target
    let mode := opAt o 0x20 1
    let n := opAt o 0x28 8
    if !opClear o [(0x20, 8), (0x28, 64)] then b.ended Codes.badRsvd
    else if (b.ten t).state ≠ TenState.on then b.ended Codes.tenantNotOn
    else if (mode ≠ 1 ∧ mode ≠ 2) ∨ 2 ^ 48 ≤ n then b.ended Codes.sbOperand
    else
      (b.modTen t fun e => { e with
        chBudget := if mode = 1 then min (e.chBudget + n) (2 ^ 48 - 1) else n }).ended Codes.ok

/-- The adapter configuration that new admissions take (R427). -/
def Block.adapterNow (b : Block) (t : Nat) : AdapterVersion :=
  ((b.ten t).adapters.find? fun v => v.current).getD ⟨0, true, []⟩

/-- ADAPTER_SET applied on this module (R427). -/
def Block.adapterSet (b : Block) (o : OrderIn) : OrderEnd :=
  let t := o.target
  let g := opAt o 0x20 2
  let a := opAt o 0x22 2
  let now := b.adapterNow t
  let ok : Bool := match b.liveObj? t a with
    | some x => x.kind == 7 && (match x.decl with
      | some d => d.adapterFor == some g
      | none => false)
    | none => false
  let binds := (now.binds.filter fun p => p.1 != g) ++ (if a = 0 then [] else [(g, a)])
  let ver := (now.version + 1) % 65536
  if !opClear o [(0x20, 16), (0x22, 16)] then b.ended Codes.badRsvd
  else if (b.ten t).state ≠ TenState.on then b.ended Codes.tenantNotOn
  else if (b.generator t g).isNone ∨ (a ≠ 0 ∧ !ok) ∨ 8 < binds.length then b.ended Codes.adapterBad
  else if 4 ≤ (b.ten t).adapters.length ∨ (b.ten t).adapters.any (fun v => v.version == ver) then
    b.ended Codes.adapterBusy
  else
    let b := b.modTen t fun e => { e with
      adapters := (e.adapters.map fun v => { v with current := false }) ++ [⟨ver, true, binds⟩] }
    ⟨b.gcAdapters t, some (Codes.ok, ver)⟩

/-- ADAPTER_SET (R427 to R429). -/
def execAdapterSet (o : OrderIn) (s : State) : Host.Outcome State Fault Refusal :=
  s.run fun b => b.gate 8 o fun b => b.teamOrder 8 o fun b => b.adapterSet o

/-! ### End of a teardown -/

/-- TEARDOWN_COMPLETE (R149, R587): once none of the context's tasks is left on a coach, its request gets its last reply,
what the context holds is released and the entry is FREE; then CONTEXT_FREE is answered, or the tenant closes. -/
def execTeardownComplete (ctx : Nat) (s : State) : Host.Outcome State Fault Refusal :=
  s.run fun b =>
    let c := b.ctx ctx
    if c.state = .free ∨ !c.freeing ∨ b.onCoach ctx then b
    else
      let b := match c.req with
        | none => b
        | some r =>
          if r.finish.isSome then b
          else if r.admitted then (b.ctxReply ctx 4 c.freeCode false true c.pc 0 []).1
          else if r.queued then (b.ctxReply ctx 3 c.freeCode false true 0 0 []).1
          else (b.ctxReply ctx 3 Codes.badContext false true 0 0 []).1
      let b := b.wipeCtx ctx
      let b := match c.freeReply with
        | some (i, tag) => b.orderReply i tag Codes.ok 0
        | none => b
      b.closeTenant c.tenant

/-! ### Fences -/

/-- Bit of a memory unit in the masks of R632. -/
def memBit (u : UnitId) : Nat := 2 ^ (if u.kind = 2 then u.index else 8 + u.index)

/-- A fence or unfence of a memory unit that acts at the next bring-up (R622). An order for what is already recorded gives
FENCE_STATE; one that undoes a pending record removes it. -/
def Block.pendMem (b : Block) (u : UnitId) (fence : Bool) : OrderEnd :=
  let m : W32 := BitVec.ofNat 32 (memBit u)
  let pf := b.flash.pendFence &&& m != 0
  let pu := b.flash.pendUnfence &&& m != 0
  let recorded := (b.fenced u.kind u.index || pf) && !pu
  if recorded = fence then b.ended Codes.fenceState
  else if fence then
    ({ b with flash := { b.flash with
        pendUnfence := b.flash.pendUnfence &&& ~~~m
        pendFence := if pu then b.flash.pendFence else b.flash.pendFence ||| m } }).ended Codes.fencePending
  else
    ({ b with flash := { b.flash with
        pendFence := b.flash.pendFence &&& ~~~m
        pendUnfence := if pf then b.flash.pendUnfence else b.flash.pendUnfence ||| m } }).ended Codes.fencePending

/-- The running self-test of a unit. -/
def Block.testOf (b : Block) (u : UnitId) : Option TestRun := b.ost.tests.find? fun t => t.unit == u

/-- FENCE applied to a live unit (R618 to R623, R649, R660). -/
def Block.fenceNow (b : Block) (u : UnitId) (hard : Bool) (origin : Nat) : Block :=
  let b := match b.testOf u with
    | some t => b.endTest t Codes.fenceState
    | none => b
  let b := { b with ost := { b.ost with
    withdrawn := if u.kind = 1 then b.ost.withdrawn.filter (· != u.index) else b.ost.withdrawn } }
  (b.applyFence u hard origin).settleStops.retrySteps

/-- FENCE (R618 to R623). -/
def execFence (o : OrderIn) (s : State) : Host.Outcome State Fault Refusal :=
  s.run fun b => b.gate 12 o fun b =>
    let u := unitOf o.target
    let hard := bit (opAt o 0x20 1) 0
    if !opClear o [(0x20, 1)] then b.ended Codes.badRsvd
    else if (u.kind = 2 ∨ u.kind = 3) ∧ (o.issuer = .pf0 ∨ !hard) then b.pendMem u true
    else if b.fenced u.kind u.index then b.ended Codes.fenceState
    else (b.fenceNow u hard (fenceOrigin o.issuer)).ended Codes.ok

/-- UNFENCE (R618, R621, R622). A unit that has no test in service returns to service at once. -/
def execUnfence (o : OrderIn) (s : State) : Host.Outcome State Fault Refusal :=
  s.run fun b => b.gate 13 o fun b =>
    let u := unitOf o.target
    if !opClear o [] then b.ended Codes.badRsvd
    else if u.kind = 2 ∨ u.kind = 3 then b.pendMem u false
    else if (b.testOf u).isSome then b.ended Codes.deferred
    else if !b.fenced u.kind u.index then b.ended Codes.fenceState
    else if u.kind = 11 ∨ u.kind = 12 then ((b.unmarkFenced u (fenceOrigin o.issuer)).loopCheck).ended Codes.ok
    else
      let t : TestRun :=
        { unit := u, issuer := o.issuer, tag := o.tag, unfence := true, started := true, due := b.ost.tick
          silent := false }
      let lb := b.ost.lbCtrl.toNat
      let b := if bits lb 31 24 = u.kind ∧ bits lb 23 8 = u.index then b.stopLoop else b
      ⟨{ b with ost := { b.ost with tests := b.ost.tests ++ [t] } }, none⟩

/-! ### Self-tests (R657 to R660) -/

/-- A coach may be withdrawn now (R649): within WITHDRAW, and enough coaches stay. -/
def Block.mayWithdraw (b : Block) : Bool :=
  decide (b.ost.withdrawn.length < b.ost.calWithdraw) &&
  decide (b.tp.floor ≤ b.liveCoaches - b.ost.withdrawn.length - 1)

/-- Withdraw a coach for its test (R658). -/
def Block.startTest (b : Block) (t : TestRun) : Block :=
  let b := { b with ost := { b.ost with
    tests := (b.ost.tests.filter (· != t)) ++ [{ t with started := true }]
    withdrawn := b.ost.withdrawn ++ [t.unit.index] } }
  (b.softStopCoach t.unit.index).settleStops

/-- SELFTEST (R657, R658, R660). -/
def execSelftest (o : OrderIn) (s : State) : Host.Outcome State Fault Refusal :=
  s.run fun b => b.gate 14 o fun b =>
    let u := unitOf o.target
    let t : TestRun :=
      { unit := u, issuer := o.issuer, tag := o.tag, unfence := false, started := false, due := b.ost.tick, silent := false }
    if !opClear o [] then b.ended Codes.badRsvd
    else if [2, 3, 11, 12].contains u.kind then b.ended Codes.testKind
    else if u.kind = 1 then
      if b.fenced 1 u.index then b.ended (if (b.testOf u).isSome then Codes.deferred else Codes.fenceState)
      else if b.ost.withdrawn.contains u.index ∨ (b.testOf u).isSome then b.ended Codes.deferred
      else if b.mayWithdraw then ⟨b.startTest t, none⟩
      else ⟨{ b with ost := { b.ost with tests := b.ost.tests ++ [t] } }, none⟩
    else if (b.testOf u).isSome then b.ended Codes.deferred
    else if !b.fenced u.kind u.index then b.ended Codes.testLive
    else ⟨{ b with ost := { b.ost with tests := b.ost.tests ++ [{ t with started := true }] } }, none⟩

/-- What a test leaves in a coach: storage that reads zero and an empty kernel store (R657). -/
def Block.wipeCoach (b : Block) (k : Nat) : Block := (b.eraseMem (sramAddr k 0) 0x400000).modCoach k fun _ => Coach.new

/-- SELFTEST_COMPLETE (R621, R657 to R660): a test ends with its result. A coach test that could not start in time ends
with DEFERRED; one whose coach still saves its task goes on. -/
def execSelftestComplete (unit : UnitId) (pass : Bool) (s : State) : Host.Outcome State Fault Refusal :=
  s.run fun b =>
    match b.testOf unit with
    | none => b
    | some t =>
      if !t.started then
        if t.due + b.ost.calDeferMs * 500000 ≤ b.ost.tick then
          ({ (b.endTest t Codes.deferred) with
            ost := { (b.endTest t Codes.deferred).ost with deferCount := sat32 b.ost.deferCount 1 } }).log 0x0B 1
              Codes.deferred (some unit) none 0
        else if b.mayWithdraw then b.startTest t
        else b
      else if unit.kind = 1 ∧ (b.coach unit.index).task.isSome then b
      else
        let b := if unit.kind = 1 then b.wipeCoach unit.index else b
        if pass then
          let b := b.endTest t Codes.ok
          if t.unfence then b.unmarkFenced unit (fenceOrigin t.issuer) else b
        else
          let code := if t.unfence then Codes.fenceTest else Codes.testFail
          let b := (b.endTest t code).log 0x02 2 code (some unit) none 0
          if unit.kind = 1 ∧ !t.unfence then (b.applyFence unit true 3).settleStops else b

end Sys2Proof.Machine
end

