-- ==== Sys2Proof/Machine/Security.lean ====
section
/-!
DEFINITION. Machine/Security.lean: attestation over SPDM (R601 to R603), debug unlock (R604 to R606) and SEC_LOCK
(R597).
-/
namespace Sys2Proof.Machine

/-! ### SPDM responder (R602): request numbers as DMTF gives them stand for the request in the answer. -/

def spdmGetDigests : Nat := 0x81
def spdmGetCertificate : Nat := 0x82
def spdmChallenge : Nat := 0x83
def spdmGetVersion : Nat := 0x84
def spdmGetMeasurements : Nat := 0xE0
def spdmGetCapabilities : Nat := 0xE1
def spdmNegotiate : Nat := 0xE3

/-- Digest `k` in SHA-384 form over the image with content number `c`: 48 bytes that the spec does not give. -/
def digest (k c : Nat) : List Byte := (List.range 48).map fun i => Config.digest k c i

/-- The public alias key and the alias certificate that hold now (R601): what the device secret and the measurement of the running
image give; zero before the boot ROM has derived them. -/
def Block.aliasKey (b : Block) : List Byte :=
  match b.sec.alias_ with
  | some c => (List.range 96).map (Config.aliasByte 0 c)
  | none => List.replicate 96 0
def Block.aliasCert (b : Block) : List Byte :=
  match b.sec.alias_ with
  | some c => (List.range 48).map (Config.aliasByte 1 c)
  | none => List.replicate 48 0

/-- Content number of the image that runs, 0 before one does. -/
def Block.runs (b : Block) : Nat := b.sec.alias_.getD 0

/-- SPDM answers while the main domain runs and the configuration space answers (R68, R602). -/
def Block.onSpdm (b : Block) (f : Block → Block) : Block := if b.mainUp then f b else b

/-- An answer, or an error where the negotiation has not come that far. -/
def Block.spdmReply (b : Block) (ok : Bool) (req : Nat) (bytes : List Byte) (signed : Bool) : Block :=
  if ok then b.emit (.spdm req bytes signed) else b.emit (.spdmError req)

/-- GET_VERSION (R602): SPDM 1.2; it starts a negotiation afresh. -/
def execGetVersion (s : State) : Host.Outcome State Fault Refusal :=
  s.run fun b => b.onSpdm fun b =>
    ({ b with sec := { b.sec with spdmVersion := true, spdmCaps := false, spdmAlgs := false } }).spdmReply true
      spdmGetVersion [0x12] false

/-- GET_CAPABILITIES (R602). -/
def execGetCapabilities (s : State) : Host.Outcome State Fault Refusal :=
  s.run fun b => b.onSpdm fun b =>
    if b.sec.spdmVersion then
      ({ b with sec := { b.sec with spdmCaps := true, spdmAlgs := false } }).spdmReply true spdmGetCapabilities [] false
    else b.spdmReply false spdmGetCapabilities [] false

/-- NEGOTIATE_ALGORITHMS (R602): only ECDSA NIST P-384 and SHA-384 are supported; the operands are the requester's
algorithm masks, in which SPDM gives them bits 7 and 1. -/
def execNegotiateAlgorithms (asym hash : Nat) (s : State) : Host.Outcome State Fault Refusal :=
  s.run fun b => b.onSpdm fun b =>
    let ok := b.sec.spdmCaps && bit asym 7 && bit hash 1
    ({ b with sec := { b.sec with spdmAlgs := ok } }).spdmReply ok spdmNegotiate (le 4 0x80 ++ le 4 2) false

/-- GET_DIGESTS (R602): slot 0 alone holds a chain, which ends in the alias certificate. -/
def execGetDigests (s : State) : Host.Outcome State Fault Refusal :=
  s.run fun b => b.onSpdm fun b => b.spdmReply b.sec.spdmAlgs spdmGetDigests (digest 0 b.runs) false

/-- GET_CERTIFICATE (R601, R602). The chain's bytes are not given; the digest of its first two certificates and the alias
certificate stand for it. -/
def execGetCertificate (slot : Nat) (s : State) : Host.Outcome State Fault Refusal :=
  s.run fun b => b.onSpdm fun b => b.spdmReply (b.sec.spdmAlgs && slot == 0) spdmGetCertificate (digest 0 0 ++ b.aliasCert) false

/-- CHALLENGE (R602): signed with the alias key. -/
def execChallenge (slot : Nat) (s : State) : Host.Outcome State Fault Refusal :=
  s.run fun b => b.onSpdm fun b => b.spdmReply (b.sec.spdmAlgs && slot == 0) spdmChallenge (digest 0 b.runs) true

/-- HUB_STRAP_SAMPLE as a number (R74): the sample's bits [5:0]. -/
def Block.strapSample (b : Block) : Nat := b.clk.straps.toNat

/-- SHARED bits of the unit modes, after ISOLATE (R597): sketch engines, memory, strongbox, reins units 0 to 3. -/
def Block.sharedBits (b : Block) : Nat :=
  let f := fun (x : Bool) (i : Nat) => if x then 2 ^ i else 0
  f b.ske.shared 0 + f b.mt.shared 1 + f b.sb.shared 2 +
  natSum ((List.range 4).map fun q => f (b.rnuQ q).shared (3 + q))

/-- A measurement block of R603, by index. The order of the parts within blocks 5 and 7 is this model's. -/
def Block.measurement (b : Block) (i : Nat) : Option (List Byte) :=
  match i with
  | 1 => some (digest 1 0)
  | 2 => some (digest 2 b.runs)
  | 3 => some (digest 3 b.runs)
  | 4 => some (digest 4 b.runs)
  | 5 => some (le 4 b.sec.svn.toNat ++ le 4 b.flash.minSvn.toNat ++ le 4 (if b.sec.backup then 1 else 0))
  | 6 => some (le 1 b.sec.debug)
  | 7 => some (le 4 (if b.sec.isolate then 1 else 0) ++ le 4 b.sharedBits)
  | 8 => some (le 4 b.strapSample)
  | _ => none

/-- GET_MEASUREMENTS (R602, R603): one block by its index, or with 0xFF all of them; signed. -/
def execGetMeasurements (index : Nat) (s : State) : Host.Outcome State Fault Refusal :=
  s.run fun b => b.onSpdm fun b =>
    let bytes := if index = 0xFF then some ((List.range 8).filterMap fun i => b.measurement (i + 1)).flatten
      else b.measurement index
    match bytes with
    | some bs => b.spdmReply b.sec.spdmAlgs spdmGetMeasurements bs true
    | none => b.spdmReply false spdmGetMeasurements [] true

/-! ### Debug unlock (R604 to R606) -/

/-- DEBUG_CHALLENGE (R605 step 1): a fresh nonce for the asked level voids every earlier challenge; the answer holds the level, the
nonce, the digest of the device identity public key (`digest 6 0`) and the running SVN. -/
def execDebugChallenge (level : Nat) (s : State) : Host.Outcome State Fault Refusal :=
  s.run fun b =>
    if !b.clk.j1Up then b
    else if level = 1 ∨ level = 2 then
      let n := b.sec.drawn
      ({ b with sec := { b.sec with drawn := n + 1, challenge := some (level, n, b.ost.tick) } }).emit
        (.debugChallenge level n (digest 6 0) b.sec.svn)
    else b.emit .mctpError

/-- OCLK for which a nonce is valid (R605). -/
def nonceLife : Nat := 30000000000

/-- DEBUG_RESPONSE (R605 step 3, R606). -/
def execDebugResponse (r : DebugResp) (s : State) : Host.Outcome State Fault Refusal :=
  s.run fun b =>
    if !b.clk.j1Up then b
    else
      let good : Bool := match b.sec.challenge with
        | some (level, n, at_) => r.nonce == n && r.level == level && r.sigOk && r.moduleOk &&
            decide (b.ost.tick ≤ at_ + nonceLife)
        | none => false
      let used : Bool := match b.sec.challenge with
        | some (_, n, _) => r.nonce == n
        | none => false
      let b := if used then { b with sec := { b.sec with challenge := none } } else b
      if !good then (b.secEvent 5 none).emit (.debugResult Codes.secDebugBad)
      else if b.tenants.any fun e => e.2.state != .off then b.emit (.debugResult Codes.secTenantOn)
      else
        let b := if b.sec.debug < r.level then
            ({ b with sec := { b.sec with debug := r.level } }).secEvent 4 none
          else b
        b.emit (.debugResult Codes.ok)

/-! ### SEC_LOCK -/

/-- SEC_LOCK (R597, R608): W1S; ISOLATE makes every SHARED bit read 0. -/
def execSecLock (value : BitVec 64) (s : State) : Host.Outcome State Fault Refusal :=
  s.run fun b => b.hubWrite fun b =>
    if value.getLsbD 0 then
      { b with
        sec := { b.sec with isolate := true }
        ske := { b.ske with shared := false }
        mt := { b.mt with shared := false }
        sb := { b.sb with shared := false }
        rnu := tabMap (fun _ u => { u with shared := false }) b.rnu }
    else b

end Sys2Proof.Machine
end

