-- ==== Sys2Proof/Machine/Ostler.lean ====
section
/-!
DEFINITION. Machine/Ostler.lean: the Ostler's log and stamps (R637 to R641), its out-of-band interfaces and firmware
update (R643 to R647), calibration and maintenance slots (R648, R649).
-/
namespace Sys2Proof.Machine

/-! ### Log -/

/-- The 64 bytes of a log record (R639). DATA is by class; this model keeps one number in it. -/
def LogRec.bytes (r : LogRec) : List Byte :=
  le 8 r.seq ++ le 8 r.tick ++ le 4 r.aoCount ++ le 4 r.mainCount ++ le 8 r.prog ++ le 4 r.link ++
  le 4 (r.cls * 2 ^ 24 + r.severity * 2 ^ 16 + r.code.toNat) ++
  (match r.unit with
    | some u => le 4 (u.kind * 2 ^ 24 + u.index)
    | none => le 4 0) ++
  le 4 ((match r.tenant with
    | some t => t * 2 ^ 20 + 2 ^ 19
    | none => 0) + (if r.linkValid then 2 ^ 18 else 0)) ++ le 16 r.data

/-- Records that the log ring holds (R640). -/
def logSize : Nat := 524288

/-- The record of an event (R639). -/
def Block.logRec (b : Block) (e : LogEvent) : LogRec :=
  { seq := b.flash.nextSeq, tick := e.tick, aoCount := b.flash.aoCount, mainCount := e.mainCount, prog := e.prog
    link := (e.link.getD 0) % 2 ^ 32, cls := e.cls, severity := e.severity, code := e.code, unit := e.unit
    tenant := e.tenant, linkValid := e.link.isSome, data := e.data }

/-- LOG_RECORD (R640): the oldest event that waits is programmed. A record that finds the ring full of records above
OST_LOG_ACK overwrites the oldest. -/
def execLogRecord (s : State) : Host.Outcome State Fault Refusal :=
  s.run fun b =>
    match b.ost.events with
    | [] => b
    | e :: rest =>
      if !b.clk.j1Up then b else
      let r := b.logRec e
      let full := decide (logSize ≤ b.flash.log.length)
      let lost : Bool := full && match b.flash.log.head? with
        | some x => decide (b.ost.logAck.toNat < x.seq)
        | none => false
      let b' := { b with
        flash := { b.flash with
          log := (if full then b.flash.log.drop 1 else b.flash.log) ++ [r], nextSeq := b.flash.nextSeq + 1 }
        ost := { b.ost with
          events := rest
          logLost := if lost then sat32 b.ost.logLost 1 else b.ost.logLost
          logFullArmed := b.ost.logFullArmed && !lost } }
      let b' := if lost ∧ b.ost.logFullArmed then b'.attnPf0 attnLogFull else b'
      if 2 ≤ e.severity then b'.attnPf0 attnMgmtEvent else b'

/-- OST_LOG_ACK (R640, R650). -/
def execOstLogAck (value : BitVec 64) (s : State) : Host.Outcome State Fault Refusal :=
  s.run fun b => b.hubWrite fun b => { b with ost := { b.ost with logAck := value, logFullArmed := true } }

/-- OST_NOW (R638): a read returns TICK and latches the link cycle and the progress sequence number. -/
def execOstNow (s : State) : Host.Outcome State Fault Refusal :=
  s.run fun b =>
    if b.mainUp then
      { b with
        ost := { b.ost with
          nowLink := if b.cb.lockstep then BitVec.ofNat 64 b.cb.linkCycle else 0
          nowProg := BitVec.ofNat 64 b.tp.progSeq }
        host := { b.host with readData := BitVec.ofNat 64 b.ost.tick } }
    else b

/-- LOG_READ (R643): the records held among `count` from `seq` on. -/
def execLogRead (seq count : Nat) (s : State) : Host.Outcome State Fault Refusal :=
  s.run fun b =>
    if b.clk.j1Up then
      b.emit (.logRecords ((b.flash.log.filter fun r => decide (seq ≤ r.seq) && decide (r.seq < seq + count)).map LogRec.bytes))
    else b

/-! ### Out-of-band orders -/

/-- ORDER (R644): an out-of-band ORDER message, presented at Ostler rank. While the main domain is off, every order but
LOCATE ends at once. -/
def execOrder (record : List (BitVec 8)) (s : State) : Host.Outcome State Fault Refusal :=
  s.run fun b =>
    let r := (record ++ List.replicate 128 0).take 128
    let tag : W64 := BitVec.ofNat 64 (fieldAt r 8 8)
    let code := fieldAt r 0x10 2
    let o : OrderIn := ⟨.ostler, tag, fieldAt r 0x1F 1, fieldAt r 0x18 7, r.drop 0x20⟩
    if !b.clk.j1Up then b
    else if !recordRsvd r then b.orderReply .ostler tag Codes.badRsvd 0
    else if fieldAt r 0 1 = 1 then b.orderReply .ostler tag Codes.badOrder 0
    else if !recordOk r then b.orderReply .ostler tag Codes.badRecord 0
    else if !b.mainUp ∧ code ≠ 15 then b.orderReply .ostler tag Codes.ostMainOff 0
    else if code = 0 ∨ 15 < code then b.orderReply .ostler tag Codes.badOrder 0
    else { b with host := { b.host with port := b.host.port ++ [⟨code, o⟩] } }

/-! ### Firmware update (R645 to R647) -/

/-- An update state change, which is logged (R641). -/
def Block.setUpd (b : Block) (st : UpdState) (code : Code) : Block :=
  ({ b with ost := { b.ost with updState := st } }).log 0x07 0 code none none 0

/-- The image in the staging area is discarded. -/
def Block.dropStaged (b : Block) : Block :=
  { b with flash := { b.flash with images := tabErase b.flash.staging b.flash.images }, ost := { b.ost with updSvn := 0 } }

/-- A transfer may start (R645). -/
def Block.updFree (b : Block) : Bool := b.ost.updState = .idle || b.ost.updState = .staged

/-- The transfer that starts reads host memory, or comes out of band (R645). -/
def Block.fromHost (b : Block) (host : Bool) : Block := { b with ost := { b.ost with updHost := host } }

/-- FETCH of OST_UPD_CTRL (R645): PF0 starts a transfer. -/
def execFetch (s : State) : Host.Outcome State Fault Refusal :=
  s.run fun b => b.hubWrite fun b =>
    if b.updFree then (b.dropStaged.setUpd .receiving Codes.ok).fromHost true
    else { b with ost := { b.ost with updResult := 0x0B } }

/-- DISCARD of OST_UPD_CTRL (R645): a STAGED image returns to IDLE. -/
def execDiscard (s : State) : Host.Outcome State Fault Refusal :=
  s.run fun b => b.hubWrite fun b => if b.ost.updState = .staged then b.dropStaged.setUpd .idle Codes.ok else b

/-- PLDM_TYPE5_TRANSFER (R645): a transfer started out of band. -/
def execPldmTransfer (s : State) : Host.Outcome State Fault Refusal :=
  s.run fun b =>
    if !b.clk.j1Up then b
    else if b.updFree then ((b.dropStaged.setUpd .receiving Codes.ok).fromHost false).emit (.pldm Codes.ok)
    else ({ b with ost := { b.ost with updResult := 0x0B } }).emit (.pldm Codes.updBusy)

/-- TRANSFER_COMPLETE (R84, R645): the last byte arrived, or the transfer failed; the failure of a transfer from host memory is a
failed read completion. Each image has a content number of its own (R601). -/
def execTransferComplete (data : ImageData) (s : State) : Host.Outcome State Fault Refusal :=
  s.run fun b =>
    if !b.clk.j1Up ∨ b.ost.updState ≠ .receiving then b
    else
      match data with
      | .error => (if b.ost.updHost then b.dmaFailed else b).setUpd .idle Codes.ok
      | .image sigOk svn len test =>
        let i : Image := { sigOk := sigOk, svn := svn, len := len, testImage := test, content := b.epoch + 1 }
        ({ b.nextEpoch with flash := { b.flash with images := tabSet b.flash.staging i b.flash.images } }).setUpd .verifying Codes.ok

/-- VERIFICATION_COMPLETE (R645, R646). -/
def execVerificationComplete (s : State) : Host.Outcome State Fault Refusal :=
  s.run fun b =>
    if !b.clk.j1Up ∨ b.ost.updState ≠ .verifying then b
    else if b.imageOk b.flash.staging then
      let svn := (b.image b.flash.staging).svn
      ({ (b.setUpd .staged Codes.ok) with
        ost := { (b.setUpd .staged Codes.ok).ost with updResult := 0, updSvn := svn } }).attnPf0 attnUpdateStaged
    else
      let b := b.dropStaged.setUpd .idle Codes.updBad
      { b with ost := { b.ost with updResult := 0x0A } }

/-- The order that a PLDM ActivateFirmware request makes (R645). -/
def activateOrder : OrderIn := ⟨.ostler, 0, 1, 0, List.replicate 96 0⟩

/-- ACTIVATE_FIRMWARE (R645): an UPDATE_ACTIVATE at Ostler rank. -/
def execActivateFirmware (s : State) : Host.Outcome State Fault Refusal :=
  s.run fun b => b.gate 2 activateOrder fun b =>
    if b.ost.updState ≠ UpdState.staged then b.ended Codes.updNone else ⟨b.activate .ostler 0, none⟩

/-- CANCEL_UPDATE (R645): a STAGED image returns to IDLE. -/
def execCancelUpdate (s : State) : Host.Outcome State Fault Refusal :=
  s.run fun b =>
    if b.clk.j1Up ∧ b.ost.updState = .staged then (b.dropStaged.setUpd .idle Codes.ok).emit (.pldm Codes.ok) else b

/-! ### Calibration and maintenance -/

/-- A deferral (R649): counted and logged in class MAINT. -/
def Block.defer (b : Block) (u : UnitId) : Block :=
  ({ b with ost := { b.ost with deferCount := sat32 b.ost.deferCount 1 } }).log 0x0B 1 Codes.deferred (some u) none 0

/-- CALIBRATION_STEP (R648): a step that does not fit the rest of its window waits for the next one; one that fits no
window is deferred. -/
def execCalibrationStep (hbm : Bool) (chan slots : Nat) (s : State) : Host.Outcome State Fault Refusal :=
  s.run fun b =>
    let u : UnitId := ⟨if hbm then 2 else 3, chan⟩
    let budget := if hbm then 100000 else 5000
    let key := if hbm then chan else 8 + chan
    let w := b.ost.tick / 500000
    let used := if b.ost.calWindow = w then b.ost.calUsed else []
    if !b.mainUp ∨ unitCount u.kind ≤ chan ∨ b.fenced u.kind chan then b
    else if budget < slots then b.defer u
    else if budget < tabGet 0 key used + slots then b
    else { b with ost := { b.ost with calWindow := w, calUsed := tabMod 0 key (· + slots) used } }

/-- MAINTENANCE_WITHDRAWAL (R649). It waits while the limits hold it, and is deferred once DEFER_MS is over. -/
def execMaintenanceWithdrawal (coach dueTick : Nat) (s : State) : Host.Outcome State Fault Refusal :=
  s.run fun b =>
    let u : UnitId := ⟨1, coach⟩
    if !b.mainUp ∨ 512 ≤ coach ∨ b.fenced 1 coach ∨ b.ost.withdrawn.contains coach ∨ (b.testOf u).isSome then b
    else if b.mayWithdraw then
      ({ b with ost := { b.ost with withdrawn := b.ost.withdrawn ++ [coach] } }).softStopCoach coach
    else if dueTick + b.ost.calDeferMs * 500000 ≤ b.ost.tick then b.defer u
    else b

/-- WITHDRAWAL_END (R649): the coach returns to service. -/
def execWithdrawalEnd (coach : Nat) (s : State) : Host.Outcome State Fault Refusal :=
  s.run fun b =>
    if b.ost.withdrawn.contains coach ∧ (b.testOf ⟨1, coach⟩).isNone then
      { b with ost := { b.ost with withdrawn := b.ost.withdrawn.filter (· != coach) } }
    else b

end Sys2Proof.Machine
end

