-- ==== Sys2Proof/Machine/Power.lean ====
section
/-!
DEFINITION. Machine/Power.lean: errors and scrubbing (R611 to R617), power capping, thermal response, shutdown and
restart (R625 to R633), and the sensors (R630, R642).
-/
namespace Sys2Proof.Machine

/-! ### Errors -/

/-- The memory unit that holds a device address (R464, R465): 4 KiB unit u of a quarter's part lies in the (u mod c)-th of its
c live units (R624). None outside the two ranges, or where no unit is live. -/
def Block.memUnitOf (b : Block) (a : Nat) : Option UnitId :=
  let pick := fun (hbm : Bool) (kind q d : Nat) =>
    let l := b.liveUnits hbm q
    (l[d / 4096 % l.length]?).map fun i => (⟨kind, i⟩ : UnitId)
  if 0x0100_0000_0000 ≤ a ∧ a ≤ 0x0147_FFFF_FFFF then
    let d := a - 0x0100_0000_0000
    pick true 2 (d / 0x12_0000_0000) (d % 0x12_0000_0000)
  else if inDdr a then
    let d := a - 0x0200_0000_0000
    pick false 3 (d / 0x90_0000_0000) (d % 0x90_0000_0000)
  else none

/-- Index of a memory unit in the counts: 0 to 7 HBM, 8 to 31 DDR. -/
def memIndex (u : UnitId) : Nat := if u.kind = 2 then u.index else 8 + u.index

/-- Device address behind a context-range address (R485): the pool page that the map entry names lies at the base of its
quarter's part of the tier (a DESIGN CHOICE of the placement). -/
def Block.physical (b : Block) (a : Nat) : Nat :=
  if a < ctxRangeBase then a
  else
    let off := a - ctxRangeBase
    match tabFind? (off / 65536) b.mt.map with
    | some e =>
      partBase e.hbm e.quarter + e.page * 65536 + off % 65536
    | none => a

/-- Regions of R467 at the top of each quarter's part, in the table's order from the base of the reserved part (a DESIGN
CHOICE of the placement). -/
inductive Region
  | sbMap | save | prefixIndex | staging | directories | pageMap | maskCaches
deriving DecidableEq, Repr

/-- The reserved region that holds a device address, in its quarter's live part (R467, R624), with the quarter and the place in the
quarter's share. -/
def Block.regionOf (b : Block) (a : Nat) : Option (Region × Nat × Nat) :=
  if 0x0100_0000_0000 ≤ a ∧ a ≤ 0x0147_FFFF_FFFF then
    let q := (a - 0x0100_0000_0000) / 0x12_0000_0000
    let d := (a - 0x0100_0000_0000) % 0x12_0000_0000
    let base := b.partSize true q - reservedPart true
    if d < base ∨ b.partSize true q ≤ d then none
    else if d < base + 134217728 then some (.directories, q, d - base)
    else if d < base + 268435456 then some (.pageMap, q, d - base - 134217728)
    else some (.maskCaches, q, d - base - 268435456)
  else if inDdr a then
    let q := (a - 0x0200_0000_0000) / 0x90_0000_0000
    let d := (a - 0x0200_0000_0000) % 0x90_0000_0000
    let base := b.partSize false q - reservedPart false
    if d < base ∨ b.partSize false q ≤ d then none
    else if d < base + 15000000000 then some (.sbMap, q, d - base)
    else if d < base + 15000000000 + 2147483648 then some (.save, q, d - base - 15000000000)
    else if d < base + 15000000000 + 2147483648 + 8388608 then some (.prefixIndex, q, d - base - 15000000000 - 2147483648)
    else some (.staging, q, d - base - 15000000000 - 2147483648 - 8388608)
  else none

/-- The module's own fence: a FENCE order of the Ostler at the order port (R616). -/
def Block.ownFence (b : Block) (u : UnitId) (hard : Bool) : Block :=
  let o : OrderIn := ⟨.ostler, 0, 5, u.kind * 2 ^ 48 + u.index, le 1 (if hard then 1 else 0) ++ List.replicate 95 0⟩
  b.gate 12 o fun b =>
    if b.fenced u.kind u.index then b.ended Codes.fenceState else (b.fenceNow u hard 3).ended Codes.ok

/-- What a poisoned line of a reserved region does (R614), by the region, the quarter and the place in its share. The prefix index
lies in entry order over the quarters, two entries to a line (R423); the places of save images, mask cache slots and staging entries
stand in no rule, so that every one of the quarter's unit goes, and every save image (DESIGN CHOICE, assumption 135). The lines of
the map are read again from the flash. -/
def Block.poisonRegion (b : Block) (r : Region) (q off : Nat) (u : UnitId) : Block :=
  match r with
  | .sbMap => b
  | .save =>
    { b with tp := { b.tp with ready := tabMap (fun _ l => l.map fun t => { t with image := none }) b.tp.ready }
             coaches := tabMap (fun _ k => { k with task := k.task.map fun t => { t with image := none } }) b.coaches }
  | .prefixIndex =>
    let e := (q * 8388608 + off) / 64 * 2
    (b.dropPrefix e).dropPrefix (e + 1)
  | .staging => b.abandonLane q true
  | .maskCaches => b.modRnu q fun x => { x with cache := [] }
  | .directories => b.memoryLoss u
  | .pageMap => b.memoryLoss u

/-- Contexts whose block table, token log, text record or next-token record holds a line, and those whose frames do
(R613). -/
def Block.poisonCtx (b : Block) (a : Nat) : Block :=
  if a < ctxRangeBase then b
  else
    let p := (a - ctxRangeBase) / 65536
    let b := (b.ctxs.filter fun c => c.2.pages.contains p && !c.2.freeing).foldl
      (fun (b : Block) (c : Nat × Ctx) => b.beginFree c.1 Codes.ctxLost none) b
    b

/-- A coach fault (R617, R659): a hard fence at once; a running test of the coach ends with TEST_FAIL. -/
def Block.coachFault (b : Block) (coach : Nat) : Block :=
  let u : UnitId := ⟨1, coach⟩
  let b := ({ b with rel := { b.rel with errUncorr := sat32 b.rel.errUncorr 1 } }).log 0x03 2 Codes.ok (some u) none coach
  let b := match b.testOf u with
    | some t => if t.started then (b.endTest t Codes.testFail).log 0x02 2 Codes.testFail (some u) none 0 else b
    | none => b
  if b.fenced 1 coach then b else b.ownFence u true

/-- The coach in whose SRAM window a device address lies (R464). -/
def coachOf (a : Nat) : Option Nat := if a / 0x40_0000 < 512 ∧ a % 0x40_0000 < 0x30_0000 then some (a / 0x40_0000) else none

/-- An uncorrectable line (R611 to R616), by its device address, outside coach SRAM. -/
def Block.lineLost (b : Block) (a : Nat) : Block :=
  let phys := b.physical a
  let b := { b with rel := { b.rel with
    errUncorr := sat32 b.rel.errUncorr 1
    poison := if b.rel.poison.contains (a / 64) then b.rel.poison else b.rel.poison ++ [a / 64] } }
  match b.memUnitOf phys with
  | none => b.log 0x03 2 Codes.memPoison none none a
  | some u =>
    let b := b.log 0x03 2 Codes.memPoison (some u) none a
    let now := b.clk.cclk
    let recent := (tabGet [] (memIndex u) b.rel.uncorr).filter fun t => decide (now < t + 2 ^ 36)
    let b := { b with rel := { b.rel with uncorr := tabSet (memIndex u) (recent ++ [now]) b.rel.uncorr } }
    let b := match b.regionOf phys with
      | some (r, q, off) => b.poisonRegion r q off u
      | none => b.poisonCtx a
    if 4 ≤ recent.length + 1 ∧ !b.fenced u.kind u.index then b.ownFence u true else b

/-- An uncorrectable error by its device address: in coach SRAM a coach fault (R611, R617), elsewhere a poisoned line. -/
def Block.uncorrectable (b : Block) (a : Nat) : Block :=
  match coachOf a with
  | some k => b.coachFault k
  | none => b.lineLost a

/-- An error that was corrected (R611, R615, R616): counted for the module, and for the coach or the memory unit. -/
def Block.correctable (b : Block) (a : Nat) : Block :=
  let b := { b with rel := { b.rel with errCorr := sat32 b.rel.errCorr 1 } }
  match coachOf a with
  | some k => { b with rel := { b.rel with coachCe := tabMod 0 k (· + 1) b.rel.coachCe } }
  | none => match b.memUnitOf (b.physical a) with
    | some u => { b with rel := { b.rel with memCe := tabMod 0 (memIndex u) (· + 1) b.rel.memCe } }
    | none => b

/-- SCRUB (R611, R612, R615, R616): reads find lines that were corrected or are uncorrectable. Lines are named by device address; a
context-range page's line by its context-range address, a coach's SRAM by its window. -/
def execScrub (corrected uncorrectable : List Nat) (s : State) : Host.Outcome State Fault Refusal :=
  s.run fun b =>
    if !b.mainUp then b
    else uncorrectable.foldl Block.uncorrectable (corrected.foldl Block.correctable b)

/-- CE_PERIOD (R616): the counts of the period are logged, a coach at its limit gets a soft fence, a memory unit at its
limit sets MGMT_EVENT, and the counts start again. -/
def execCePeriod (s : State) : Host.Outcome State Fault Refusal :=
  s.run fun b =>
    if !b.mainUp then b
    else
      let mem := b.rel.memCe
      let coach := b.rel.coachCe
      let b := mem.foldl (fun (b : Block) (p : Nat × Nat) =>
        let u : UnitId := if p.1 < 8 then ⟨2, p.1⟩ else ⟨3, p.1 - 8⟩
        let b := b.log 0x04 (if b.rel.ceLimitMem ≤ p.2 then 2 else 0) Codes.ok (some u) none p.2
        if b.rel.ceLimitMem ≤ p.2 then b.attnPf0 attnMgmtEvent else b) b
      let b := coach.foldl (fun (b : Block) (p : Nat × Nat) =>
        let b := b.log 0x04 0 Codes.ok (some ⟨1, p.1⟩) none p.2
        if b.rel.ceLimitCoach ≤ p.2 ∧ !b.fenced 1 p.1 then b.ownFence ⟨1, p.1⟩ false else b) b
      { b with rel := { b.rel with memCe := [], coachCe := [] } }

/-- COACH_FAULT (R617, R659). -/
def execCoachFault (coach : Nat) (s : State) : Host.Outcome State Fault Refusal :=
  s.run fun b => if !b.mainUp ∨ 512 ≤ coach then b else b.coachFault coach

/-! ### Power capping and thermal response -/

/-- The limit in force in watts (R625): the lower of PWR_CAP.LIMIT and 90 A at the input voltage. -/
def Rel.limit (r : Rel) : Nat := min r.limitNow (90 * r.vin.toNat / 100)

/-- A change of the skip levels; THERMAL is set when s rises from 0 (R628). -/
def Block.setSkips (b : Block) (p t : Nat) : Block :=
  let was := max b.rel.sPower b.rel.sThermal
  let b := { b with rel := { b.rel with sPower := p, sThermal := t } }
  if was = 0 ∧ 0 < max p t then (b.attnAll attnThermal).log 0x05 1 Codes.ok none none (max p t) else b

/-- POWER_INTERVAL (R625, R628, R629): the end of an interval of 10 µs, with the input voltage and current in the units
of PWR_INPUT and the average power in watts. -/
def execPowerInterval (vin iin watts : Nat) (s : State) : Host.Outcome State Fault Refusal :=
  s.run fun b =>
    if !b.mainUp then b
    else
      let r := { b.rel with vin := BitVec.ofNat 16 vin, iin := BitVec.ofNat 16 iin, power := BitVec.ofNat 16 watts
                            limitNow := b.rel.capLimit }
      let lim := r.limit
      let hot := decide (lim < watts)
      let p := if hot then min 56 (r.sPower + 2) else if 100 * watts < 97 * lim then r.sPower - 1 else r.sPower
      let stuck := hot && r.sPower == 56
      let run := if stuck then r.capFailRun + 1 else 0
      let fail := decide (10000 ≤ run)
      let r := { r with
        capFailRun := run
        over4000Run := if fail && decide (4000 < watts) then r.over4000Run + 1 else 0
        overVRun := if 6200 < vin then r.overVRun + 1 else 0
        overIRun := if 9000 < iin ∧ r.skip = 56 then r.overIRun + 1 else 0
        capFail := r.capFail || fail }
      let first := fail && !b.rel.capFail
      let b := ({ b with rel := r }).setSkips p r.sThermal
      if first then (b.attnPf0 attnMgmtEvent).log 0x05 2 Codes.ok none none watts else b

/-- Reading of a sensor, none where it reads 0x8000 (R642). -/
def Rel.sensor (r : Rel) (n : Nat) : Option Int :=
  match tabFind? n r.sensors with
  | some v => if v = 0x8000 then none else some v.toInt
  | none => none

/-- Throttle and shutdown thresholds in °C of a temperature sensor (R630). -/
def thresholds (n : Nat) : Option (Int × Int) :=
  if n < 20 then some (95, 110)
  else if n < 28 then some (95, 105)
  else if n < 52 then some (85, 95)
  else if n < 84 then some (70, 85)
  else if n = 84 then some (47, 55)
  else if n = 85 then some (60, 68)
  else none

/-- The sensor stands above its throttle threshold; the flow below 5.0 L/min (R628, R630). -/
def Rel.throttles (r : Rel) (n : Nat) : Bool :=
  match r.sensor n with
  | none => false
  | some v =>
    match thresholds n with
    | some (t, _) => decide (16 * t < v)
    | none => n == 86 && decide (v < 500)

/-- At least `k` kelvin below the throttle threshold; the flow at least `f` in 0.01 L/min. -/
def Rel.coolBy (r : Rel) (k f : Int) (n : Nat) : Bool :=
  match r.sensor n with
  | none => true
  | some v =>
    match thresholds n with
    | some (t, _) => decide (v ≤ 16 * (t - k))
    | none => n != 86 || decide (f ≤ v)

/-- Sensors of R630 that throttle. -/
def throttleSensors : List Nat := List.range 87

/-- THERMAL_INTERVAL (R628): every 1 ms. -/
def execThermalInterval (s : State) : Host.Outcome State Fault Refusal :=
  s.run fun b =>
    if !b.mainUp then b
    else
      let r := b.rel
      let t := if throttleSensors.any r.throttles then min 56 (r.sThermal + 2)
        else if throttleSensors.all (r.coolBy 3 500) then r.sThermal - 1 else r.sThermal
      b.setSkips r.sPower t

/-- SENSOR_SAMPLE (R630, R642): the Ostler samples a group of sensors; crossings of a throttle threshold are logged. A
cage without a plugged module, and sensors 0 to 83 while the main domain is off, read 0x8000. -/
def execSensorSample (readings : List (Nat × BitVec 16)) (s : State) : Host.Outcome State Fault Refusal :=
  s.run fun b =>
    if !b.clk.j1Up then b
    else
      let value := fun (p : Nat × BitVec 16) =>
        if (88 ≤ p.1 ∧ !(tabGet Cage.new (p.1 - 88) b.ost.cages).plugged) ∨ (p.1 < 84 ∧ !b.clk.mainOn) then (0x8000 : BitVec 16)
        else p.2
      let rs := readings.filter fun p => decide (p.1 < 100) && p.1 != 87
      let sens := rs.foldl (fun t p => tabSet p.1 (value p) t) b.rel.sensors
      let r := { b.rel with sensors := sens }
      let flow := rs.any fun p => p.1 == 86
      let low : Bool := match r.sensor 86 with
        | some v => decide (v < 300)
        | none => false
      let r := { r with
        hot := (throttleSensors.filter (· != 86)).any r.throttles
        flowLow := r.throttles 86
        lowFlowMs := if flow then (if low then r.lowFlowMs + 1 else 0) else r.lowFlowMs }
      let crossed := (rs.map (·.1)).filter fun n => r.throttles n && !b.rel.throttles n
      crossed.foldl (fun (b : Block) n => b.log 0x05 1 Codes.ok none none n) { b with rel := r }

/-- LEAK_SENSE (R40, R630): logged, MGMT_EVENT, and PWR_STATUS.LEAK. -/
def execLeakSense (s : State) : Host.Outcome State Fault Refusal :=
  s.run fun b =>
    if !b.clk.j1Up then b
    else (({ b with rel := { b.rel with leak := true } }).attnPf0 attnMgmtEvent).log 0x05 2 Codes.ok none none 87

/-! ### Shutdown and restart -/

/-- A cause of a shutdown holds: a sensor beyond its shutdown threshold, overvoltage, overcurrent, power, or a hub fault
(R625, R627, R629, R630). -/
def Rel.shutdownDue (r : Rel) (cause : Nat) : Bool :=
  if cause = 0xF0 then decide (100 ≤ r.overVRun)
  else if cause = 0xF1 then decide (1000 ≤ r.overIRun)
  else if cause = 0xF2 then decide (100000 ≤ r.over4000Run)
  else if cause = 0xF3 then true
  else if cause = 86 then decide (10000 ≤ r.lowFlowMs)
  else
    match r.sensor cause, thresholds cause with
    | some v, some (_, t) => decide (16 * t < v)
    | _, _ => false

/-- SHUTDOWN (R631): LEAVE, the log and PWR_LAST_SHUTDOWN, then main conversion stops. -/
def execShutdown (cause : Nat) (s : State) : Host.Outcome State Fault Refusal :=
  s.run fun b =>
    if !b.clk.mainOn ∨ !b.rel.shutdownDue cause then b
    else
      let b := if b.inTeam then b.cbEmit .leave else b
      let n := min 255 (b.rel.lastShutdown.toNat % 256 + 1)
      let b := { b with rel := { b.rel with
        lastShutdown := BitVec.ofNat 16 (cause * 256 + n), shutHold := true, shutTick := b.ost.tick } }
      (b.log 0x05 3 Codes.ok none none cause).losePower

/-- AUTO_RESTART (R631): 60 s after a shutdown, with every sensor cool and the input in range, main conversion starts
again. The device secret is taken to reconstruct as it last did. -/
def execAutoRestart (s : State) : Host.Outcome State Fault Refusal :=
  s.run fun b =>
    let r := b.rel
    if b.clk.j1Up ∧ b.clk.mated ∧ r.shutHold ∧ r.autoRestart ∧ r.shutTick + 30000000000 ≤ b.ost.tick ∧
        throttleSensors.all (r.coolBy 10 600) ∧ 4800 ≤ r.vin.toNat ∧ r.vin.toNat ≤ 6000 then
      b.powerMain causeShutdown b.sec.pufOk
    else b

end Sys2Proof.Machine
end

