-- ==== Sys2Proof/Machine/TestUnit.lean ====
section
/-!
DEFINITION. Machine/TestUnit.lean: the registers of loopbacks (R653 to R656, R665) and boundary scan (R661, R662).
-/
namespace Sys2Proof.Machine

/-- The bits of HUB_LB_CTRL that the register holds (R665). -/
def lbMask : W64 := 0xFFFFFFFF

/-- HUB_LB_CTRL (R653 to R656): PF0's write in the CCLK of a write of the Ostler is discarded. -/
def execHubLbCtrl (byOstler : Bool) (value : BitVec 64) (s : State) : Host.Outcome State Fault Refusal :=
  s.run fun b =>
    let v := value &&& lbMask
    let n := v.toNat
    if !b.mainUp ∨ (b.clk.resetNow ∧ !byOstler) ∨ (!byOstler ∧ b.ost.lbOstlerCclk = some b.clk.cclk) then b
    else
      let b := if byOstler then { b with ost := { b.ost with lbOstlerCclk := some b.clk.cclk } } else b
      if !v.getLsbD 0 then { b with ost := { b.ost with lbCtrl := v, lbLock := 0 } }
      else if b.loopOk (bits n 31 24) (bits n 23 8) (bits n 7 5) ∧ bits n 4 1 ≤ 3 then
        { b with ost := { b.ost with lbCtrl := v, lbLock := 0 } }
      else { b with ost := { b.ost with lbRefused := true, lbRefusedNow := true } }

/-- HUB_LB_STATUS (R11, R665): REFUSED is W1C. -/
def execHubLbStatus (value : BitVec 64) (s : State) : Host.Outcome State Fault Refusal :=
  s.run fun b => b.hubWrite fun b =>
    if value.getLsbD 16 then
      let b := b.afterEvents b.ost.lbRefusedNow
      { b with ost := { b.ost with lbRefused := false } }
    else b

/-- LOOPBACK_LANE_LOCK (R655): a lane gains or loses lock, with the errors counted since. -/
def execLoopbackLaneLock (lane : Nat) (locked : Bool) (errors : Nat) (s : State) : Host.Outcome State Fault Refusal :=
  s.run fun b =>
    if b.ost.lbCtrl.getLsbD 0 ∧ lane < 16 then
      let m : BitVec 16 := BitVec.ofNat 16 (2 ^ lane)
      { b with ost := { b.ost with
          lbLock := if locked then b.ost.lbLock ||| m else b.ost.lbLock &&& ~~~m
          lbErr := sat32 b.ost.lbErr errors } }
    else b

/-- LOOPBACK_FOLLOWER (R654): the host link partner directs the link into loopback, or out of it. -/
def execLoopbackFollower (on : Bool) (s : State) : Host.Outcome State Fault Refusal :=
  s.run fun b => if b.mainUp then { b with ost := { b.ost with follower := on } } else b

/-! ### Boundary scan -/

/-- The scan operation in progress ends (R662), when it is the one that HUB_SCAN_CTRL started. -/
def Block.scanEnd (b : Block) (op : Nat) (data : W64) : Block :=
  if b.testEntry ∧ b.ost.scanBusy ∧ b.ost.scanOp = op then
    { b with ost := { b.ost with scanBusy := false, scanData := data, scanCount := b.ost.scanCount + 1 } }
  else b

/-- The bits shifted out by the next shift of LENGTH bits: what the chain held (R662), a free value. -/
def Block.shiftedOut (b : Block) : W64 :=
  Config.scanBits b.ost.scanCount &&& BitVec.ofNat 64 (2 ^ b.ost.scanLen - 1)

/-- SCAN_RESET (R662). -/
def execScanReset (s : State) : Host.Outcome State Fault Refusal := s.run fun b => b.scanEnd 0 b.ost.scanData

/-- SHIFT_IR (R662). -/
def execShiftIr (s : State) : Host.Outcome State Fault Refusal := s.run fun b => b.scanEnd 1 b.shiftedOut

/-- SHIFT_DR (R662). -/
def execShiftDr (s : State) : Host.Outcome State Fault Refusal := s.run fun b => b.scanEnd 2 b.shiftedOut

/-- RUN_IDLE (R662). -/
def execRunIdle (s : State) : Host.Outcome State Fault Refusal := s.run fun b => b.scanEnd 3 b.ost.scanData

end Sys2Proof.Machine
end

