-- ==== Sys2Proof/Machine/Counters.lean ====
section
/-!
DEFINITION. Machine/Counters.lean: reads of the RC registers (R11): a read returns the count and clears it.
-/
namespace Sys2Proof.Machine

/-- A read of the RC register at offset `off` of the hub region (R11): it returns the count and clears it. An event of the CCLK of
the read follows it in the queue, and so remains for the next read. -/
def Block.readClear (b : Block) (off : Nat) (get : Block → W32) (clear : Block → Block) : Block :=
  if b.mainUp then
    let b := b.afterEvents (get b != b.rcOld off)
    let b' := clear b
    { b' with host := { b'.host with readData := (get b).setWidth 64, rcBase := tabErase off b'.host.rcBase } }
  else b

/-- HUB_ORDER_APPLIED (R84, R115). -/
def execHubOrderApplied (s : State) : Host.Outcome State Fault Refusal :=
  s.run fun b => b.readClear 0x0008 (fun b => b.host.orderApplied) fun b =>
    { b with host := { b.host with orderApplied := 0 } }

/-- HUB_ORDER_CONFLICT (R84, R115). -/
def execHubOrderConflict (s : State) : Host.Outcome State Fault Refusal :=
  s.run fun b => b.readClear 0x0010 (fun b => b.host.orderConflict) fun b =>
    { b with host := { b.host with orderConflict := 0 } }

/-- HUB_DMA_ERR (R84). -/
def execHubDmaErr (s : State) : Host.Outcome State Fault Refusal :=
  s.run fun b => b.readClear 0x0018 (fun b => b.host.dmaErr) fun b =>
    { b with host := { b.host with dmaErr := 0 } }

/-- TP_ADMIT_COUNT (R176). -/
def execTpAdmitCount (s : State) : Host.Outcome State Fault Refusal :=
  s.run fun b => b.readClear 0x2030 (fun b => b.tp.admitCount) fun b =>
    { b with tp := { b.tp with admitCount := 0 } }

/-- TP_DENY_COUNT (R176). -/
def execTpDenyCount (s : State) : Host.Outcome State Fault Refusal :=
  s.run fun b => b.readClear 0x2038 (fun b => b.tp.denyCount) fun b =>
    { b with tp := { b.tp with denyCount := 0 } }

/-- TP_PREEMPT_COUNT (R176). -/
def execTpPreemptCount (s : State) : Host.Outcome State Fault Refusal :=
  s.run fun b => b.readClear 0x2040 (fun b => b.tp.preemptCount) fun b =>
    { b with tp := { b.tp with preemptCount := 0 } }

/-- TP_SWAP_OUT_COUNT (R176). -/
def execTpSwapOutCount (s : State) : Host.Outcome State Fault Refusal :=
  s.run fun b => b.readClear 0x2048 (fun b => b.tp.swapOutCount) fun b =>
    { b with tp := { b.tp with swapOutCount := 0 } }

/-- TP_SWAP_IN_COUNT (R176). -/
def execTpSwapInCount (s : State) : Host.Outcome State Fault Refusal :=
  s.run fun b => b.readClear 0x2050 (fun b => b.tp.swapInCount) fun b =>
    { b with tp := { b.tp with swapInCount := 0 } }

/-- TP_DROP_COUNT (R176). -/
def execTpDropCount (s : State) : Host.Outcome State Fault Refusal :=
  s.run fun b => b.readClear 0x2058 (fun b => b.tp.dropCount) fun b =>
    { b with tp := { b.tp with dropCount := 0 } }

/-- SKE_PASS_COUNT (R303). -/
def execSkePassCount (s : State) : Host.Outcome State Fault Refusal :=
  s.run fun b => b.readClear 0x3018 (fun b => b.ske.passCount) fun b =>
    { b with ske := { b.ske with passCount := 0 } }

/-- SKE_ROW_COUNT (R303). -/
def execSkeRowCount (s : State) : Host.Outcome State Fault Refusal :=
  s.run fun b => b.readClear 0x3020 (fun b => b.ske.rowCount) fun b =>
    { b with ske := { b.ske with rowCount := 0 } }

/-- SLU_CMD_COUNT of a quarter (R337). -/
def execSluCmdCount (quarter : Nat) (s : State) : Host.Outcome State Fault Refusal :=
  s.run fun b => b.readClear (0x4008 + 0x40 * quarter) (fun b => (b.sluQ quarter).cmdCount) fun b =>
    b.modSlu quarter fun u => { u with cmdCount := 0 }

/-- SLU_ELEM_COUNT of a quarter (R337). -/
def execSluElemCount (quarter : Nat) (s : State) : Host.Outcome State Fault Refusal :=
  s.run fun b => b.readClear (0x4010 + 0x40 * quarter) (fun b => (b.sluQ quarter).elemCount) fun b =>
    b.modSlu quarter fun u => { u with elemCount := 0 }

/-- SLU_REFUSE_COUNT of a quarter (R337). -/
def execSluRefuseCount (quarter : Nat) (s : State) : Host.Outcome State Fault Refusal :=
  s.run fun b => b.readClear (0x4018 + 0x40 * quarter) (fun b => (b.sluQ quarter).refuseCount) fun b =>
    b.modSlu quarter fun u => { u with refuseCount := 0 }

/-- TXU_SEG_COUNT (R401). -/
def execTxuSegCount (s : State) : Host.Outcome State Fault Refusal :=
  s.run fun b => b.readClear 0x5010 (fun b => b.txu.segCount) fun b =>
    { b with txu := { b.txu with segCount := 0 } }

/-- TXU_DETOK_COUNT (R401). -/
def execTxuDetokCount (s : State) : Host.Outcome State Fault Refusal :=
  s.run fun b => b.readClear 0x5018 (fun b => b.txu.detokCount) fun b =>
    { b with txu := { b.txu with detokCount := 0 } }

/-- RNU_HIT_COUNT of a quarter (R401). -/
def execRnuHitCount (quarter : Nat) (s : State) : Host.Outcome State Fault Refusal :=
  s.run fun b => b.readClear (0x5110 + 0x40 * quarter) (fun b => (b.rnuQ quarter).hit) fun b =>
    b.modRnu quarter fun u => { u with hit := 0 }

/-- RNU_MISS_COUNT of a quarter (R401). -/
def execRnuMissCount (quarter : Nat) (s : State) : Host.Outcome State Fault Refusal :=
  s.run fun b => b.readClear (0x5118 + 0x40 * quarter) (fun b => (b.rnuQ quarter).miss) fun b =>
    b.modRnu quarter fun u => { u with miss := 0 }

/-- CTX_PREFIX_HIT_COUNT (R432). -/
def execCtxPrefixHitCount (s : State) : Host.Outcome State Fault Refusal :=
  s.run fun b => b.readClear 0x6008 (fun b => b.store.hitCount) fun b =>
    { b with store := { b.store with hitCount := 0 } }

/-- CTX_PREFIX_MISS_COUNT (R432). -/
def execCtxPrefixMissCount (s : State) : Host.Outcome State Fault Refusal :=
  s.run fun b => b.readClear 0x6010 (fun b => b.store.missCount) fun b =>
    { b with store := { b.store with missCount := 0 } }

/-- CTX_DRAFTED_COUNT (R432). -/
def execCtxDraftedCount (s : State) : Host.Outcome State Fault Refusal :=
  s.run fun b => b.readClear 0x6018 (fun b => b.store.draftedCount) fun b =>
    { b with store := { b.store with draftedCount := 0 } }

/-- CTX_ACCEPTED_COUNT (R432). -/
def execCtxAcceptedCount (s : State) : Host.Outcome State Fault Refusal :=
  s.run fun b => b.readClear 0x6020 (fun b => b.store.acceptedCount) fun b =>
    { b with store := { b.store with acceptedCount := 0 } }

/-- CTX_ROLLBACK_COUNT (R432). -/
def execCtxRollbackCount (s : State) : Host.Outcome State Fault Refusal :=
  s.run fun b => b.readClear 0x6028 (fun b => b.store.rollbackCount) fun b =>
    { b with store := { b.store with rollbackCount := 0 } }

/-- CTX_BLOCKS_READ (R432). -/
def execCtxBlocksRead (s : State) : Host.Outcome State Fault Refusal :=
  s.run fun b => b.readClear 0x6030 (fun b => b.store.blocksRead) fun b =>
    { b with store := { b.store with blocksRead := 0 } }

/-- GTU_CMD_COUNT of a quarter (R460). -/
def execGtuCmdCount (quarter : Nat) (s : State) : Host.Outcome State Fault Refusal :=
  s.run fun b => b.readClear (0x7008 + 0x80 * quarter) (fun b => (b.gtuQ quarter).cmdCount) fun b =>
    b.modGtu quarter fun u => { u with cmdCount := 0 }

/-- GTU_ROW_COUNT of a quarter (R460). -/
def execGtuRowCount (quarter : Nat) (s : State) : Host.Outcome State Fault Refusal :=
  s.run fun b => b.readClear (0x7010 + 0x80 * quarter) (fun b => (b.gtuQ quarter).rowCount) fun b =>
    b.modGtu quarter fun u => { u with rowCount := 0 }

/-- GTU_MIGRATE_COUNT of a quarter (R460). -/
def execGtuMigrateCount (quarter : Nat) (s : State) : Host.Outcome State Fault Refusal :=
  s.run fun b => b.readClear (0x7028 + 0x80 * quarter) (fun b => (b.gtuQ quarter).migrateCount) fun b =>
    b.modGtu quarter fun u => { u with migrateCount := 0 }

/-- GTU_ABANDON_COUNT of a quarter (R460). -/
def execGtuAbandonCount (quarter : Nat) (s : State) : Host.Outcome State Fault Refusal :=
  s.run fun b => b.readClear (0x7030 + 0x80 * quarter) (fun b => (b.gtuQ quarter).abandonCount) fun b =>
    b.modGtu quarter fun u => { u with abandonCount := 0 }

/-- GTU_UPD_FAIL_COUNT of a quarter (R460). -/
def execGtuUpdFailCount (quarter : Nat) (s : State) : Host.Outcome State Fault Refusal :=
  s.run fun b => b.readClear (0x7038 + 0x80 * quarter) (fun b => (b.gtuQ quarter).updFailCount) fun b =>
    b.modGtu quarter fun u => { u with updFailCount := 0 }

/-- MT_MIGRATE_COUNT (R493). -/
def execMtMigrateCount (s : State) : Host.Outcome State Fault Refusal :=
  s.run fun b => b.readClear 0x8020 (fun b => b.mt.migrateCount) fun b =>
    { b with mt := { b.mt with migrateCount := 0 } }

/-- MT_ABANDON_COUNT (R493). -/
def execMtAbandonCount (s : State) : Host.Outcome State Fault Refusal :=
  s.run fun b => b.readClear 0x8028 (fun b => b.mt.abandonCount) fun b =>
    { b with mt := { b.mt with abandonCount := 0 } }

/-- SB_READ_COUNT (R516). -/
def execSbReadCount (s : State) : Host.Outcome State Fault Refusal :=
  s.run fun b => b.readClear 0x9040 (fun b => b.sb.readCount) fun b =>
    { b with sb := { b.sb with readCount := 0 } }

/-- SB_WRITE_BYTES (R516). -/
def execSbWriteBytes (s : State) : Host.Outcome State Fault Refusal :=
  s.run fun b => b.readClear 0x9048 (fun b => b.sb.writeBytes) fun b =>
    { b with sb := { b.sb with writeBytes := 0 } }

/-- SB_REBUILD_COUNT (R516). -/
def execSbRebuildCount (s : State) : Host.Outcome State Fault Refusal :=
  s.run fun b => b.readClear 0x9050 (fun b => b.sb.rebuildCount) fun b =>
    { b with sb := { b.sb with rebuildCount := 0 } }

/-- DR_DESC_COUNT (R543). -/
def execDrDescCount (s : State) : Host.Outcome State Fault Refusal :=
  s.run fun b => b.readClear 0xA008 (fun b => b.dr.descCount) fun b =>
    { b with dr := { b.dr with descCount := 0 } }

/-- DR_BYTE_COUNT (R543). -/
def execDrByteCount (s : State) : Host.Outcome State Fault Refusal :=
  s.run fun b => b.readClear 0xA010 (fun b => b.dr.byteCount) fun b =>
    { b with dr := { b.dr with byteCount := 0 } }

/-- DR_FAIL_COUNT (R543). -/
def execDrFailCount (s : State) : Host.Outcome State Fault Refusal :=
  s.run fun b => b.readClear 0xA018 (fun b => b.dr.failCount) fun b =>
    { b with dr := { b.dr with failCount := 0 } }

/-- CB_FLIT_ERR_COUNT (R579). -/
def execCbFlitErrCount (s : State) : Host.Outcome State Fault Refusal :=
  s.run fun b => b.readClear 0xB020 (fun b => b.cb.flitErr) fun b =>
    { b with cb := { b.cb with flitErr := 0 } }

/-- CB_REPLAY_COUNT (R579). -/
def execCbReplayCount (s : State) : Host.Outcome State Fault Refusal :=
  s.run fun b => b.readClear 0xB028 (fun b => b.cb.replayCount) fun b =>
    { b with cb := { b.cb with replayCount := 0 } }

/-- CB_RELAY_COUNT (R579). -/
def execCbRelayCount (s : State) : Host.Outcome State Fault Refusal :=
  s.run fun b => b.readClear 0xB030 (fun b => b.cb.relayCount) fun b =>
    { b with cb := { b.cb with relayCount := 0 } }

/-- CB_COLL_COUNT (R579). -/
def execCbCollCount (s : State) : Host.Outcome State Fault Refusal :=
  s.run fun b => b.readClear 0xB038 (fun b => b.cb.collCount) fun b =>
    { b with cb := { b.cb with collCount := 0 } }

/-- CB_DOM_DROP_COUNT (R579). -/
def execCbDomDropCount (s : State) : Host.Outcome State Fault Refusal :=
  s.run fun b => b.readClear 0xB068 (fun b => b.cb.domDrop) fun b =>
    { b with cb := { b.cb with domDrop := 0 } }

/-- SEC_EVENT_COUNT (R608). -/
def execSecEventCount (s : State) : Host.Outcome State Fault Refusal :=
  s.run fun b => b.readClear 0xC028 (fun b => b.sec.eventCount) fun b =>
    { b with sec := { b.sec with eventCount := 0 } }

/-- HUB_ERR_COUNT (R615, R632): [63:32] uncorrectable, [31:0] correctable. -/
def execHubErrCount (s : State) : Host.Outcome State Fault Refusal :=
  s.run fun b =>
    if b.mainUp then
      let b := b.afterEvents (b.rel.errUncorr != b.rcOld 0xD074 || b.rel.errCorr != b.rcOld 0xD070)
      { b with
        host := { b.host with
          readData := b.rel.errUncorr ++ b.rel.errCorr, rcBase := tabErase 0xD074 (tabErase 0xD070 b.host.rcBase) }
        rel := { b.rel with errUncorr := 0, errCorr := 0 } }
    else b

/-- PWR_SKIP_COUNT (R632). -/
def execPwrSkipCount (s : State) : Host.Outcome State Fault Refusal :=
  s.run fun b => b.readClear 0xD0A8 (fun b => b.rel.skipCount) fun b =>
    { b with rel := { b.rel with skipCount := 0 } }

/-- OST_LOG_LOST (R640, R650). -/
def execOstLogLost (s : State) : Host.Outcome State Fault Refusal :=
  s.run fun b => b.readClear 0xE040 (fun b => b.ost.logLost) fun b =>
    { b with ost := { b.ost with logLost := 0 } }

/-- OST_DEFER_COUNT (R649, R650). -/
def execOstDeferCount (s : State) : Host.Outcome State Fault Refusal :=
  s.run fun b => b.readClear 0xE070 (fun b => b.ost.deferCount) fun b =>
    { b with ost := { b.ost with deferCount := 0 } }

/-- HUB_LB_ERR (R655, R664). -/
def execHubLbErr (s : State) : Host.Outcome State Fault Refusal :=
  s.run fun b => b.readClear 0xF010 (fun b => b.ost.lbErr) fun b =>
    { b with ost := { b.ost with lbErr := 0 } }

end Sys2Proof.Machine
end

