-- ==== Sys2Proof/Machine/Text.lean ====
section
/-!
DEFINITION. Machine/Text.lean: the segmenter and the detokenizer (R361 to R387): models, characters, normalisation, the
lattice, cuts, the text record, stop strings and TEXT replies; the steps SEGMENT, MASK, STOPS and DETOK.
-/
namespace Sys2Proof.Machine

/-! ### Objects as the units read them -/

/-- Bytes of an object at an offset; MEM_POISON on a poisoned line (R612). -/
def Block.objBytes (b : Block) (o : Obj) (off n : Nat) : Except Code (List Byte) :=
  if b.poisoned (o.base + off) n then .error Codes.memPoison else .ok (b.readMem (o.base + off) n)

/-! ### Segmenter models (R361 to R365) -/

/-- A segmenter model's header, and where its sections lie. -/
structure SegModel where
  vocab : Nat
  byteBase : Nat
  pbits : Nat
  mbits : Nat
  mapCount : Nat
  byteScore : Int
deriving DecidableEq, Repr

def SegModel.index (m : SegModel) : Nat := 64 + roundUp (144 * m.vocab) 64
def SegModel.map (m : SegModel) : Nat := m.index + 16 * 2 ^ m.pbits
def SegModel.mapIndex (m : SegModel) : Nat := m.map + roundUp (40 * m.mapCount) 64
def SegModel.sectionsEnd (m : SegModel) : Nat := if m.mbits = 0 then m.map else m.mapIndex + 16 * 2 ^ m.mbits

/-- A 32-bit number as I32. -/
def toI32 (v : Nat) : Int := (BitVec.ofNat 32 v).toInt

/-- The header (R361), and the check of R365. -/
def Block.segModel (b : Block) (o : Obj) : Except Code SegModel :=
  match b.objBytes o 0 64 with
  | .error e => .error e
  | .ok h =>
    let w := fieldAt h 8 4
    let m : SegModel :=
      { vocab := bits (fieldAt h 0 4) 18 0, byteBase := bits (fieldAt h 4 4) 18 0, pbits := bits w 4 0, mbits := bits w 12 8
        mapCount := bits (fieldAt h 0xC 4) 19 0, byteScore := toI32 (fieldAt h 0x10 4) }
    let ok := decide (fieldAt h 0 4 < 2 ^ 19) && decide (fieldAt h 4 4 < 2 ^ 19) && decide (w < 2 ^ 13) && bits w 7 5 == 0 &&
      decide (fieldAt h 0xC 4 < 2 ^ 20) && zeroAt h 0x14 44 && decide (256 ≤ m.vocab ∧ m.vocab ≤ 262144) &&
      decide (m.byteBase + 255 < m.vocab) && (m.mbits == 0 || decide (8 ≤ m.mbits ∧ m.mbits ≤ 20)) &&
      decide (10 ≤ m.pbits ∧ m.pbits ≤ 20) && (m.mbits != 0 || m.mapCount == 0) && decide (m.sectionsEnd ≤ o.size)
    if ok then .ok m else .error Codes.modelBad

/-- A piece (R362). -/
structure Piece where
  isMatch : Bool
  score : Int
  text : List Byte
  display : List Byte
deriving DecidableEq, Repr

/-- Read and check the entry of a token (R362, R365). -/
def Block.piece (b : Block) (o : Obj) (m : SegModel) (t : Nat) : Except Code Piece :=
  match b.objBytes o (64 + 144 * t) 144 with
  | .error e => .error e
  | .ok r =>
    let len := fieldAt r 0 1
    let dlen := fieldAt r 1 1
    let flags := fieldAt r 2 1
    let inByte := decide (m.byteBase ≤ t ∧ t ≤ m.byteBase + 255)
    let byteOk := !inByte || (bit flags 1 && dlen == 1 && fieldAt r 0x48 1 == t - m.byteBase &&
      zeroAt r (8 + len) (64 - len) && zeroAt r 0x49 63)
    let ok := decide (len ≤ 64) && decide (dlen ≤ 64) && decide (flags < 4) && fieldAt r 3 1 == 0 && zeroAt r 0x88 8 && byteOk
    if ok then
      .ok ⟨bit flags 0, toI32 (fieldAt r 4 4), (r.drop 8).take len, (r.drop 0x48).take dlen⟩
    else .error Codes.modelBad

/-- FNV-1a, 32 bits (R363). -/
def fnv1a (s : List Byte) : W32 := s.foldl (fun h x => (h ^^^ x.setWidth 32) * 0x01000193) 0x811C9DC5

/-- The entry numbers of a bucket (R363): a value above the count is refused (R365). -/
def Block.bucket (b : Block) (o : Obj) (at_ count nbits : Nat) (s : List Byte) : Except Code (List Nat) :=
  match b.objBytes o (at_ + 16 * ((fnv1a s).toNat / 2 ^ (32 - nbits))) 16 with
  | .error e => .error e
  | .ok r =>
    let xs := ((List.range 4).map fun i => fieldAt r (4 * i) 4).filter (· != 0)
    if xs.any fun x => decide (count < x) then .error Codes.modelBad else .ok (xs.map (· - 1))

/-- The entries that `f` reads, in order; the first refusal ends the look-up. -/
def lookAll {α β : Type} (f : α → Except Code β) : List α → Except Code (List β)
  | [] => .ok []
  | x :: xs =>
    match f x with
    | .error e => .error e
    | .ok y =>
      match lookAll f xs with
      | .error e => .error e
      | .ok ys => .ok (y :: ys)

/-- MATCH pieces whose TEXT is `s`: token and score (R363, R368). -/
def Block.piecesFor (b : Block) (o : Obj) (m : SegModel) (s : List Byte) : Except Code (List (Nat × Int)) :=
  match b.bucket o m.index m.vocab m.pbits s with
  | .error e => .error e
  | .ok ts =>
    match lookAll (fun t => (b.piece o m t).map fun p => (t, p)) ts with
    | .error e => .error e
    | .ok ps => .ok (ps.filterMap fun p => if p.2.isMatch && p.2.text == s then some (p.1, p.2.score) else none)

/-- A map entry (R364): IN and OUT. -/
def Block.mapEntry (b : Block) (o : Obj) (m : SegModel) (i : Nat) : Except Code (List Byte × List Byte) :=
  match b.objBytes o (m.map + 40 * i) 40 with
  | .error e => .error e
  | .ok r =>
    let inLen := fieldAt r 0 1
    let outLen := fieldAt r 1 1
    if (decide (1 ≤ inLen ∧ inLen ≤ 16) && decide (outLen ≤ 16) && zeroAt r 2 2 && zeroAt r 0x24 4) then
      .ok ((r.drop 4).take inLen, (r.drop 0x14).take outLen)
    else .error Codes.modelBad

/-- The OUT of the map entry whose IN is `s`, if any. -/
def Block.mapFor (b : Block) (o : Obj) (m : SegModel) (s : List Byte) : Except Code (Option (List Byte)) :=
  match b.bucket o m.mapIndex m.mapCount m.mbits s with
  | .error e => .error e
  | .ok is =>
    match lookAll (b.mapEntry o m) is with
    | .error e => .error e
    | .ok es => .ok ((es.find? fun e => e.1 == s).map (·.2))

/-! ### Characters (R366) -/

/-- Length of the well-formed UTF-8 sequence (RFC 3629) that a byte string begins with; 0 if it begins with none. -/
def utf8Len (s : List Byte) : Nat :=
  let v := fun (i : Nat) => ((s[i]?).map (·.toNat)).getD 0
  let cont := fun (i : Nat) => decide (0x80 ≤ v i ∧ v i ≤ 0xBF) && decide (i < s.length)
  let x := v 0
  if s.isEmpty then 0
  else if x < 0x80 then 1
  else if 0xC2 ≤ x ∧ x ≤ 0xDF then (if cont 1 then 2 else 0)
  else if 0xE0 ≤ x ∧ x ≤ 0xEF then
    (if cont 1 && cont 2 && (x != 0xE0 || decide (0xA0 ≤ v 1)) && (x != 0xED || decide (v 1 ≤ 0x9F)) then 3 else 0)
  else if 0xF0 ≤ x ∧ x ≤ 0xF4 then
    (if cont 1 && cont 2 && cont 3 && (x != 0xF0 || decide (0x90 ≤ v 1)) && (x != 0xF4 || decide (v 1 ≤ 0x8F)) then 4 else 0)
  else 0

/-- The characters of a byte string, each with whether it is a malformed byte. -/
def charsOf : Nat → List Byte → List (List Byte × Bool)
  | 0, _ => []
  | _, [] => []
  | f + 1, s =>
    let n := utf8Len s
    if n = 0 then (s.take 1, true) :: charsOf f (s.drop 1) else (s.take n, false) :: charsOf f (s.drop n)

def chars (s : List Byte) : List (List Byte × Bool) := charsOf s.length s

/-- The last character boundary at or before `limit` (R366). -/
def boundaryAt (limit : Nat) (s : List Byte) : Nat :=
  (chars s).foldl (fun acc c => if acc.2 && decide (acc.1 + c.1.length ≤ limit) then (acc.1 + c.1.length, true) else (acc.1, false))
    (0, true) |>.1

/-! ### Normalisation (R367) -/

/-- A unit: input bytes consumed, output bytes, and whether they are FORCE bytes. -/
structure NormUnit where
  used : Nat
  out : List Byte
  force : Bool
deriving DecidableEq, Repr

/-- Longest map entry at the front of the characters: those without malformed bytes, longest first, at most 16 bytes. -/
def Block.longestMap (b : Block) (o : Obj) (m : SegModel) : List (List Byte) → Except Code (Option (Nat × List Byte))
  | [] => .ok none
  | s :: shorter =>
    match b.mapFor o m s with
    | .error e => .error e
    | .ok (some out) => .ok (some (s.length, out))
    | .ok none => b.longestMap o m shorter

/-- Strings of whole well-formed characters, at most 16 bytes, longest first. -/
def mapStrings (cs : List (List Byte × Bool)) : List (List Byte) :=
  (cs.takeWhile fun c => !c.2).foldl (fun (acc : List (List Byte) × List Byte) c =>
    let s := acc.2 ++ c.1
    (if s.length ≤ 16 then s :: acc.1 else acc.1, s)) ([], []) |>.1

/-- Normalise characters unit by unit while the output stays within `room` bytes (R367, R371): the units kept, and whether the input was
cut after them. What lies beyond the cut is not looked up (R365). -/
def Block.normalise (b : Block) (o : Obj) (m : SegModel) : Nat → Nat → List (List Byte × Bool) → Except Code (List NormUnit × Bool)
  | 0, _, _ => .ok ([], false)
  | _, _, [] => .ok ([], false)
  | f + 1, room, c :: cs =>
    let found := if m.mbits = 0 then .ok none else b.longestMap o m (mapStrings ((c :: cs).take 16))
    match found with
    | .error e => .error e
    | .ok r =>
      let (u, rest) := match r with
        | some (n, out) =>
          ((⟨n, out, false⟩ : NormUnit), (((c :: cs).foldl (fun (acc : Nat × List (List Byte × Bool)) (x : List Byte × Bool) =>
            if acc.1 < n then (acc.1 + x.1.length, acc.2.drop 1) else acc) (0, c :: cs)).2))
        | none => (⟨c.1.length, c.1, c.2⟩, cs)
      if room < u.out.length then .ok ([], true)
      else
        match b.normalise o m f (room - u.out.length) rest with
        | .error e => .error e
        | .ok (us, cut) => .ok (u :: us, cut)

/-- Bytes of normalised output at most (R371). -/
def normLimit : Nat := 262144

/-! ### The lattice (R368, R369) -/

/-- An edge into a position: where it begins, its token, its score. -/
structure Edge where
  src : Nat
  dst : Nat
  token : Nat
  score : Int
deriving DecidableEq, Repr

/-- Characters of normalised bytes, a FORCE byte standing alone: bytes, and whether it is a FORCE byte. -/
def normChars (us : List NormUnit) : List (List Byte × Bool) :=
  let runs := us.foldl (fun (acc : List (List Byte × Bool) × List Byte) u =>
    if u.force then (acc.1 ++ ((chars acc.2).map fun c => (c.1, false)) ++ [(u.out, true)], []) else (acc.1, acc.2 ++ u.out)) ([], [])
  runs.1 ++ (chars runs.2).map fun c => (c.1, false)

/-- Strings that a piece edge could span from the first of the characters: whole characters, no FORCE byte, at most 64 bytes. -/
def pieceStrings (cs : List (List Byte × Bool)) : List (List Byte) :=
  (((cs.takeWhile fun c => !c.2).take 64).foldl (fun (acc : List (List Byte) × List Byte) c =>
    let s := acc.2 ++ c.1
    (if s.length ≤ 64 then acc.1 ++ [s] else acc.1, s)) ([], [])).1

/-- All edges, boundary by boundary. -/
def Block.latticeEdges (b : Block) (o : Obj) (m : SegModel) (pos : Nat) : List (List Byte × Bool) → Except Code (List Edge)
  | [] => .ok []
  | c :: cs =>
    match lookAll (fun s => (b.piecesFor o m s).map fun ts => ts.map fun t => (⟨pos, pos + s.length, t.1, t.2⟩ : Edge))
        (pieceStrings (c :: cs)) with
    | .error e => .error e
    | .ok found =>
      let own := found.flatten
      let here := if own.isEmpty then
          c.1.zipIdx.map fun x => (⟨pos + x.2, pos + x.2 + 1, m.byteBase + x.1.toNat, m.byteScore⟩ : Edge)
        else own
      match b.latticeEdges o m (pos + c.1.length) cs with
      | .error e => .error e
      | .ok es => .ok (here ++ es)

/-- Best way into a position: its score, and the last edge with the way into its start. -/
structure Way where
  score : Int
  last : Option Edge

/-- The better way (R369): higher score, then the longer last edge; the earlier listed one where both are equal. -/
def Way.better (x y : Way) : Bool :=
  let len := fun (w : Way) => match w.last with
    | some e => e.dst - e.src
    | none => 0
  decide (x.score < y.score) || (x.score == y.score && decide (len x < len y))

/-- Best ways by position: positions in rising order, as the edges of each boundary come. -/
def bestWays (es : List Edge) : Tab Way :=
  es.foldl (fun (t : Tab Way) e =>
    match tabFind? e.src t with
    | none => t
    | some w =>
      let n : Way := ⟨w.score + e.score, some e⟩
      match tabFind? e.dst t with
      | some old => if old.better n then tabSet e.dst n t else t
      | none => tabSet e.dst n t) [(0, ⟨0, none⟩)]

/-- The edges of the path into a position, last first. -/
def pathBack (t : Tab Way) : Nat → Nat → List Edge
  | 0, _ => []
  | f + 1, p =>
    match tabFind? p t with
    | some ⟨_, some e⟩ => e :: pathBack t f e.src
    | _ => []

/-- Edges sorted by where they begin: every edge into a position comes before those out of it. -/
def sortEdges (es : List Edge) : List Edge := sortBy (fun x y => decide (x.src ≤ y.src)) es

/-! ### A segmenter command (R370 to R373) -/

/-- What a segmenter command gives: tokens, input bytes consumed, whether its input was cut. -/
structure SegResult where
  tokens : List Nat
  used : Nat
  cut : Bool
  nclk : Nat
deriving DecidableEq, Repr

/-- NCLK of a segmenter command at its minimum (R375): I input bytes, Nn normalised bytes, T tokens. -/
def segNclk (i nn t : Nat) : Nat := 96 + ceilDiv i 16 + 2 * nn + ceilDiv t 16

/-- Unit boundaries: for each number of units kept, the output bytes they end at. -/
def unitEnds (us : List NormUnit) : List (Nat × Nat) :=
  (us.foldl (fun (acc : List (Nat × Nat) × Nat × Nat) u =>
    let used := acc.2.1 + u.used
    let pos := acc.2.2 + u.out.length
    (acc.1 ++ [(pos, used)], used, pos)) ([], 0, 0)).1

/-- The cut of R372 on a path of more than 32,768 tokens. -/
def cutPath (us : List NormUnit) (path : List Edge) : List Nat × Nat :=
  let kept := path.take 32768
  let ends := unitEnds us
  let stops := (List.range (kept.length + 1)).reverse
  let posOf := fun (k : Nat) => if k = 0 then 0 else ((kept[k - 1]?).map (·.dst)).getD 0
  match stops.find? fun k => ends.any fun e => e.1 == posOf k with
  | some k => ((kept.take k).map (·.token), ((ends.filter fun e => e.1 == posOf k).getLast?.map (·.2)).getD 0)
  | none => ([], 0)

/-- Segment an input (R367 to R373). -/
def Block.segmentRun (b : Block) (o : Obj) (remain : Nat) (input : List Byte) : Except Code SegResult :=
  match b.segModel o with
  | .error e => .error e
  | .ok m =>
    let first := if 65536 < remain then input.take (boundaryAt 65536 input) else input.take remain
    match b.normalise o m first.length normLimit (chars first) with
    | .error e => .error e
    | .ok (kept, cut) =>
      let cs := normChars kept
      let nclk := fun (tokens : Nat) => segNclk first.length (natSum (kept.map fun u => u.out.length)) tokens
      let len := natSum (cs.map fun c => c.1.length)
      match b.latticeEdges o m 0 cs with
      | .error e => .error e
      | .ok es =>
        let path := (pathBack (bestWays (sortEdges es)) (len + 1) len).reverse
        if path.length ≤ 32768 then
          .ok ⟨path.map (·.token), natSum (kept.map (·.used)), decide (first.length < remain) || cut, nclk path.length⟩
        else
          let r := cutPath kept path
          .ok ⟨r.1, r.2, true, nclk r.1.length⟩

/-! ### The text record (R377) -/

/-- Device address of a context's text record. -/
def Block.textAddr (b : Block) (n : Nat) : Nat := ctxRangeBase + (b.ctx n).textRec

/-- The 1,280 bytes of the record. -/
def Block.textRec (b : Block) (n : Nat) : List Byte := b.readMem (b.textAddr n) 1280

def Block.putText (b : Block) (n : Nat) (r : List Byte) : Block := b.writeMem (b.textAddr n) r

def tVocab (r : List Byte) : Nat := fieldAt r 0 2
def tGrammar (r : List Byte) : Nat := fieldAt r 2 2
def tHold (r : List Byte) : List Byte := (r.drop 0x40).take (fieldAt r 8 1)
def setHold (r : List Byte) (h : List Byte) : List Byte :=
  putField (putBytes r 0x40 (h ++ List.replicate (64 - h.length) 0)) 8 1 h.length

/-- The stop strings. -/
def tStops (r : List Byte) : List (List Byte) :=
  (List.range (fieldAt r 9 1)).map fun i => (r.drop (0xC0 + 64 * i)).take (fieldAt r (0x80 + i) 1)

def setStops (r : List Byte) (ss : List (List Byte)) : List Byte :=
  let r := putField (putBytes r 0x80 (List.replicate 576 0)) 9 1 ss.length
  ss.zipIdx.foldl (fun r s => putBytes (putField r (0x80 + s.2) 1 s.1.length) (0xC0 + 64 * s.2) s.1) r

/-! ### The detokenizer (R378 to R384) -/

/-- The DISPLAY bytes of a token in the model named by VOCAB (R378, R480). -/
def Block.display (b : Block) (tenant vocab t : Nat) : Except Code (List Byte) :=
  if vocab = 0 then .error Codes.noVocab
  else
    match b.liveObj? tenant vocab with
    | none => .error Codes.noObject
    | some o =>
      match b.segModel o with
      | .error e => .error e
      | .ok m =>
        if m.vocab ≤ t then .error Codes.tokenRange
        else (b.piece o m t).map (·.display)

/-- First occurrence of `p` in `s` that ends after byte `new`: where it begins. -/
def occursAfter (p s : List Byte) (new : Nat) : Option Nat :=
  (List.range (s.length + 1)).find? fun i => decide (new < i + p.length) && decide (i + p.length ≤ s.length) && (s.drop i).take p.length == p

/-- The occurrence that fires (R380): ends first, then starts first, then the lower string number. -/
def firedStop (stops : List (List Byte)) (s : List Byte) (new : Nat) : Option (Nat × Nat) :=
  let c := stops.zipIdx.filterMap fun p => (occursAfter p.1 s new).map fun i => (i + p.1.length, i, p.2)
  ((sortBy (fun x y => decide (x.1 < y.1) || (x.1 == y.1 && (decide (x.2.1 < y.2.1) || (x.2.1 == y.2.1 && decide (x.2.2 ≤ y.2.2))))) c).head?).map
    fun x => (x.2.1, x.2.2)

/-- Bytes that a lead byte needs (R381). -/
def leadNeed (x : Byte) : Nat :=
  let v := x.toNat
  if 0xC2 ≤ v ∧ v ≤ 0xDF then 2 else if 0xE0 ≤ v ∧ v ≤ 0xEF then 3 else if 0xF0 ≤ v ∧ v ≤ 0xF4 then 4 else 0

/-- A lead byte followed by fewer continuation bytes than it needs. -/
def incomplete (s : List Byte) : Bool :=
  match s with
  | [] => false
  | x :: r => decide (s.length < leadNeed x) && r.all fun y => decide (0x80 ≤ y.toNat ∧ y.toNat ≤ 0xBF)

/-- Length of the suffix that stays held (R381). -/
def holdLen (stops : List (List Byte)) (s : List Byte) : Nat :=
  let fits := fun (k : Nat) =>
    let u := s.drop (s.length - k)
    incomplete u || stops.any fun p => decide (k < p.length) && p.take k == u
  (((List.range (min s.length 63)).map (· + 1)).filter fits).getLast?.getD 0

/-- The detokenizer's progress in a step: tokens of the step, released bytes that wait, replies formed (AUX and payload). -/
structure Detok where
  tokens : Nat
  wait : List Byte
  out : List (Nat × List Byte)
deriving DecidableEq, Repr

/-- AUX of a TEXT reply (R384). -/
def textAux (last : Bool) (stop : Option Nat) (tokens : Nat) : Nat :=
  (if last then 2 ^ 23 else 0) + (match stop with
    | some k => 2 ^ 22 + k * 2 ^ 19
    | none => 0) + min tokens 0xFFFF

/-- Replies of up to 32 bytes while 32 or more wait (R383). -/
def Detok.drain : Nat → Detok → Detok
  | 0, d => d
  | f + 1, d =>
    if d.wait.length < 32 then d
    else
      let k := boundaryAt 32 d.wait
      Detok.drain f { d with wait := d.wait.drop k, out := d.out ++ [(textAux false none d.tokens, d.wait.take k)] }

/-- Release bytes (R381, R383); without TEXT they are discarded. -/
def Detok.release (d : Detok) (text : Bool) (bs : List Byte) : Detok :=
  if text then ({ d with wait := d.wait ++ bs }).drain (d.wait.length + bs.length) else d

/-- The end of a token step that is not the last (R383). -/
def Detok.flush (d : Detok) : Detok :=
  if d.wait.isEmpty then d else { d with wait := [], out := d.out ++ [(textAux false none d.tokens, d.wait)] }

/-- The last reply of the step (R382, R383). -/
def Detok.finish (d : Detok) (text : Bool) (hold : List Byte) (stop : Option Nat) : Detok :=
  let d := if stop.isSome then d else d.release text hold
  if text then { d with wait := [], out := d.out ++ [(textAux true stop d.tokens, d.wait)] } else d

/-- One token (R380, R381): the held bytes after it, and the stop string that fired. -/
def Detok.push (d : Detok) (text : Bool) (stops : List (List Byte)) (hold disp : List Byte) : Detok × List Byte × Option Nat :=
  let d := { d with tokens := d.tokens + 1 }
  let s := hold ++ disp
  match firedStop stops s hold.length with
  | some (start, k) => (d.release text (s.take start), [], some k)
  | none =>
    let k := holdLen stops s
    (d.release text (s.take (s.length - k)), s.drop (s.length - k), none)

/-- What a run of tokens gives: the replies so far, the held bytes, the stop string that fired, the stop code that ends the
step (replies already written stand, R382). -/
def Block.detokTokens (b : Block) (tenant : Nat) (text : Bool) (r : List Byte) :
    List Nat → Detok → List Byte → Detok × List Byte × Option Nat × Option Code
  | [], d, hold => (d, hold, none, none)
  | t :: ts, d, hold =>
    match b.display tenant (tVocab r) t with
    | .error e => (d, [], none, some e)
    | .ok disp =>
      let x := d.push text (tStops r) hold disp
      match x.2.2 with
      | some k => (x.1, [], some k, none)
      | none => b.detokTokens tenant text r ts (if ts.isEmpty then x.1 else x.1.flush) x.2.1

/-- Hand TEXT replies of a context's step to the host interface (R383 to R385). -/
def Block.textReplies (b : Block) (n : Nat) (rs : List (Nat × List Byte)) : Block :=
  rs.foldl (fun (b : Block) (r : Nat × List Byte) => (b.ctxReply n 1 Codes.ok false false (b.ctx n).pc r.1 r.2).1) b

def Block.countDetok (b : Block) (k : Nat) : Block :=
  { b with txu := { b.txu with detokCount := sat32 b.txu.detokCount k } }

/-! ### Steps -/

/-- A step ends with a code before its tile task runs (R130, R480): the code's effect at once (R133). -/
def Block.stepCode (b : Block) (n : Nat) (i : RInstr) (code : Code) : Block := b.commitStep n i (StepResult.ofCode code)

/-- A list operand of one of the given kinds, for a step that an empty list serves too (R130, R370, R442): SEGMENT, GATHER, UPDATE and
DETOK, which then have no bytes, keys, rows or tokens to go through. -/
def Block.listIs (b : Block) (n h : Nat) (kinds : List Nat) : Bool := kinds.contains ((b.ctx n).list h).kind

/-- A list operand of one of the given kinds that holds entries (R130). -/
def Block.listOk (b : Block) (n h : Nat) (kinds : List Nat) : Bool :=
  let l := (b.ctx n).list h
  kinds.contains l.kind && l.count != 0

/-- SEGMENT (R124, R370, R376, R377): the input from RG[RA] on goes to a segmenter lane. A host read that fails ends the
step; an empty input reads nothing. -/
def execSegment (ctx : Nat) (input : HostRead) (s : State) : Host.Outcome State Fault Refusal :=
  s.run fun b => b.onStep ctx 1 fun i b =>
    let c := b.ctx ctx
    let list := bit i.iflags 0
    let off := (c.reg i.ra).toNat
    let whole := b.listBytes ctx i.la
    let len := if list then whole.length else match c.req with
      | some r => r.inLen
      | none => 0
    let remain := len - off
    match b.liveObj? c.tenant i.obj with
    | none => b.stepCode ctx i Codes.noObject
    | some o =>
      if list ∧ !b.listIs ctx i.la [kBytes] then b.stepCode ctx i Codes.listKind
      else if o.kind ≠ 3 then b.stepCode ctx i Codes.modelBad
      else if list ∧ b.listPoison ctx i.la then b.stepCode ctx i Codes.memPoison
      else
        let bytes : Option (List Byte) :=
          if list then some (whole.drop off) else if remain = 0 then some [] else match input with
            | .ok bs => some (fitBytes (min remain 65539) bs)
            | .fault => none
        match bytes with
        | none => b.dmaFailed.stepCode ctx i Codes.dmaError
        | some bs =>
          b.startStep ctx i .rounds false (Config.fwCclk 1) none none none [i.obj] 0 [.segment { ctx := ctx, obj := i.obj, remain := remain, input := bs }]

/-- The result of a step whose unit has ended joins its tile task (R126). -/
def Block.unitResult (b : Block) (n : Nat) (r : StepResult) : Block :=
  (b.modCtx n fun c => { c with step := c.step.map fun st => { st with wait := .task, result := some r } }).stepCheck n

/-- The live lane that falls free first, the lower of two that fall free together (R374); none: every lane is fenced. -/
def Block.nextLane (b : Block) : Option Nat :=
  let at_ := fun (i : Nat) => tabGet 0 i b.txu.laneFree
  ((List.range 4).filter fun i => !b.fenced 10 i).foldl (fun best i => match best with
    | none => some i
    | some j => if at_ i < at_ j then some i else some j) none

/-- A lane runs a command of `nclk` NCLK from now, or from when it falls free (R374, R375). -/
def Block.takeLane (b : Block) (lane nclk : Nat) : Block :=
  let start := max b.clk.cclk (tabGet 0 lane b.txu.laneFree)
  { b with txu := { b.txu with laneFree := tabSet lane (start + convN nclk) b.txu.laneFree } }

/-- SEGMENTER_COMMAND (R370 to R377): lane `lane` takes the first command, which it does when it is the lane that falls free first
(R374). With every lane fenced the command ends with UNIT_FENCED. A command that fails after its header occupies its lane for a free
time below that of the whole input (R365: what was counted up to the failing read). -/
def execSegmenterCommand (lane : Nat) (s : State) : Host.Outcome State Fault Refusal :=
  s.run fun b =>
    match b.txu.segQ with
    | [] => b
    | q :: rest =>
      if b.nextLane.any (· != lane) then b
      else
      let b := { b with txu := { b.txu with segQ := rest, segCount := sat32 b.txu.segCount 1 } }
      match b.nextLane with
      | none => b.unitResult q.ctx (StepResult.ofCode Codes.unitFenced)
      | some _ =>
        let c := b.ctx q.ctx
        match c.step, b.instrAt q.ctx, b.obj? c.tenant q.obj with
        | some st, some i, some o =>
          if st.opcode ≠ 1 then b
          else
            match b.segmentRun o q.remain q.input with
            | .error e =>
              let nclk := match b.segModel o with
                | .ok _ => 96 + Config.freeNat b.epoch lane % (segNclk 65536 normLimit 32768 - 96)
                | .error _ => 96
              (b.nextEpoch.takeLane lane nclk).unitResult q.ctx (StepResult.ofCode e)
            | .ok r =>
              (b.takeLane lane r.nclk).unitResult q.ctx { StepResult.ofCode (if r.cut then Codes.truncated else Codes.ok) with
                ld := some (kTokens, r.tokens.length, (r.tokens.map (le 4)).flatten)
                rd := some (c.reg i.ra + BitVec.ofNat 64 r.used)
                writes := [(b.textAddr q.ctx, le 2 q.obj)] }
        | _, _, _ => b

/-- SPEC, MASK and STOPS act at once (R139); they are no compute steps, so LAST_CODE keeps its value (R133). -/
def Block.configOk (b : Block) (n : Nat) : Block := b.advance n ((b.ctx n).pc + 1)

/-- MASK (R124, R377): GRAMMAR, the start state, and what KEEP keeps. -/
def execMask (ctx : Nat) (s : State) : Host.Outcome State Fault Refusal :=
  s.run fun b => b.onStep ctx 0xD fun i b =>
    let r := b.textRec ctx
    if i.obj = 0 then (b.putText ctx (putField r 2 2 0)).configOk ctx
    else
      match b.liveObj? (b.ctx ctx).tenant i.obj with
      | none => b.stopReq ctx Codes.noObject
      | some _ =>
        let r := putField r 2 2 i.obj
        let r := if bit i.iflags 0 then r else putField (putField (putField (putField r 4 2 i.imm16) 6 2 0) 0xA 1 0) 0xB 1 0
        (b.putText ctx r).configOk ctx

/-- The strings of a STOPS list (R379); none where it breaks the rule. -/
def stopStrings : Nat → List Byte → Option (List (List Byte))
  | 0, [] => some []
  | 0, _ :: _ => none
  | _ + 1, [] => none
  | k + 1, n :: r =>
    if n.toNat = 0 ∨ 64 < n.toNat ∨ r.length < n.toNat then none
    else (stopStrings k (r.drop n.toNat)).map fun ss => r.take n.toNat :: ss

/-- STOPS (R124, R379). -/
def execStops (ctx : Nat) (s : State) : Host.Outcome State Fault Refusal :=
  s.run fun b => b.onStep ctx 0xE fun i b =>
    let r := b.textRec ctx
    if bit i.iflags 0 then (b.putText ctx (putField r 9 1 0)).configOk ctx
    else if !b.listOk ctx i.la [kBytes] then b.stopReq ctx Codes.listKind
    else if b.listPoison ctx i.la then b.stopReq ctx Codes.memPoison
    else
      let bs := b.listBytes ctx i.la
      let k := fieldAt bs 0 1
      match if 8 < k then none else stopStrings k (bs.drop 1) with
      | none => b.stopReq ctx Codes.stopsBad
      | some ss => (b.putText ctx (setStops r ss)).configOk ctx

/-- DETOK (R124, R378): the tokens of LA go to the detokenizer. -/
def execDetok (ctx : Nat) (s : State) : Host.Outcome State Fault Refusal :=
  s.run fun b => b.onStep ctx 0xF fun i b =>
    let v := tVocab (b.textRec ctx)
    if !b.listIs ctx i.la [kTokens] then b.stepCode ctx i Codes.listKind
    else if b.listPoison ctx i.la then b.stepCode ctx i Codes.memPoison
    else if v = 0 then b.stepCode ctx i Codes.noVocab
    else
      let toks := (b.tokensOf ctx i.la).map (· % 2 ^ 24)
      b.startStep ctx i .rounds false (Config.fwCclk 0xF) none none none [v] 0 [.detok { ctx := ctx, tokens := toks }]

/-- DETOK_COMMAND (R378 to R387): the detokenizer runs its first command: stop strings, held bytes, TEXT replies. -/
def execDetokCommand (s : State) : Host.Outcome State Fault Refusal :=
  s.run fun b =>
    match b.txu.detokQ with
    | [] => b
    | q :: rest =>
      let b := { b with txu := { b.txu with detokQ := rest } }
      let c := b.ctx q.ctx
      match c.step, b.instrAt q.ctx with
      | some st, some i =>
        if st.opcode ≠ 0xF then b
        else
          let r := b.textRec q.ctx
          let text := bit i.rpl 3
          let none_ := setHold r []
          let (d, hold, stop, bad) := b.detokTokens c.tenant text r q.tokens ⟨0, [], []⟩ (tHold r)
          let d := if bad.isSome then d else d.finish text hold stop
          let b := ((b.putText q.ctx none_).countDetok d.tokens).textReplies q.ctx d.out
          b.unitResult q.ctx (StepResult.ofCode (match bad with
            | some e => e
            | none => if stop.isSome then Codes.stopped else Codes.ok))
      | _, _ => b

end Sys2Proof.Machine
end

