-- ==== Sys2Proof/Machine/Reins.lean ====
section
/-!
DEFINITION. Machine/Reins.lean: the reins units (R388 to R398): grammar tables, masks, the mask cache and the commands START,
STEP, QUERY, COMMIT and ROLLBACK.
-/
namespace Sys2Proof.Machine

/-! ### Grammar tables (R388, R389) -/

/-- A grammar object's header. -/
structure Grammar where
  vocab : Nat
  states : Nat
  entries : Nat
  endToken : Nat
deriving DecidableEq, Repr

def Grammar.stateTable (g : Grammar) : Nat := 64 + roundUp (2 * g.vocab) 64
def Grammar.entryTable (g : Grammar) : Nat := g.stateTable + roundUp (8 * g.states) 64
def Grammar.tablesEnd (g : Grammar) : Nat := g.entryTable + 8 * g.entries

/-- The symbol BOTTOM (R389), which is also the class that no entry matches. -/
def bottom : Nat := 0xFFFF

/-- Read and check the header (R388, R392): fields in range, tables inside SIZE, END_TOKEN of class 0xFFFF. -/
def Block.grammar (b : Block) (o : Obj) : Except Code Grammar :=
  match b.objBytes o 0 64 with
  | .error e => .error e
  | .ok h =>
    let g : Grammar :=
      { vocab := bits (fieldAt h 0 4) 18 0, states := bits (fieldAt h 4 4) 16 0, entries := fieldAt h 8 4
        endToken := bits (fieldAt h 0xC 4) 23 0 }
    let ok := decide (fieldAt h 0 4 < 2 ^ 19) && decide (fieldAt h 4 4 < 2 ^ 17) && decide (fieldAt h 0xC 4 < 2 ^ 24) &&
      zeroAt h 0x10 48 && decide (1 ≤ g.vocab ∧ g.vocab ≤ 262144) && decide (1 ≤ g.states ∧ g.states ≤ 65536) &&
      decide (1 ≤ g.entries ∧ g.entries ≤ 16777216) && decide (g.endToken < g.vocab) && decide (g.tablesEnd ≤ o.size)
    if !ok then .error Codes.grammarBad
    else
      match b.objBytes o (64 + 2 * g.endToken) 2 with
      | .error e => .error e
      | .ok c => if unle c = bottom then .ok g else .error Codes.grammarBad

/-- The object is a grammar whose VOCAB is that of the LIVE segmenter model the text record names (R392). -/
def Block.grammarFits (b : Block) (tenant : Nat) (o : Obj) (g : Grammar) (vocabObj : Nat) : Bool :=
  o.kind == 8 && vocabObj != 0 && match b.liveObj? tenant vocabObj with
    | some m => m.kind == 3 && (match b.segModel m with
      | .ok x => x.vocab == g.vocab
      | .error _ => false)
    | none => false

/-- A transition entry (R389); OP 0 NONE, 1 PUSH, 2 POP. -/
structure Trans where
  cls : Nat
  next : Nat
  op : Nat
  topcond : Bool
  sym : Nat
deriving DecidableEq, Repr

/-- Read and check an entry (R389, R392). -/
def Block.trans (b : Block) (o : Obj) (g : Grammar) (i : Nat) : Except Code Trans :=
  match b.objBytes o (g.entryTable + 8 * i) 8 with
  | .error e => .error e
  | .ok r =>
    let v := unle r
    let t : Trans := { cls := bits v 63 48, next := bits v 47 32, op := bits v 31 30, topcond := bit v 29, sym := bits v 15 0 }
    let ok := bits v 28 16 == 0 && t.cls != bottom && t.op != 3 && decide (t.next < g.states) && (t.op == 0 || t.sym != bottom)
    if ok then .ok t else .error Codes.grammarBad

/-- Read and check a state with its entries: ACCEPT and the list (R389, R392). -/
def Block.gramState (b : Block) (o : Obj) (g : Grammar) (s : Nat) : Except Code (Bool × List Trans) :=
  if g.states ≤ s then .error Codes.grammarBad
  else
    match b.objBytes o (g.stateTable + 8 * s) 8 with
    | .error e => .error e
    | .ok r =>
      let v := unle r
      let first := bits v 31 0
      let count := bits v 47 32
      if 2 ^ 49 ≤ v ∨ 256 < count ∨ g.entries < first + count then .error Codes.grammarBad
      else (lookAll (b.trans o g) ((List.range count).map (first + ·))).map fun ts => (bit v 48, ts)

/-- The class of a token. -/
def Block.tokenClass (b : Block) (o : Obj) (t : Nat) : Except Code Nat := (b.objBytes o (64 + 2 * t) 2).map unle

/-! ### States and masks (R390, R391) -/

/-- A grammar state: GSTATE and the stack, top first. -/
structure GState where
  state : Nat
  stack : List Nat
deriving DecidableEq, Repr

def GState.top (s : GState) : Nat := s.stack.headD bottom
def GState.depth (s : GState) : Nat := s.stack.length

/-- An entry applies to a token of class `c` (R390). -/
def Trans.applies (t : Trans) (s : GState) (c : Nat) : Bool :=
  t.cls == c && c != bottom && (t.op != 2 || s.top == t.sym) && (!t.topcond || s.top == t.sym) && (t.op != 1 || decide (s.depth < 256))

/-- Take an entry. -/
def Trans.take (t : Trans) (s : GState) : GState :=
  { state := t.next, stack := if t.op = 1 then t.sym :: s.stack else if t.op = 2 then s.stack.drop 1 else s.stack }

/-- The mask of a state (R391), one truth value for each token. -/
def Block.gramMask (b : Block) (o : Obj) (g : Grammar) (s : GState) : Except Code (List Bool) :=
  match b.gramState o g s.state with
  | .error e => .error e
  | .ok (accept, ts) =>
    (b.objBytes o 64 (2 * g.vocab)).map fun m =>
      (entries 2 m).zipIdx.map fun p => ts.any (fun t => t.applies s p.1) || (p.2 == g.endToken && accept && s.top == bottom)

/-- The state after a token (R390, R394): none where it is rejected. -/
def Block.gramStep (b : Block) (o : Obj) (g : Grammar) (s : GState) (tok : Nat) : Except Code (Option (GState × Option Trans)) :=
  match b.gramState o g s.state, b.tokenClass o tok with
  | .error e, _ => .error e
  | _, .error e => .error e
  | .ok (accept, ts), .ok c =>
    if tok = g.endToken then .ok (if accept && s.top == bottom then some (s, none) else none)
    else
      match ts.find? fun t => t.applies s c with
      | some t => .ok (some (t.take s, some t))
      | none => .ok none

/-- Mask bytes (R391): bit t in byte t / 8 at bit t mod 8, ceil(V / 1,024) × 128 bytes. -/
def maskBytes (m : List Bool) : List Byte :=
  fitBytes (ceilDiv m.length 1024 * 128) ((chunks 8 m).map fun c =>
    BitVec.ofNat 8 (natSum (c.zipIdx.map fun p => if p.1 then 2 ^ p.2 else 0)))

/-! ### The text record's part (R377, R396) -/

/-- Grammar state of a text record. -/
def tGState (r : List Byte) : GState :=
  { state := fieldAt r 4 2, stack := ((List.range (bits (fieldAt r 6 2) 8 0)).map fun i => fieldAt r (0x2C0 + 2 * i) 2).reverse }

def tUndo (r : List Byte) : Nat := fieldAt r 0xA 1
def tDead (r : List Byte) : Bool := bit (fieldAt r 0xB 1) 0
def setDead (r : List Byte) (d : Bool) : List Byte := putField r 0xB 1 (if d then 1 else 0)

/-- Write GSTATE, DEPTH and the stack entry that changed. -/
def setGState (r : List Byte) (s : GState) : List Byte :=
  let r := putField (putField r 4 2 s.state) 6 2 s.depth
  match s.stack with
  | [] => r
  | y :: _ => putField r (0x2C0 + 2 * (s.depth - 1)) 2 y

/-- Write an undo entry before a tentative STEP (R396). -/
def pushUndo (r : List Byte) (s : GState) (t : Option Trans) : List Byte :=
  let popped := match t with
    | some t => if t.op = 2 then t.sym else bottom
    | none => bottom
  putField (putField r (0x4C0 + 8 * tUndo r) 8 (s.state * 2 ^ 48 + s.depth * 2 ^ 32 + popped * 2 ^ 16)) 0xA 1 (tUndo r + 1)

/-- Undo the newest entry (R396). A state that let a token through is not DEAD. -/
def popUndo (r : List Byte) : List Byte :=
  let u := tUndo r - 1
  let v := fieldAt r (0x4C0 + 8 * u) 8
  let popped := bits v 31 16
  let depth := bits v 47 32
  let r := putField (putField r 4 2 (bits v 63 48)) 6 2 depth
  let r := if popped = bottom then r else putField r (0x2C0 + 2 * (depth - 1)) 2 popped
  setDead (putField r 0xA 1 u) false

def undoTimes : Nat → List Byte → List Byte
  | 0, r => r
  | k + 1, r => undoTimes k (popUndo r)

/-! ### The mask cache (R397) -/

/-- Look a key up: the unit afterwards, the slot, whether it hit. Unused slots are taken first, the lowest first. -/
def Rnu.lookup (u : Rnu) (tenant obj : Nat) (s : GState) : Rnu × Nat × Bool :=
  let full := s.depth == 256
  match u.cache.find? fun k => k.tenant == tenant && k.obj == obj && k.gstate == s.state && k.top == s.top && k.full == full with
  | some k => ({ u with cache := (u.cache.filter (· != k)) ++ [k], hit := sat32 u.hit 1 }, k.slot, true)
  | none =>
    let (slot, rest) := if u.cache.length < 4096 then (leastFree (u.cache.map (·.slot)), u.cache)
      else ((u.cache.head?.map (·.slot)).getD 0, u.cache.drop 1)
    ({ u with cache := rest ++ [⟨slot, tenant, obj, s.state, s.top, full⟩], miss := sat32 u.miss 1 }, slot, false)

/-! ### Operations on a text record (R392, R394, R396) -/

/-- Outcome of START, STEP or QUERY: the record afterwards, the state and its mask. -/
structure ReinsOk where
  text : List Byte
  state : GState
  mask : List Bool
  endOk : Bool
deriving DecidableEq, Repr

/-- END_TOKEN's bit of a mask. -/
def endBit (g : Grammar) (m : List Bool) : Bool := m.getD g.endToken false

/-- START: the checks of R392 in full, then GSTATE, an empty stack, no undo entry, and DEAD. -/
def Block.reinsStart (b : Block) (tenant : Nat) (o : Obj) (r : List Byte) (s0 : Nat) : Except Code ReinsOk :=
  match b.grammar o with
  | .error e => .error (if e = Codes.memPoison then e else Codes.grammarBad)
  | .ok g =>
    if !b.grammarFits tenant o g (tVocab r) then .error Codes.grammarBad
    else if 2 ^ 16 ≤ s0 ∨ g.states ≤ s0 then .error Codes.reinsOperand
    else
      let s : GState := ⟨s0, []⟩
      (b.gramMask o g s).map fun m =>
        ⟨setDead (putField (setGState r s) 0xA 1 0) (!m.any id), s, m, endBit g m⟩

/-- STEP by a token (R390, R394, R396). -/
def Block.reinsStep (b : Block) (o : Obj) (r : List Byte) (tok : Nat) (tentative : Bool) : Except Code ReinsOk :=
  match b.grammar o with
  | .error e => .error e
  | .ok g =>
    let s := tGState r
    if g.vocab ≤ tok ∨ (tentative ∧ 8 ≤ tUndo r) then .error Codes.reinsOperand
    else
      match b.gramStep o g s tok with
      | .error e => .error e
      | .ok none => .error Codes.tokenRejected
      | .ok (some (s', t)) =>
        (b.gramMask o g s').map fun m =>
          let r := if tentative then pushUndo r s t else r
          ⟨setDead (setGState r s') (!m.any id), s', m, endBit g m⟩

/-- QUERY: the current mask (R394). -/
def Block.reinsQuery (b : Block) (o : Obj) (r : List Byte) : Except Code ReinsOk :=
  match b.grammar o with
  | .error e => .error e
  | .ok g => (b.gramMask o g (tGState r)).map fun m => ⟨r, tGState r, m, endBit g m⟩

/-! ### Commands (R393 to R395) -/

def UnitCmd.rnuOp (c : UnitCmd) : Nat := c.at 0 1
def UnitCmd.rnuArg (c : UnitCmd) : Nat := c.at 4 4
def UnitCmd.rnuOut (c : UnitCmd) : Nat := c.at 0x18 8

/-- RSVD bits and unused fields (R393). -/
def rnuRsvd (c : UnitCmd) : Bool :=
  let op := c.rnuOp
  decide (c.at 0 4 < 2 ^ 17) && c.zero 0x20 32 && (op == 2 || !bit (c.at 0 4) 16) && (op == 5 || c.at 1 1 == 0) &&
  (op == 1 || op == 2 || c.rnuArg == 0) && (decide (op ≤ 3) || c.rnuOut == 0)

/-- The object whose base GRAMMAR names (R393, R394). -/
def Block.rnuObj (b : Block) (c : UnitCmd) : Option (Nat × Obj) :=
  let v := c.at 0x10 8
  if v % 2 ^ 35 = 0 ∧ v < 2 ^ 47 then (b.liveObj? c.tenant (v / 2 ^ 35)).map fun o => (v / 2 ^ 35, o) else none

/-- Fields of the completion record (R395). -/
def rnuRecord (code : Code) (s : GState) (dead endOk hit : Bool) (slot allowed : Nat) : List Byte :=
  le 4 code.toNat ++ le 2 s.state ++ le 2 s.depth ++ le 2 s.top ++
  le 2 ((if dead then 1 else 0) + (if endOk then 2 else 0) + (if hit then 4 else 0)) ++ le 4 slot ++ le 4 allowed

/-- The unit's first command, when it is of the row's operation: its checks in common, then `f` on the grammar object and the
text record. A deferred command writes no record. -/
def Block.rnuRun (b : Block) (q : Nat) (mine : Nat → Bool) (f : Block → UnitCmd → Nat → Obj → List Byte → Block) : Block :=
  match (b.rnuQ q).queue with
  | [] => b
  | c :: rest =>
    if !mine c.rnuOp then b
    else
      let b := b.modRnu q fun u => { u with queue := rest }
      let v := c.at 8 8
      if !rnuRsvd c then b.cmdCode c Codes.badRsvd
      else if c.rnuOp = 0 ∨ 5 < c.rnuOp then b.cmdCode c Codes.reinsOperand
      else
        match b.rnuObj c with
        | none => b.cmdCode c Codes.noObject
        | some (n, o) =>
          if v ≠ ctxTva (b.ctx c.ctx).textRec ∨ (c.rnuOut ≠ 0 ∧ !inRanges c.ranges c.rnuOut 1) then b.cmdCode c Codes.reinsOperand
          else
            match b.fetchTask c Codes.reinsOperand v 1280 with
            | .error e => b.cmdCode c e
            | .ok r => f b c n o r

/-- Write the text record for a command, uncommitted as every write of its task (R185). -/
def Block.putTextCmd (b : Block) (c : UnitCmd) (r : List Byte) : Block := (b.writeTask c (c.at 8 8) r).getD b

/-- START, STEP and QUERY complete (R394, R395, R397): cache, copy of the mask, text record, completion record. -/
def Block.rnuDone (b : Block) (q : Nat) (c : UnitCmd) (n : Nat) (r : Except Code ReinsOk) : Block :=
  match r with
  | .error e => b.cmdCode c e
  | .ok x =>
    let bytes := maskBytes x.mask
    if c.rnuOut ≠ 0 ∧ !inRanges c.ranges c.rnuOut bytes.length then b.cmdCode c Codes.reinsOperand
    else
      let (u, slot, hit) := (b.rnuQ q).lookup c.tenant n x.state
      let b := b.modRnu q fun _ => u
      match if c.rnuOut = 0 then some b else b.writeTask c c.rnuOut bytes with
      | none => b.cmdCode c Codes.reinsOperand
      | some b =>
        let allowed := (x.mask.filter id).length
        let b := if c.rnuOp = 3 then b else b.putTextCmd c x.text
        b.cmdDone c (rnuRecord Codes.ok x.state (allowed == 0) x.endOk hit slot allowed)

/-- COMMIT and ROLLBACK complete: they form no mask, so END_OK, HIT, the slot and ALLOWED are free. -/
def Block.rnuPlain (b : Block) (c : UnitCmd) (r : List Byte) : Block :=
  let free := fun (k : Nat) => (Config.freeWord b.epoch k).toNat
  (b.nextEpoch.putTextCmd c r).cmdDone c
    (rnuRecord Codes.ok (tGState r) (tDead r) (bit (free 0) 0) (bit (free 0) 1) (free 1) (free 2))

/-- REINS_START (R392, R394). An OP outside the table is refused here. -/
def execReinsStart (quarter : Nat) (s : State) : Host.Outcome State Fault Refusal :=
  s.run fun b => b.rnuRun quarter (fun op => op == 1 || op == 0 || decide (5 < op)) fun b c n o r =>
    b.rnuDone quarter c n (b.reinsStart c.tenant o r c.rnuArg)

/-- REINS_STEP (R390, R394, R396). -/
def execReinsStep (quarter : Nat) (s : State) : Host.Outcome State Fault Refusal :=
  s.run fun b => b.rnuRun quarter (· == 2) fun b c n o r =>
    if 2 ^ 24 ≤ c.rnuArg then b.cmdCode c Codes.reinsOperand
    else b.rnuDone quarter c n (b.reinsStep o r c.rnuArg (bit (c.at 0 4) 16))

/-- REINS_QUERY (R394). -/
def execReinsQuery (quarter : Nat) (s : State) : Host.Outcome State Fault Refusal :=
  s.run fun b => b.rnuRun quarter (· == 3) fun b c n o r => b.rnuDone quarter c n (b.reinsQuery o r)

/-- REINS_COMMIT (R394). -/
def execReinsCommit (quarter : Nat) (s : State) : Host.Outcome State Fault Refusal :=
  s.run fun b => b.rnuRun quarter (· == 4) fun b c _ _ r => b.rnuPlain c (putField r 0xA 1 0)

/-- REINS_ROLLBACK (R394, R396). -/
def execReinsRollback (quarter : Nat) (s : State) : Host.Outcome State Fault Refusal :=
  s.run fun b => b.rnuRun quarter (· == 5) fun b c _ _ r =>
    let k := c.at 1 1
    if k = 0 ∨ 8 < k ∨ tUndo r < k then b.cmdCode c Codes.reinsOperand
    else b.rnuPlain c (undoTimes k r)

end Sys2Proof.Machine
end

