-- ==== Sys2Proof/Machine/Select.lean ====
section
/-!
DEFINITION. Machine/Select.lean: what the selection units compute (R307 to R323): ordered values, keys, the three modes,
padding, sums, merges. Used by the units' commands and by the steps whose kernels use them.
-/
namespace Sys2Proof.Machine

/-- The ordered value u of a score (R307): FMT 0 F32, 1 I32, 2 U32. -/
def ordered (fmt : Nat) (w : W32) : Nat :=
  if fmt = 0 then (if w.getLsbD 31 then (~~~w).toNat else (w ^^^ 0x80000000).toNat)
  else if fmt = 1 then (w ^^^ 0x80000000).toNat
  else w.toNat

/-- A score is valid unless it is an F32 NaN (R308). -/
def scoreValid (fmt : Nat) (w : W32) : Bool := fmt != 0 || !(f32 w).isNan

/-- The u of each score, none where it is invalid. -/
def orderedAll (fmt : Nat) (ws : List W32) : List (Option Nat) :=
  ws.map fun w => if scoreValid fmt w then some (ordered fmt w) else none

/-- The bucket key of u (R309). -/
def bucketKey (base shift u : Nat) : Nat := if u < base then 0 else min 1023 ((u - base) / 2 ^ shift)

/-- Positions of valid elements, by key descending, then position ascending (R311, R312, R314). -/
def ranked (key : Nat → Nat) (us : List (Option Nat)) : List (Nat × Nat) :=
  let vs := us.zipIdx.filterMap fun p => p.1.map fun u => (key u, p.2)
  sortBy (fun x y => decide (y.1 ≤ x.1)) vs

/-- The first k positions of that order, in position order. -/
def selectPos (key : Nat → Nat) (k : Nat) (us : List (Option Nat)) : List Nat :=
  sortBy (fun x y => decide (x ≤ y)) (((ranked key us).take k).map (·.2))

/-- THRESHOLD (R310, R312, R327): the k-th key, 0 when fewer than k are valid. -/
def threshold (key : Nat → Nat) (k : Nat) (us : List (Option Nat)) : Nat :=
  match (ranked key us)[k - 1]? with
  | some p => if k = 0 then 0 else p.1
  | none => 0

/-- The padding score of R315. -/
def padScore (fmt : Nat) : W32 := if fmt = 0 then 0xFF800000 else if fmt = 1 then 0x80000000 else 0

/-- The first position of the highest u, with it. -/
def firstMax (us : List (Option Nat)) : Option (Nat × Nat) := ((ranked id us).head?).map fun p => (p.2, p.1)

/-! ### Sums (R317 to R319) -/

/-- What an element adds to a sum: itself as F32, or its EXP2 mass. -/
def sumTerm (fmt : Nat) (exp : Bool) (xref xscale : W32) (w : W32) : W32 :=
  if exp then
    if w = 0xFF800000 then 0 else exp2F32 (mulF32 (subF32 w xref) xscale)
  else if fmt = 0 then w
  else if fmt = 1 then intF32 w.toInt
  else natF32 w.toNat

/-- The tree of R257 over a group of at most 64 lanes. -/
def treeAll (l : List W32) : W32 :=
  if l.length ≤ 32 then ((List.range 5).foldl (fun acc _ => treeLevel acc) (l ++ List.replicate (32 - l.length) 0)).headD 0
  else treeSum (l ++ List.replicate (64 - l.length) 0)

/-- Groups of `g` positions added to a running sum, each lane that does not contribute set to +0. -/
def groupSum (g : Nat) (start : W32) (terms : List (Option W32)) : W32 :=
  (chunks g terms).foldl (fun acc grp => addF32 acc (
    let l := grp.map fun t => t.getD 0
    if g = 32 then treeAll l else treeSum (l ++ List.replicate (64 - l.length) 0))) start

/-- SUM_SELECTED and SUM_REST of a segment, from running values. -/
def sums (g : Nat) (s0 r0 : W32) (term : W32 → W32) (ws : List W32) (valid : List Bool) (sel : Nat → Bool) : W32 × W32 :=
  let parts := (ws.zip valid).zipIdx
  (groupSum g s0 (parts.map fun p => if p.1.2 && sel p.2 then some (term p.1.1) else none),
   groupSum g r0 (parts.map fun p => if p.1.2 && !sel p.2 then some (term p.1.1) else none))

/-! ### Merging (R320 to R323) -/

/-- A merge entry: identifier, score, whole bytes, list number. -/
structure MergeEnt where
  id : Nat
  score : W32
  bytes : List Byte
  list : Nat
deriving DecidableEq, Repr

/-- The entries of a list's bytes. -/
def mergeEnts (list : Nat) (bs : List Byte) : List MergeEnt :=
  (List.range (bs.length / 16)).map fun i =>
    let e := (bs.drop (16 * i)).take 16
    ⟨fieldAt e 0 8, BitVec.ofNat 32 (fieldAt e 8 4), e, list⟩

/-- An invalid entry (R321). -/
def MergeEnt.bad (e : MergeEnt) : Bool := (f32 e.score).isNan || e.id == 2 ^ 64 - 1

/-- Entry `x` at an earlier position keeps its place against a duplicate `y` (R322). -/
def keeps (x y : MergeEnt) : Bool := decide (ordered 0 y.score ≤ ordered 0 x.score)

/-- The kept entries of R322 as a mask over positions: valid, and no duplicate of higher u, or of equal u and earlier
position, exists. -/
def keptMask (es : List MergeEnt) : List Bool :=
  es.zipIdx.map fun p => !p.1.bad && es.zipIdx.all fun q =>
    q.1.bad || q.1.id != p.1.id || q.2 == p.2 ||
    (if q.2 < p.2 then decide (ordered 0 q.1.score < ordered 0 p.1.score) else keeps p.1 q.1)

/-- The u of kept entries. -/
def mergeUs (es : List MergeEnt) : List (Option Nat) :=
  (es.zip (keptMask es)).map fun p => if p.2 then some (ordered 0 p.1.score) else none

/-- MERGE in mode EXACT without sorting: the kept entries chosen, in position order (R323). -/
def mergeExact (k : Nat) (es : List MergeEnt) : List MergeEnt :=
  (selectPos id k (mergeUs es)).filterMap fun i => es[i]?

/-! ### Commands of a step's kernel -/

/-- The selection unit that a step's commands go to: its coachman's quarter's, or the lowest-numbered live one (R618). -/
def Block.stepSlu (b : Block) (n : Nat) : Nat :=
  ((coachman n % 4 :: List.range 4).find? fun q => !b.fenced 5 q).getD (coachman n % 4)

/-- A command of a step's kernel to a selection unit, over `elems` elements (R292, R337, R343). -/
def Block.countSelect (b : Block) (n elems : Nat) : Block :=
  b.modSlu (b.stepSlu n) fun u => { u with cmdCount := sat32 u.cmdCount 1, elemCount := sat32 u.elemCount elems }

end Sys2Proof.Machine
end

