-- ==== Sys2Proof/Machine/Slu.lean ====
section
/-!
DEFINITION. Machine/Slu.lean: the commands of a selection unit (R324 to R336): checks, whole selections, merges, chained rows
and their state record, completion records.
-/
namespace Sys2Proof.Machine

/-! ### Fields of R324 -/

def UnitCmd.sluOp (c : UnitCmd) : Nat := c.at 0 1
def UnitCmd.sluSort (c : UnitCmd) : Bool := bit (c.at 0 4) 15
def UnitCmd.sluExp (c : UnitCmd) : Bool := bit (c.at 0 4) 14
def UnitCmd.sluFmt (c : UnitCmd) : Nat := bits (c.at 0 4) 13 12
def UnitCmd.sluMode (c : UnitCmd) : Nat := bits (c.at 0 4) 11 8
def UnitCmd.sluK (c : UnitCmd) : Nat := bits (c.at 4 4) 16 0
def UnitCmd.sluN (c : UnitCmd) : Nat := c.at 8 4
def UnitCmd.sluShift (c : UnitCmd) : Nat := bits (c.at 0xC 4) 4 0
def UnitCmd.sluBase (c : UnitCmd) : Nat := c.at 0x10 4
def UnitCmd.sluState (c : UnitCmd) : Nat := bits (c.at 0x14 4) 21 0
def UnitCmd.sluSrc (c : UnitCmd) : Nat := c.at 0x18 8
def UnitCmd.sluIdx (c : UnitCmd) : Nat := c.at 0x20 8
def UnitCmd.sluOut (c : UnitCmd) : Nat := c.at 0x28 8
def UnitCmd.sluXref (c : UnitCmd) : W32 := BitVec.ofNat 32 (c.at 0x30 4)
def UnitCmd.sluXscale (c : UnitCmd) : W32 := BitVec.ofNat 32 (c.at 0x34 4)

/-- Operations (R325). -/
def opSelect : Nat := 1
def opMerge : Nat := 2
def opOpen : Nat := 3
def opHist : Nat := 4
def opThresh : Nat := 5
def opEmit : Nat := 6
def opClose : Nat := 7

/-- Bytes of the command that an operation does not use, by offset and length (R325). -/
def sluUnused (op : Nat) : List (Nat × Nat) :=
  if op = opSelect then [(0x14, 4)]
  else if op = opMerge then [(0x14, 4), (0x20, 8)]
  else if op = opOpen then [(8, 4), (0x18, 8), (0x20, 8)]
  else if op = opHist then [(1, 1), (4, 4), (0xC, 4), (0x10, 4), (0x20, 8), (0x28, 8), (0x30, 8)]
  else if op = opThresh ∨ op = opClose then [(1, 1), (4, 4), (8, 4), (0xC, 4), (0x10, 4), (0x18, 8), (0x20, 8), (0x28, 8), (0x30, 8)]
  else if op = opEmit then [(1, 1), (4, 4), (0xC, 4), (0x10, 4), (0x28, 8), (0x30, 8)]
  else []

/-- The operation has a row of its own (SELECT, MERGE, OPEN): it gives MODE, FMT, K and the key. -/
def sluOpens (op : Nat) : Bool := op == opSelect || op == opMerge || op == opOpen

/-- Checks 1 to 4 of R326 that the command alone decides. -/
def sluCheck (c : UnitCmd) : Option Code :=
  let op := c.sluOp
  let rsvd := c.zero 2 2 && decide (c.at 4 4 < 2 ^ 17) && decide (c.at 0xC 4 < 32) && decide (c.at 0x14 4 < 2 ^ 22) && c.zero 0x38 8 &&
    (sluUnused op).all fun u => c.zero u.1 u.2
  let align := c.sluSrc % (if op = opMerge then 64 else 4) = 0 ∧ c.sluIdx % 4 = 0 ∧
    c.sluOut % (if op = opMerge then 16 else 8) = 0 ∧ c.sluState % 64 = 0
  let k := c.sluK
  if !rsvd then some Codes.badRsvd
  else if op = 0 ∨ 7 < op ∨ 2 < c.sluMode ∨ 2 < c.sluFmt ∨ 22 < c.sluShift ∨ (c.sluExp ∧ c.sluFmt ≠ 0) ∨
      (op = opMerge ∧ (c.sluFmt ≠ 0 ∨ c.sluMode = 2)) ∨ ¬ align then some Codes.sluOperand
  else if sluOpens op ∧ (k = 0 ∨ 65536 < k ∨ (c.sluMode = 2 ∧ k ≠ 1) ∨ (c.sluSort ∧ 4096 < k)) then some Codes.kRange
  else if op = opSelect ∧ 262144 < c.sluN then some Codes.tooLong
  else if !(op == opSelect || op == opMerge) && decide (sramEnd < c.sluState + 4352) then some Codes.sramRange
  else none

/-! ### Results -/

/-- Fields of a completion record (R327). -/
structure SluRes where
  count : Nat
  valid : Nat
  invalid : Nat
  selected : W32
  rest : W32
  maxScore : W32
  threshold : Nat
  dups : Nat
  short : Bool
  more : Bool
deriving DecidableEq, Repr

/-- A record that reports the running counts alone. -/
def SluRes.counts (valid invalid : Nat) (more : Bool) : SluRes := ⟨0, valid, invalid, 0, 0, 0, 0, 0, false, more⟩

def SluRes.zero : SluRes := SluRes.counts 0 0 false

def SluRes.bytes (code : Code) (r : SluRes) : List Byte :=
  le 4 code.toNat ++ le 4 r.count ++ le 4 r.valid ++ le 4 r.invalid ++ le 4 r.selected.toNat ++ le 4 r.rest.toNat ++
  le 4 r.maxScore.toNat ++ le 4 r.threshold ++ le 4 r.dups ++ le 4 ((if r.short then 2 else 0) + (if r.more then 1 else 0))

/-- What a command did: the block after its writes, its code and record, the elements it read. -/
structure SluEnd where
  b : Block
  code : Code
  res : SluRes
  elems : Nat

/-- A command that changes nothing. -/
def Block.sluFail (b : Block) (code : Code) : SluEnd := ⟨b, code, SluRes.zero, 0⟩

/-- A translation fault leaves what the command may have written at OUT undefined (R328). -/
def Block.sluFault (b : Block) (c : UnitCmd) (code : Code) (v n : Nat) : Block :=
  if code = Codes.sluXlate then b.outUndefined c v n else b

/-- The padding entry of R315. -/
def sluPad (fmt : Nat) : List Byte := le 4 0xFFFFFFFF ++ le 4 (padScore fmt).toNat

/-- An output entry (R315). -/
def sluEntry (index : Nat) (w : W32) : List Byte := le 4 index ++ le 4 w.toNat

/-- MAX_SCORE: the input bits of the highest valid score, or padding. -/
def maxScoreOf (fmt : Nat) (ws : List W32) (us : List (Option Nat)) : W32 :=
  match firstMax us with
  | some (p, _) => ws.getD p 0
  | none => padScore fmt

/-! ### SELECT (R307 to R319) -/

/-- Positions a SELECT takes, in position order, and its THRESHOLD. Where ARGMAX finds no valid element there is no position:
that THRESHOLD is free. -/
def sluChoose (free mode base shift k : Nat) (us : List (Option Nat)) : List Nat × Nat :=
  let key := if mode = 0 then bucketKey base shift else id
  if mode = 2 then
    match firstMax us with
    | some (p, _) => ([p], p)
    | none => ([], free)
  else (selectPos key k us, threshold key k us)

/-- The sums of a row in one segment; under ARGMAX by R319. -/
def sluSums (mode g : Nat) (r0 : W32) (term : W32 → W32) (ws : List W32) (us : List (Option Nat)) (sel : List Nat) : W32 × W32 :=
  let valid := us.map Option.isSome
  if mode = 2 then
    let all := (sums g 0 r0 term ws valid fun _ => false).2
    match sel with
    | p :: _ => (term (ws.getD p 0), subF32 all (term (ws.getD p 0)))
    | [] => (0, all)
  else sums g 0 r0 term ws valid fun p => sel.contains p

/-- Reorder positions by u descending, equals in order (R316). -/
def sluOrder (us : List (Option Nat)) (sel : List Nat) : List Nat :=
  sortBy (fun x y => decide ((us.getD y none).getD 0 ≤ (us.getD x none).getD 0)) sel

def Block.sluSelect (b : Block) (c : UnitCmd) : SluEnd :=
  let n := c.sluN
  let k := c.sluK
  let fmt := c.sluFmt
  if !inRanges c.ranges c.sluOut (8 * k) then b.sluFail Codes.targetRange
  else
    match b.fetchTask c Codes.sluXlate c.sluSrc (4 * n), b.fetchTask c Codes.sluXlate c.sluIdx (if c.sluIdx = 0 then 0 else 4 * n) with
    | .error e, _ => (b.sluFault c e c.sluOut (8 * k)).sluFail e
    | _, .error e => (b.sluFault c e c.sluOut (8 * k)).sluFail e
    | .ok src, .ok idx =>
      let ws := lanes src
      let us := orderedAll fmt ws
      let free := (Config.freeWord b.epoch 0).toNat
      let (sel, thr) := sluChoose free c.sluMode c.sluBase c.sluShift k us
      let (ss, sr) := sluSums c.sluMode 64 0 (sumTerm fmt c.sluExp c.sluXref c.sluXscale) ws us sel
      let out := if c.sluSort then sluOrder us sel else sel
      let ent := fun (p : Nat) => sluEntry (if c.sluIdx = 0 then p else fieldAt idx (4 * p) 4) (ws.getD p 0)
      let bytes := (out.map ent).flatten ++ (List.replicate (k - sel.length) (sluPad fmt)).flatten
      let valid := (us.filter Option.isSome).length
      let res : SluRes := ⟨sel.length, valid, n - valid, ss, sr, maxScoreOf fmt ws us, thr, 0, decide (sel.length < k), false⟩
      let b := b.nextEpoch.touched [(c.sluSrc, 4 * n), (c.sluIdx, idx.length)]
      match b.writeTask c c.sluOut bytes with
      | some b => ⟨b, Codes.ok, res, n⟩
      | none => ⟨b.outUndefined c c.sluOut (8 * k), Codes.sluXlate, SluRes.zero, n⟩

/-! ### MERGE (R320 to R323) -/

/-- A list of the list table: address, entries, number, SUM_REST. -/
structure MergeList where
  addr : Nat
  count : Nat
  list : Nat
  rest : W32
  rsvd : Bool
deriving DecidableEq, Repr

def mergeTable (bs : List Byte) : List MergeList :=
  (List.range (bs.length / 32)).map fun i =>
    let d := (bs.drop (32 * i)).take 32
    ⟨fieldAt d 0 8, fieldAt d 8 4, fieldAt d 0xC 1, BitVec.ofNat 32 (fieldAt d 0x10 4), zeroAt d 0xD 3 && zeroAt d 0x14 12⟩

/-- LIST numbers ascend strictly. -/
def ascending : List Nat → Bool
  | [] => true
  | [_] => true
  | x :: y :: r => decide (x < y) && ascending (y :: r)

/-- The bytes of every list, in table order. -/
def Block.mergeLists (b : Block) (c : UnitCmd) : List MergeList → Except Code (List MergeEnt)
  | [] => .ok []
  | l :: r =>
    match b.fetchTask c Codes.sluXlate l.addr (16 * l.count), b.mergeLists c r with
    | .error e, _ => .error e
    | _, .error e => .error e
    | .ok bs, .ok es => .ok (mergeEnts l.list bs ++ es)

/-- The padding entry of R323. -/
def mergePad : List Byte := le 8 (2 ^ 64 - 1) ++ le 4 0xFF800000 ++ le 4 0

def Block.sluMerge (b : Block) (c : UnitCmd) : SluEnd :=
  let g := c.sluN
  let k := c.sluK
  if g = 0 ∨ 256 < g then b.sluFail Codes.listTableBad
  else
    match b.fetchTask c Codes.sluXlate c.sluSrc (32 * g) with
    | .error e => b.sluFail e
    | .ok tab =>
      let ls := mergeTable tab
      let m := natSum (ls.map (·.count))
      if ls.any fun l => !l.rsvd then b.sluFail Codes.badRsvd
      else if ls.any fun l => l.addr % 16 != 0 then b.sluFail Codes.sluOperand
      else if 262144 < m then b.sluFail Codes.tooLong
      else if !ascending (ls.map (·.list)) then b.sluFail Codes.listTableBad
      else if !inRanges c.ranges c.sluOut (16 * k) then b.sluFail Codes.targetRange
      else
        match b.mergeLists c ls with
        | .error e => (b.sluFault c e c.sluOut (16 * k)).sluFail e
        | .ok es =>
          let ws := es.map (·.score)
          let us := mergeUs es
          let (sel, thr) := sluChoose 0 c.sluMode c.sluBase c.sluShift k us
          let rest0 := ls.foldl (fun (acc : W32) l => addF32 acc l.rest) 0
          let (ss, sr) := sluSums c.sluMode 32 rest0 (sumTerm 0 c.sluExp c.sluXref c.sluXscale) ws us sel
          let out := if c.sluSort then sluOrder us sel else sel
          let bytes := (out.map fun p => ((es[p]?).map (·.bytes)).getD []).flatten ++ (List.replicate (k - sel.length) mergePad).flatten
          let valid := (us.filter Option.isSome).length
          let bad := (es.filter MergeEnt.bad).length
          let res : SluRes :=
            ⟨sel.length, valid, bad, ss, sr, maxScoreOf 0 ws us, thr, m - valid - bad, decide (sel.length < k), false⟩
          let b := b.touched ((c.sluSrc, 32 * g) :: ls.map fun l => (l.addr, 16 * l.count))
          match b.writeTask c c.sluOut bytes with
          | some b => ⟨b, Codes.ok, res, m⟩
          | none => ⟨b.outUndefined c c.sluOut (16 * k), Codes.sluXlate, SluRes.zero, m⟩

/-! ### Chained rows (R329 to R332) -/

/-- A state record: its header and the counts of its buckets. -/
structure SluRec where
  hdr : List Byte
  hist : List Nat

def SluRec.at (r : SluRec) (off : Nat) : Nat := fieldAt r.hdr off 4
def SluRec.put (r : SluRec) (off v : Nat) : SluRec := { r with hdr := putField r.hdr off 4 v }
def SluRec.out (r : SluRec) : Nat := fieldAt r.hdr 0x18 8
def SluRec.mode (r : SluRec) : Nat := bits (r.at 0) 11 8
def SluRec.fmt (r : SluRec) : Nat := bits (r.at 0) 13 12
def SluRec.exp (r : SluRec) : Bool := bit (r.at 0) 14
def SluRec.sort (r : SluRec) : Bool := bit (r.at 0) 15
def SluRec.k (r : SluRec) : Nat := r.at 4
def SluRec.phase (r : SluRec) : Nat := bits (r.at 0x20) 3 0
def SluRec.level (r : SluRec) : Nat := bits (r.at 0x20) 7 4
def SluRec.total (r : SluRec) : Nat := r.at 0x24
def SluRec.seen (r : SluRec) : Nat := r.at 0x28
def SluRec.setPhase (r : SluRec) (phase level : Nat) : SluRec := r.put 0x20 (phase + 16 * level)
def SluRec.bytes (r : SluRec) : List Byte := r.hdr ++ (r.hist.map (le 4)).flatten
def SluRec.term (r : SluRec) : W32 → W32 :=
  sumTerm r.fmt r.exp (BitVec.ofNat 32 (r.at 0x10)) (BitVec.ofNat 32 (r.at 0x14))

/-- Phases of R329. -/
def phHist : Nat := 1
def phEmit : Nat := 2
def phClosed : Nat := 3
def phDead : Nat := 4

/-- The SRAM of a command's coach still is the command's to use: its task is there, or none has come after it; the coach lives (R336). -/
def Block.sramOf (b : Block) (c : UnitCmd) (k : Nat) : Bool :=
  b.cmdLive c || ((b.coach k).task.isNone && !b.fenced 1 k)

/-- The state record of a command, in its coach's SRAM, as its tenant reads it (R594): also when its task has been discarded or has
ended, for the command runs to its end (R336). Once another task has the coach there is none any more: zeros. -/
def Block.sluRec (b : Block) (c : UnitCmd) : SluRec :=
  let bs := match c.coach with
    | some k => if b.sramOf c k then b.sramAs c.tenant k c.sluState 4352 else List.replicate 4352 0
    | none => List.replicate 4352 0
  ⟨bs.take 256, entries 4 (bs.drop 256)⟩

/-- The record holds a poisoned line (R613). -/
def Block.sluRecBad (b : Block) (c : UnitCmd) : Bool :=
  match c.coach with
  | some k => b.sramOf c k && b.poisoned (sramAddr k c.sluState) 4352
  | none => false

/-- Write the state record back; dropped where the coach is fenced or has another task (R336). -/
def Block.putSluRec (b : Block) (c : UnitCmd) (r : SluRec) : Block :=
  match c.coach with
  | some k => if b.sramOf c k then b.writeSramAs c.tenant k c.sluState r.bytes else b
  | none => b

/-- The bucket of u in a round: its key under BUCKET, its slice of the level under EXACT where its higher slices match PREFIX
(R309, R312). -/
def SluRec.bucket (r : SluRec) (u : Nat) : Option Nat :=
  if r.mode = 0 then some (bucketKey (r.at 0xC) (r.at 8) u)
  else
    let lo := if r.level = 1 then 22 else if r.level = 2 then 12 else if r.level = 3 then 2 else 0
    let hi := if r.level = 1 then 32 else if r.level = 2 then 22 else if r.level = 3 then 12 else 2
    if u / 2 ^ hi = r.at 0x2C / 2 ^ hi then some (u % 2 ^ hi / 2 ^ lo) else none

/-- The highest bucket b with C(b) ≥ k, 0 if there is none, and C(b + 1) (R310). -/
def histThreshold (hist : List Nat) (k : Nat) : Nat × Nat :=
  let r := ((List.range 1024).reverse).foldl (fun (st : Option Nat × Nat) b =>
    match st.1 with
    | some _ => st
    | none => let n := st.2 + hist.getD b 0
              if k ≤ n then (some b, st.2) else (none, n)) (none, 0)
  match r.1 with
  | some t => (t, r.2)
  | none => (0, r.2 - hist.getD 0 0)

/-- Running counts of a record. -/
def SluRec.res (r : SluRec) (more : Bool) : SluRes := SluRes.counts (r.at 0xE0) (r.at 0xE4) more

def Block.sluOpen (b : Block) (c : UnitCmd) : SluEnd :=
  let r : SluRec := ⟨List.replicate 256 0, List.replicate 1024 0⟩
  let r := ((((r.put 0 (c.at 0 4)).put 4 c.sluK).put 8 c.sluShift).put 0xC c.sluBase).put 0x10 c.sluXref.toNat
  let r := (r.put 0x14 c.sluXscale.toNat).setPhase phHist 1
  let r := { r with hdr := putField r.hdr 0x18 8 c.sluOut }
  let r := r.put 0x30 c.sluK
  ⟨b.putSluRec c r, Codes.ok, SluRes.zero, 0⟩

/-- Run a command on an existing record: DEAD gives TOO_LONG (R331). -/
def Block.onSluRec (b : Block) (c : UnitCmd) (f : SluRec → SluEnd) : SluEnd :=
  let r := b.sluRec c
  if b.sluRecBad c then b.sluFail Codes.memPoison
  else if r.phase = phDead then b.sluFail Codes.tooLong
  else f r

/-- A translation fault sets PHASE to DEAD (R331). -/
def Block.sluDead (b : Block) (c : UnitCmd) (r : SluRec) (code : Code) : SluEnd :=
  ⟨if code = Codes.sluXlate ∨ code = Codes.tooLong then b.putSluRec c (r.setPhase phDead r.level) else b, code, SluRes.zero, 0⟩

/-- HIST's first level: running counts, the running maximum and, under ARGMAX, the running sum of R319. -/
def SluRec.firstLevel (r : SluRec) (ws : List W32) (us : List (Option Nat)) : SluRec :=
  let valid := (us.filter Option.isSome).length
  let r := (r.put 0xE0 (r.at 0xE0 + valid)).put 0xE4 (r.at 0xE4 + (ws.length - valid))
  let r := match firstMax us with
    | some (p, u) =>
      if r.at 0xF4 = 0 ∨ r.at 0xE8 < u then
        (((r.put 0xE8 u).put 0xEC (r.seen + p)).put 0xF0 (ws.getD p 0).toNat).put 0xF4 1
      else r
    | none => r
  if r.mode = 2 then
    r.put 0x40 (sums 64 0 (BitVec.ofNat 32 (r.at 0x40)) r.term ws (us.map Option.isSome) fun _ => false).2.toNat
  else r

def Block.sluHist (b : Block) (c : UnitCmd) : SluEnd :=
  b.onSluRec c fun r =>
    let n := c.sluN
    if r.level = 1 ∧ 16777216 < r.total + n then b.sluDead c r Codes.tooLong
    else if r.phase ≠ phHist then b.sluFail Codes.stateBad
    else if r.level ≠ 1 ∧ r.total < r.seen + n then b.sluFail Codes.stateBad
    else
      match b.fetchTask c Codes.sluXlate c.sluSrc (4 * n) with
      | .error e => b.sluDead c r e
      | .ok src =>
        let ws := lanes src
        let us := orderedAll r.fmt ws
        let r1 := if r.level = 1 then (r.firstLevel ws us).put 0x24 (r.total + n) else r
        let keys := if r.mode = 2 then [] else us.filterMap fun u => u.bind r.bucket
        let r2 := { r1 with hist := keys.foldl (fun h k => listMod k (· + 1) h) r1.hist }
        let r3 := r2.put 0x28 (r.seen + n)
        ⟨(b.touched [(c.sluSrc, 4 * n)]).putSluRec c r3, Codes.ok, r3.res false, n⟩

def Block.sluThresh (b : Block) (c : UnitCmd) : SluEnd :=
  b.onSluRec c fun r =>
    if r.phase ≠ phHist ∨ r.mode = 2 ∨ r.seen ≠ r.total then b.sluFail Codes.stateBad
    else
      let need := r.at 0x30
      let (t, above) := histThreshold r.hist need
      let r := r.put 0x28 0
      if r.mode = 0 then
        let r := ((r.put 0x2C t).put 0x30 (min need (r.at 0xE0) - above)).setPhase phEmit 1
        ⟨b.putSluRec c r, Codes.ok, r.res false, 0⟩
      else
        let lo := if r.level = 1 then 22 else if r.level = 2 then 12 else if r.level = 3 then 2 else 0
        let more := decide (r.level < 4)
        let r := (r.put 0x2C (r.at 0x2C + t * 2 ^ lo)).put 0x30 (need - above)
        let r := if more then { (r.setPhase phHist (r.level + 1)) with hist := List.replicate 1024 0 } else r.setPhase phEmit 4
        ⟨b.putSluRec c r, Codes.ok, r.res more, 0⟩

/-- The positions of a segment that an EMIT selects, and how many of them stand at the threshold (R310, R312). -/
def sluEmitPos (key : Nat → Nat) (t need taken : Nat) (us : List (Option Nat)) : List Nat × Nat :=
  let r := us.zipIdx.foldl (fun (st : List Nat × Nat) (p : Option Nat × Nat) =>
    match p.1 with
    | none => st
    | some u =>
      if t < key u then (p.2 :: st.1, st.2)
      else if key u = t ∧ st.2 < need then (p.2 :: st.1, st.2 + 1)
      else st) ([], taken)
  (r.1.reverse, r.2)

def Block.sluEmit (b : Block) (c : UnitCmd) : SluEnd :=
  b.onSluRec c fun r =>
    let n := c.sluN
    let emitted := r.at 0x34
    let left := r.k - emitted
    if r.phase ≠ phEmit then b.sluFail Codes.stateBad
    else if !inRanges c.ranges (r.out + 8 * emitted) (8 * min left n) then b.sluFail Codes.targetRange
    else
      match b.fetchTask c Codes.sluXlate c.sluSrc (4 * n), b.fetchTask c Codes.sluXlate c.sluIdx (if c.sluIdx = 0 then 0 else 4 * n) with
      | .error e, _ => (b.sluFault c e (r.out + 8 * emitted) (8 * min left n)).sluDead c r e
      | _, .error e => (b.sluFault c e (r.out + 8 * emitted) (8 * min left n)).sluDead c r e
      | .ok src, .ok idx =>
        let ws := lanes src
        let us := orderedAll r.fmt ws
        let key := if r.mode = 0 then bucketKey (r.at 0xC) (r.at 8) else id
        let (pos, taken) := sluEmitPos key (r.at 0x2C) (r.at 0x30) (r.at 0x38) us
        let sel := pos.take left
        let ent := fun (p : Nat) => sluEntry (if c.sluIdx = 0 then r.seen + p else fieldAt idx (4 * p) 4) (ws.getD p 0)
        let (ss, sr) := sums 64 (BitVec.ofNat 32 (r.at 0x3C)) (BitVec.ofNat 32 (r.at 0x40)) r.term ws (us.map Option.isSome)
          fun p => sel.contains p
        let r1 := ((((r.put 0x28 (r.seen + n)).put 0x34 (emitted + sel.length)).put 0x38 taken).put 0x3C ss.toNat).put 0x40 sr.toNat
        let b := b.touched [(c.sluSrc, 4 * n), (c.sluIdx, idx.length)]
        let out := (sel.map ent).flatten
        match if out.isEmpty then some b else b.writeTask c (r.out + 8 * emitted) out with
        | some b => ⟨b.putSluRec c r1, Codes.ok, r1.res false, n⟩
        | none => { (b.outUndefined c (r.out + 8 * emitted) (8 * min left n)).sluDead c r Codes.sluXlate with elems := n }

/-- Entries of 8 bytes reordered by u of their score, equals in order (R316). -/
def sluSortEntries (fmt : Nat) (bs : List Byte) : List Byte :=
  let es := chunks 8 bs
  (sortBy (fun x y => decide (ordered fmt (BitVec.ofNat 32 (fieldAt y 4 4)) ≤ ordered fmt (BitVec.ofNat 32 (fieldAt x 4 4)))) es).flatten

def Block.sluClose (b : Block) (c : UnitCmd) : SluEnd :=
  b.onSluRec c fun r =>
    let k := r.k
    if r.seen ≠ r.total ∨ r.phase ≠ (if r.mode = 2 then phHist else phEmit) then b.sluFail Codes.stateBad
    else if !inRanges c.ranges r.out (8 * k) then b.sluFail Codes.targetRange
    else
      let has := r.at 0xF4 = 1
      let count := if r.mode = 2 then (if has then 1 else 0) else r.at 0x34
      let top := BitVec.ofNat 32 (r.at 0xF0)
      let all := BitVec.ofNat 32 (r.at 0x40)
      let rest := if has then subF32 all (r.term top) else all
      let sel := if has then r.term top else 0
      match if r.mode = 2 then .ok (if has then sluEntry (r.at 0xEC) top else [])
            else b.fetchTask c Codes.sluXlate r.out (8 * count) with
      | .error e => (b.sluFault c e r.out (8 * k)).sluDead c r e
      | .ok old =>
        let ents := if r.sort then sluSortEntries r.fmt old else old
        let bytes := ents ++ (List.replicate (k - count) (sluPad r.fmt)).flatten
        let res : SluRes :=
          { count := count, valid := r.at 0xE0, invalid := r.at 0xE4
            selected := if r.mode = 2 then sel else BitVec.ofNat 32 (r.at 0x3C)
            rest := if r.mode = 2 then rest else all
            maxScore := if has then top else padScore r.fmt
            threshold := if r.mode = 2 then (if has then r.at 0xEC else (Config.freeWord b.epoch 0).toNat) else r.at 0x2C
            dups := 0, short := decide (count < k), more := false }
        match b.nextEpoch.writeTask c r.out bytes with
        | some b => ⟨b.putSluRec c (r.setPhase phClosed r.level), Codes.ok, res, 0⟩
        | none => (b.outUndefined c r.out (8 * k)).sluDead c r Codes.sluXlate

/-! ### Running the command at the front of a unit's queue (R326, R333, R336, R337) -/

/-- The unit's first command, when `mine` says it is of the row's operation: a deferred one is discarded; else it is checked,
run and completed. -/
def Block.sluRun (b : Block) (q : Nat) (mine : Nat → Bool) (f : Block → UnitCmd → SluEnd) : Block :=
  match (b.sluQ q).queue with
  | [] => b
  | c :: rest =>
    if !mine c.sluOp then b
    else
      let b := b.modSlu q fun u => { u with queue := rest }
      if c.deferred then b.modSlu q fun u => { u with refuseCount := sat32 u.refuseCount 1 }
      else
        let e := match sluCheck c with
          | some code => b.sluFail code
          | none => f b c
        (e.b.cmdDone c (e.res.bytes e.code)).modSlu q fun u => { u with
          cmdCount := sat32 u.cmdCount 1, elemCount := sat32 u.elemCount e.elems
          refuseCount := if e.code = Codes.ok then u.refuseCount else sat32 u.refuseCount 1 }

/-- SELECT (R307 to R319, R325, R326). An OP outside the table is refused by its check here. -/
def execSelect (quarter : Nat) (s : State) : Host.Outcome State Fault Refusal :=
  s.run fun b => b.sluRun quarter (fun op => op == opSelect || op == 0 || decide (7 < op)) Block.sluSelect

/-- MERGE (R320 to R323). -/
def execMerge (quarter : Nat) (s : State) : Host.Outcome State Fault Refusal :=
  s.run fun b => b.sluRun quarter (· == opMerge) Block.sluMerge

/-- OPEN (R325, R329, R330). -/
def execOpenRow (quarter : Nat) (s : State) : Host.Outcome State Fault Refusal :=
  s.run fun b => b.sluRun quarter (· == opOpen) Block.sluOpen

/-- HIST (R310, R312, R330, R331). -/
def execHist (quarter : Nat) (s : State) : Host.Outcome State Fault Refusal :=
  s.run fun b => b.sluRun quarter (· == opHist) Block.sluHist

/-- THRESH (R310, R312, R330, R331). -/
def execThresh (quarter : Nat) (s : State) : Host.Outcome State Fault Refusal :=
  s.run fun b => b.sluRun quarter (· == opThresh) Block.sluThresh

/-- EMIT (R310, R312, R317, R330, R331). -/
def execEmit (quarter : Nat) (s : State) : Host.Outcome State Fault Refusal :=
  s.run fun b => b.sluRun quarter (· == opEmit) Block.sluEmit

/-- CLOSE (R315, R316, R319, R327, R331). -/
def execCloseRow (quarter : Nat) (s : State) : Host.Outcome State Fault Refusal :=
  s.run fun b => b.sluRun quarter (· == opClose) Block.sluClose

end Sys2Proof.Machine
end

