-- ==== Sys2Proof/Machine/Generate.lean ====
section
/-!
DEFINITION. Machine/Generate.lean: the steps PREFILL, DECODE and SPEC and the rounds of DECODE (R386, R391, R399, R400, R412 to
R422, R431): sampling, emission, drafts, acceptance, rollback and the closing pass.
-/
namespace Sys2Proof.Machine

/-- Positions that a context holds at most (R410). -/
def maxPositions : Nat := 1048576

/-! ### PREFILL -/

/-- PREFILL (R412, R413, R424): the positions are written; they count once its tile task has completed. -/
def execPrefill (ctx : Nat) (kv : List KvToken) (next : List W32) (s : State) : Host.Outcome State Fault Refusal :=
  s.run fun b => b.onStep ctx 0xA fun i b =>
    let c := b.ctx ctx
    let count := (c.list i.la).count
    match b.liveObj? c.tenant i.obj, b.generator c.tenant i.obj with
    | none, _ => b.stepCode ctx i Codes.noObject
    | some _, none => b.stepCode ctx i Codes.modelMismatch
    | some _, some g =>
      if 0 < c.kvLen ∧ c.gen ≠ i.obj then b.stepCode ctx i Codes.genMismatch
      else if maxPositions < c.kvLen + count then b.stepCode ctx i Codes.ctxFull
      else if !b.listOk ctx i.la [kTokens] then b.stepCode ctx i Codes.listKind
      else if b.listPoison ctx i.la then b.stepCode ctx i Codes.memPoison
      else
        let toks := (b.tokensOf ctx i.la).map (· % 2 ^ 24)
        match b.prefillWrite ctx g i.obj toks kv with
        | (.wait, _) => b
        | (.fail e, _) => b.stepCode ctx i e
        | (.done b, chain) =>
          if b.framesPoisoned ctx then (b.loseFrames ctx).stepCode ctx i Codes.memPoison
          else
          let len := c.kvLen + toks.length
          let cclk := g.pcFix + g.pcTok * toks.length + g.pcBlk * ceilDiv len 64 * ceilDiv toks.length 64
          let r := { StepResult.ofCode Codes.ok with rd := some (BitVec.ofNat 64 len) }
          let b := b.startStep ctx i .task false cclk (some r) none none [i.obj, g.vocabObj]
          let p : PrefillRun := { tokens := toks, next := next, gen := i.obj, chain := if c.kvLen = 0 then some chain else none }
          b.modCtx ctx fun c => { c with step := c.step.map fun st => { st with prefill := some p } }

/-! ### SPEC -/

/-- SPEC (R124, R420): the draft object and the draft length; another object or 0 releases the draft table. -/
def execSpec (ctx : Nat) (s : State) : Host.Outcome State Fault Refusal :=
  s.run fun b => b.onStep ctx 0xC fun i b =>
    let c := b.ctx ctx
    if i.obj = 0 then ((b.dropDraft ctx).modCtx ctx fun c => { c with spec := none }).configOk ctx
    else
      match b.liveObj? c.tenant i.obj with
      | none => b.stopReq ctx Codes.noObject
      | some _ =>
        let same := match c.spec with
          | some (o, _) => o == i.obj
          | none => false
        let b := if same then b else b.dropDraft ctx
        (b.modCtx ctx fun c => { c with spec := some (i.obj, i.imm16) }).configOk ctx

/-! ### Sampling (R391, R415) -/

/-- The generator of R415's random numbers; the spec names it and gives no steps: PRESUMED the function of that name. -/
def splitmix64 (x : W64) : W64 :=
  let z := x + 0x9E3779B97F4A7C15
  let z := (z ^^^ (z >>> 30)) * 0xBF58476D1CE4E5B9
  let z := (z ^^^ (z >>> 27)) * 0x94D049BB133111EB
  z ^^^ (z >>> 31)

/-- r of R415: 24 bits as a fraction, exact in F32. -/
def sampleR (seed : W64) (x : Nat) : W32 :=
  mulF32 (natF32 ((splitmix64 (seed ^^^ BitVec.ofNat 64 x)) >>> 40).toNat) 0x33800000

/-- A token is allowed by a mask. -/
def maskBit (mask : Option (List Bool)) (t : Nat) : Bool :=
  match mask with
  | some m => m.getD t false
  | none => true

/-- The logits with every barred token at −infinity. -/
def maskLogits (mask : Option (List Bool)) (ls : List W32) : List W32 :=
  ls.zipIdx.map fun p => if maskBit mask p.2 then p.1 else 0xFF800000

/-- Some allowed token has a logit that is no NaN. -/
def sampleable (mask : Option (List Bool)) (ls : List W32) : Bool :=
  ls.zipIdx.any fun p => maskBit mask p.2 && scoreValid 0 p.1

/-- ARGMAX under the mask (R313). -/
def argmaxToken (mask : Option (List Bool)) (ls : List W32) : Option Nat :=
  if sampleable mask ls then (firstMax (orderedAll 0 (maskLogits mask ls))).map (·.1) else none

/-- First place whose running sum passes `t`. -/
def passes (t : W32) (acc : W32) : List (Nat × W32) → Option Nat
  | [] => none
  | (tok, m) :: rest =>
    let acc := addF32 acc m
    if (f32 t).lt (f32 acc) then some tok else passes t acc rest

/-- The token that a sampling takes (R415). Where rounding lets no running sum pass, the token is one of those selected:
free. -/
def sampleToken (g : GeneratorDecl) (seed : W64) (x free : Nat) (mask : Option (List Bool)) (ls : List W32) : Option Nat :=
  match g.topk with
  | none => argmaxToken mask ls
  | some (k, temp) =>
    if !sampleable mask ls then none
    else
      let ws := maskLogits mask ls
      let us := orderedAll 0 ws
      let sel := selectPos id k us
      let top := ((firstMax us).map fun p => ws.getD p.1 0).getD 0
      let term := sumTerm 0 true top (Config.sampleScale temp)
      let total := (sluSums 1 64 0 term ws us sel).1
      let order := sluOrder us sel
      match passes (mulF32 (sampleR seed x) total) 0 (order.map fun p => (p, term (ws.getD p 0))) with
      | some t => some t
      | none => order[free % max 1 order.length]?

/-! ### A round's progress -/

/-- What a DECODE step works with: context, tenant, generator, grammar object, TEXT, IMM16, seed, ENDONDEAD, reins unit. -/
structure GenEnv where
  n : Nat
  tenant : Nat
  g : GeneratorDecl
  gram : Option (Nat × Obj)
  text : Bool
  max : Nat
  seed : W64
  endOnDead : Bool
  unit : Nat
deriving DecidableEq, Repr

/-- How a step ends (R399, R400, R416, R419). -/
inductive GenEnd
  | fail (c : Code)
  | fired (k : Nat)
  | last
  | forced
  | dead
  | limit
deriving DecidableEq, Repr

/-- Progress: the block, the text record, the mask in force, the text formed, the tokens emitted by the step. -/
structure Gen where
  b : Block
  rec_ : List Byte
  mask : Option (List Bool)
  det : Detok
  toks : List Nat
deriving DecidableEq, Repr

/-- A reins command ended (R394, R397): the mask cache of the unit, the record, the mask. -/
def Gen.reins (s : Gen) (e : GenEnv) (o : Nat) (r : Except Code ReinsOk) : Gen × Option GenEnd :=
  match r with
  | .error c => (s, some (.fail c))
  | .ok x =>
    let (u, _, _) := (s.b.rnuQ e.unit).lookup e.tenant o x.state
    ({ s with b := s.b.modRnu e.unit fun _ => u, rec_ := x.text, mask := some x.mask }, none)

/-- STEP of the grammar by a token, where there is a grammar. -/
def Gen.step (s : Gen) (e : GenEnv) (tok : Nat) (tentative : Bool) : Gen × Option GenEnd :=
  match e.gram with
  | none => (s, none)
  | some (o, x) => s.reins e o (s.b.reinsStep x s.rec_ tok tentative)

/-- The first reins command of a step (R377, R392): the grammar is checked as at START; START where the stack is empty, which
leaves the state that MASK or the step before set, QUERY where it is not. -/
def Gen.start (s : Gen) (e : GenEnv) : Gen × Option GenEnd :=
  match e.gram with
  | none => (s, none)
  | some (o, x) =>
    if (tGState s.rec_).depth = 0 then s.reins e o (s.b.reinsStart e.tenant x s.rec_ (tGState s.rec_).state)
    else
      match s.b.grammar x with
      | .error c => (s, some (.fail (if c = Codes.memPoison then c else Codes.grammarBad)))
      | .ok g =>
        if s.b.grammarFits e.tenant x g (tVocab s.rec_) then s.reins e o (s.b.reinsQuery x s.rec_)
        else (s, some (.fail Codes.grammarBad))

/-- The mask that later rounds begin with: that of the state in the text record. -/
def Gen.resume (s : Gen) (e : GenEnv) : Gen × Option GenEnd :=
  match e.gram with
  | none => (s, none)
  | some (_, x) =>
    match s.b.reinsQuery x s.rec_ with
    | .error c => (s, some (.fail c))
    | .ok r => ({ s with mask := some r.mask }, none)

/-- The grammar is DEAD: its mask is empty (R391). -/
def Gen.isDead (s : Gen) : Bool :=
  match s.mask with
  | some m => !m.any id
  | none => false

/-- Emit a token (R414, R416): the reins unit unless it has stepped already, the detokenizer, LD; then whether it ends the step. -/
def Gen.emit (s : Gen) (e : GenEnv) (tok : Nat) (stepped forced : Bool) : Gen × Option GenEnd :=
  let (s, bad) := if stepped || forced then (s, none) else s.step e tok false
  match bad with
  | some x => (s, some x)
  | none =>
    match s.b.display e.tenant (tVocab s.rec_) tok with
    | .error c => (s, some (.fail c))
    | .ok disp =>
      let (det, hold, stop) := s.det.push e.text (tStops s.rec_) (tHold s.rec_) disp
      let s := { s with b := s.b.countDetok 1, det := det, rec_ := setHold s.rec_ hold, toks := s.toks ++ [tok] }
      let fin := match stop with
        | some k => some (GenEnd.fired k)
        | none => if forced then some .forced else if tok = e.g.endToken ∨ e.max ≤ s.toks.length then some .last else none
      (if fin.isSome then s else { s with det := s.det.flush }, fin)

/-- The token for position x (R399, R415); the flag says that it is the forced END_TOKEN. -/
def Gen.choose (s : Gen) (e : GenEnv) (x : Nat) (ls : List W32) : Except GenEnd (Nat × Bool) :=
  if s.isDead then (if e.endOnDead then .ok (e.g.endToken, true) else .error .dead)
  else
    match sampleToken e.g e.seed x (Config.freeWord s.b.epoch x).toNat s.mask ls with
    | some t => .ok (t, false)
    | none => .error (.fail Codes.noToken)

/-- A sampling is a command of the selection unit over the logits (R337, R415); none is made where the grammar is DEAD. -/
def Gen.sampled (s : Gen) (e : GenEnv) (ls : List W32) : Gen :=
  if s.isDead then s else { s with b := s.b.countSelect e.n ls.length }

/-- Drafts (R420): greedy tokens under the mask, each a TENTATIVE STEP; they end at a DEAD mask or with END_TOKEN. The masks come
with the progress, that before each draft first, the one after the last draft at the end. -/
def Gen.draft (s : Gen) (e : GenEnv) (endTok : Nat) : Nat → List (List W32) → Gen × List Nat × List (Option (List Bool)) × Option GenEnd
  | 0, _ => (s, [], [s.mask], none)
  | k + 1, ls =>
    if s.isDead then (s, [], [s.mask], none)
    else
      let s := s.sampled e (ls.headD [])
      match argmaxToken s.mask (ls.headD []) with
      | none => (s, [], [s.mask], none)
      | some t =>
        let before := s.mask
        match s.step e t true with
        | (s, some x) => (s, [], [before], some x)
        | (s, none) =>
          if t = endTok then (s, [t], [before, s.mask], none)
          else
            let (s, ts, ms, x) := Gen.draft s e endTok k (ls.drop 1)
            (s, t :: ts, before :: ms, x)

/-- Undo the tentative entries of `k` rejected drafts and commit (R394, R421 step 5). -/
def Gen.settle (s : Gen) (k : Nat) (mask : Option (List Bool)) : Gen :=
  { s with rec_ := putField (undoTimes k s.rec_) 0xA 1 0, mask := mask }

/-- Acceptance (R414, R416): drafts accepted, the token that is pending afterwards, how the step ends. `i` drafts are accepted
already; `p` is the first position of the pass. -/
def Gen.accept (s : Gen) (e : GenEnv) (p i : Nat) : List Nat → List (Option (List Bool)) → List (List W32) → Gen × Nat × Option Nat × Option GenEnd
  | drafts, masks, outs =>
    match drafts with
    | [] =>
      let s := (s.settle 0 (masks.headD none)).sampled e (outs.headD [])
      match s.choose e (p + i + 1) (outs.headD []) with
      | .error x => (s, i, none, some x)
      | .ok (t, forced) =>
        let (s, x) := s.emit e t false forced
        (s, i, some t, x)
    | d :: ds =>
      let s := ({ s with mask := masks.headD none } : Gen).sampled e (outs.headD [])
      match s.choose e (p + i + 1) (outs.headD []) with
      | .error x => (s.settle (ds.length + 1) (masks.headD none), i, none, some x)
      | .ok (t, forced) =>
        if t = d ∧ !forced then
          match s.emit e t true false with
          | (s, some x) => (s.settle ds.length ((masks.drop 1).headD none), i + 1, none, some x)
          | (s, none) => Gen.accept s e p (i + 1) ds (masks.drop 1) (outs.drop 1)
        else
          let (s, x) := (s.settle (ds.length + 1) (masks.headD none)).emit e t false forced
          (s, i, some t, x)

/-! ### Sparse reads (R422) -/

/-- Bits that differ. -/
def bitDiffs (x y : List Bool) : Nat := ((x.zip y).filter fun p => p.1 != p.2).length

/-- The blocks that a round reads for a layer group: every block, or block 0, the S selected ones and the last four. -/
def Block.sparseBlocks (b : Block) (n count sel group : Nat) (query : List Bool) : List Nat :=
  if count ≤ sel + 5 then List.range count
  else
    let tbl := (b.ctx n).blocks
    let score := fun (i : Nat) => match tbl[i]? with
      | some e => match b.frame e.frame with
        | some f => (256 : Int) - 2 * (bitDiffs query (f.sketch group) : Int)
        | none => 0
      | none => 0
    let us := (List.range (count - 5)).map fun i => some (ordered 1 (BitVec.ofInt 32 (score (i + 1))))
    0 :: (selectPos id sel us).map (· + 1) ++ (List.range 4).map (count - 4 + ·)

/-! ### DECODE -/

/-- The draft generator of SPEC, its number and length, when it may draft for `g` (R420). -/
def Block.draftOf (b : Block) (n : Nat) (g : GeneratorDecl) : Except Code (Option (GeneratorDecl × Nat × Nat)) :=
  let c := b.ctx n
  match c.spec with
  | none => .ok none
  | some (o, len) =>
    match b.liveObj? c.tenant o, b.generator c.tenant o with
    | none, _ => .error Codes.noObject
    | some _, none => .error Codes.draftBad
    | some _, some d =>
      if d.vocabObj = g.vocabObj ∧ d.endToken = g.endToken ∧ !d.sliced then .ok (some (d, o, len)) else .error Codes.draftBad

/-- Declared delivered CCLK of a round's tile task (R431), drafts included. -/
def Block.roundCclk (b : Block) (n : Nat) (i : RInstr) (g : GeneratorDecl) (draft : Option (GeneratorDecl × Nat × Nat)) : Nat :=
  let d := match draft with
    | some (_, _, k) => k
    | none => 0
  let blocks := ceilDiv ((b.ctx n).kvLen + i.imm16 + d) 64
  let read := if i.sub = 0 then blocks else min blocks (i.imm32 + 5)
  let own := g.dcFix + g.dcTok * (d + 1) + g.dcBlk * read + (if i.sub = 0 then 0 else g.groups * g.dcSketch * blocks)
  match draft with
  | some (x, _, _) => own + (x.dcFix + x.dcTok + x.dcBlk * blocks) * d
  | none => own

/-- The reins unit that serves a context (R24, R618): that of the quarter in which its decode tile task ran, else the lowest live
one. -/
def Block.reinsUnit (b : Block) (n : Nat) : Nat :=
  let q := ((b.ctx n).step.bind fun st => st.quarter).getD (coachman n % 4)
  if b.fenced 7 q then ((List.range 4).find? fun q => !b.fenced 7 q).getD q else q

/-- A DECODE that stops before its first round: PEND_VALID and NEXT_VALID are cleared as for any stop (R418). -/
def Block.stopDecode (b : Block) (n : Nat) (i : RInstr) (code : Code) : Block :=
  (b.modCtx n fun c => { c with pendTok := none, nextRec := none }).stepCode n i code

/-- DECODE (R377, R414, R420): checks, VOCAB, and the tile task of the first round. -/
def execDecode (ctx : Nat) (s : State) : Host.Outcome State Fault Refusal :=
  s.run fun b => b.onStep ctx 0xB fun i b =>
    let c := b.ctx ctx
    let gram := tGrammar (b.textRec ctx)
    match b.liveObj? c.tenant i.obj, b.generator c.tenant i.obj with
    | none, _ => b.stopDecode ctx i Codes.noObject
    | some _, none => b.stopDecode ctx i Codes.modelMismatch
    | some _, some g =>
      if c.nextRec.isNone then b.stopDecode ctx i Codes.noNext
      else if c.gen ≠ i.obj then b.stopDecode ctx i Codes.genMismatch
      else
        match b.draftOf ctx g with
        | .error e => b.stopDecode ctx i e
        | .ok draft =>
          if g.vocabObj = 0 then b.stopDecode ctx i Codes.noVocab
          else if (b.liveObj? c.tenant g.vocabObj).isNone ∨ (gram ≠ 0 ∧ (b.liveObj? c.tenant gram).isNone) then
            b.stopDecode ctx i Codes.noObject
          else if b.kindGone 5 4 ∨ (gram ≠ 0 ∧ b.kindGone 7 4) then b.stopDecode ctx i Codes.unitFenced
          else
            let spec := match c.spec with
              | some (o, _) => [o]
              | none => []
            let b := b.putText ctx (putField (b.textRec ctx) 0 2 g.vocabObj)
            b.startStep ctx i .rounds true (b.roundCclk ctx i g draft) none none (some ⟨[], false⟩)
              ([i.obj, g.vocabObj] ++ (if gram = 0 then [] else [gram]) ++ spec)

/-- The counters of a round (R432). -/
def Block.countRound (b : Block) (drafted accepted read : Nat) (rolled : Bool) : Block :=
  { b with store := { b.store with
    draftedCount := sat32 b.store.draftedCount drafted
    acceptedCount := sat32 b.store.acceptedCount accepted
    rollbackCount := sat32 b.store.rollbackCount (if rolled then 1 else 0)
    blocksRead := sat32 b.store.blocksRead read } }

/-- The step's code (R380, R399, R416, R419). -/
def GenEnd.code : GenEnd → Code
  | .fail c => c
  | .fired _ => Codes.stopped
  | .last => Codes.ok
  | .forced => Codes.forcedEnd
  | .dead => Codes.grammarDead
  | .limit => Codes.ctxLimit

/-- The step has ended (R382, R383, R417, R418): text, then its result. A closing pass has run already. -/
def Gen.finish (s : Gen) (e : GenEnv) (x : GenEnd) : Block :=
  let stop := match x with
    | .fired k => some k
    | _ => none
  let bad := match x with
    | .fail _ => true
    | _ => false
  let det := if bad then s.det else s.det.finish e.text (tHold s.rec_) stop
  let b := (s.b.putText e.n (setHold s.rec_ [])).textReplies e.n det.out
  b.unitResult e.n { StepResult.ofCode x.code with
    ld := some (kTokens, s.toks.length, (s.toks.map (le 4)).flatten)
    rd := some (BitVec.ofNat 64 s.toks.length) }

/-- Accept positions into the context (R414, R421): the token log, KV_LEN, the next-token record; the rest is rolled back. -/
def Block.acceptKv (b : Block) (n : Nat) (toks : List Nat) (next : List W32) (pend : Option Nat) : Block :=
  ((b.modCtx n fun c => { c with
    kvLen := c.kvLen + toks.length, tokenLog := c.tokenLog ++ toks, pendTok := pend
    nextRec := if toks.isEmpty then c.nextRec else some next }).rollback n)

/-- The end of a step with what is pending (R417 to R419): the closing pass, its data from the round. None: it waits for a page. -/
def Gen.close (s : Gen) (e : GenEnv) (obj : Nat) (r : RoundData) (x : GenEnd) : Option Block :=
  let c := s.b.ctx e.n
  match x, c.pendTok with
  | .fail _, _ => some (s.finish e x)
  | _, none => some (s.finish e x)
  | _, some t =>
    if maxPositions < c.kvLen + 1 then
      let s := { s with b := s.b.modCtx e.n fun c => { c with pendTok := none } }
      some (s.finish e (if x = .dead then x else .limit))
    else
      match s.b.writeRun e.n false e.g obj c.kvLen [(t, r.closeKv)] with
      | .wait => none
      | .fail code => some (s.finish e (.fail code))
      | .done b =>
        match b.growAux e.n e.g.nextBytes 1 with
        | .wait => none
        | .fail code => some (s.finish e (.fail code))
        | .done b => some ({ s with b := (b.acceptKv e.n [t] r.closeLogits none).sliceDecision e.n }.finish e x)

/-- The pass of a round (R414, R421): drafts, tentative writes, acceptance and rollback. None: a frame waits for a page. -/
def Gen.pass (s : Gen) (e : GenEnv) (i : RInstr) (r : RoundData) (draft : Option (GeneratorDecl × Nat × Nat)) (t0 : Nat) :
    Option (Gen × Option GenEnd) :=
  let c := s.b.ctx e.n
  let p := c.kvLen
  let (len, endTok) := match draft with
    | some (d, _, k) => (min k (maxPositions - 1 - p), d.endToken)
    | none => (0, 0)
  let (s, drafts, masks, bad) := s.draft e endTok len r.draftLogits
  match bad with
  | some x => some (s.settle drafts.length (masks.headD none), some x)
  | none =>
    let m := drafts.length
    -- the draft writes what its table lacks below p, then t0 and the drafts it went on from
    let wrote : Alloc := match draft with
      | some (d, o, _) =>
        if m = 0 then .done s.b
        else
          let todo := (c.tokenLog.drop c.draftLen) ++ t0 :: drafts.take (m - 1)
          match s.b.writeRun e.n true d o c.draftLen (todo.zipIdx.map fun (y : Nat × Nat) => (y.1, r.draftKv.getD y.2 ⟨[], []⟩)) with
          | .done b => .done (b.modCtx e.n fun c => { c with draftLen := p + m })
          | x => x
      | none => .done s.b
    let written := match wrote with
      | .done b => b.writeRun e.n false e.g i.obj p ((t0 :: drafts).zipIdx.map fun (y : Nat × Nat) => (y.1, r.kv.getD y.2 ⟨[], []⟩))
      | x => x
    let grown := match written with
      | .done b => b.growAux e.n e.g.nextBytes (m + 2)
      | x => x
    match grown with
    | .wait => none
    | .fail code => some (s.settle m (masks.headD none), some (.fail code))
    | .done b =>
      let count := ceilDiv (p + m + 1) 64
      let read := if i.sub = 0 then count else (b.sparseBlocks e.n count i.imm32 0 (r.queries.headD [])).length
      let b := if read = count then b else (List.range e.g.groups).foldl (fun (b : Block) _ => b.countSelect e.n (count - 5)) b
      let (s, a, pend, x) := Gen.accept { s with b := b } e p 0 drafts masks r.logits
      -- a DEAD grammar before any draft was accepted leaves t0 pending (R416)
      let (toks, pend) := if a = 0 ∧ x = some GenEnd.dead then ([], some t0) else (t0 :: drafts.take a, pend)
      let failed := match x with
        | some (.fail _) => true
        | _ => false
      let b := s.b.acceptKv e.n toks (r.logits.getD a []) (if failed then none else pend)
      some ({ s with b := (b.countRound m a read (decide (toks.length < m + 1))).sliceDecision e.n }, x)

/-- DECODE_ROUND (R142, R385, R399, R414 to R422): a round's tile task has completed and the round is taken. The next round's task
starts, or the step ends. A round that waits for a page changes nothing and is taken again (R170). -/
def execDecodeRound (ctx : Nat) (r : RoundData) (s : State) : Host.Outcome State Fault Refusal :=
  s.run fun b =>
    let c := b.ctx ctx
    match c.step, b.instrAt ctx with
    | some st, some i =>
      match st.decode, b.generator c.tenant i.obj with
      | some dr, some g =>
        let live := match c.req with
          | some q => q.ending.isNone
          | none => false
        if st.opcode ≠ 0xB ∨ st.wait ≠ .rounds ∨ st.tasks ≠ 0 ∨ c.replyWait ∨ c.freeing ∨ !live ∨ c.state ≠ .running ∨ c.recompute then b
        else
          let text := b.textRec ctx
          let gram := tGrammar text
          let e : GenEnv :=
            { n := ctx, tenant := c.tenant, g := g
              gram := if gram = 0 then none else (b.obj? c.tenant gram).map fun o => (gram, o)
              text := bit i.rpl 3, max := i.imm16, seed := c.reg 15, endOnDead := bit i.iflags 0, unit := b.reinsUnit ctx }
          let g0 : Gen := { b := b.nextEpoch, rec_ := text, mask := none, det := ⟨dr.tokens.length, [], []⟩, toks := dr.tokens }
          let (draft, bad) := match b.draftOf ctx g with
            | .ok d => (d, none)
            | .error code => (none, some (GenEnd.fail code))
          let (g1, bad) := match bad with
            | some x => (g0, some x)
            | none =>
              if b.kindGone 5 4 ∨ (gram ≠ 0 ∧ b.kindGone 7 4) then (g0, some (GenEnd.fail Codes.unitFenced))
              else if b.framesPoisoned ctx then ({ g0 with b := g0.b.loseFrames ctx }, some (GenEnd.fail Codes.memPoison))
              else if dr.started then g0.resume e else g0.start e
          let out : Option (Gen × Option GenEnd) :=
            if maxPositions < c.kvLen + 1 then
              some ({ g1 with b := g1.b.modCtx ctx fun c => { c with pendTok := none } }, some .limit)
            else
              match bad with
              | some x => some (g1, some x)
              | none =>
                match c.pendTok with
                | some t => g1.pass e i r draft t
                | none =>
                  let g1 := g1.sampled e (c.nextRec.getD [])
                  match g1.choose e c.kvLen (c.nextRec.getD []) with
                  | .error x => some (g1, some x)
                  | .ok (t, forced) =>
                    match g1.emit e t false forced with
                    | (g2, some (.fail code)) => some (g2, some (.fail code))
                    | (g2, some x) => some ({ g2 with b := g2.b.modCtx ctx fun c => { c with pendTok := some t } }, some x)
                    | (g2, none) => g2.pass e i r draft t
          -- acceptance is decided: SPEC_OPEN goes (R421)
          let decided := fun (b : Block) => b.modCtx ctx fun c => { c with specOpen := false }
          match out with
          | none => b
          | some (x, some fin) => ({ x with b := decided x.b }.close e i.obj r fin).getD b
          | some (x, none) =>
            let b := (decided x.b).putText ctx x.rec_
            let b := b.modCtx ctx fun c => { c with
              step := c.step.map fun st => { st with tasks := 1, decode := some ⟨x.toks, true⟩ } }
            (b.textReplies ctx x.det.out).newTask ctx true 0 0xB (b.roundCclk ctx i g draft)
      | _, _ => b
    | _, _ => b

end Sys2Proof.Machine
end

