-- ==== Sys2Proof/Machine/Gather.lean ====
section
/-!
DEFINITION. Machine/Gather.lean: hashed tables and the gather units (R435 to R459): keys, rows, LOOKUP, UPDATE and KEYS, hot
rows and their migration; the steps GATHER and UPDATE.
-/
namespace Sys2Proof.Machine

/-! ### Tables (R435 to R437) -/

structure Table where
  spread : Nat
  compose : Nat
  fmt : Nat
  direct : Bool
  keys : Bool
  ngram : Nat
  elems : Nat
  bitsA : Nat
  bitsB : Nat
  seedA : Nat
  seedB : Nat
  baseA : Nat
  baseB : Nat
  hotBase : Nat
  homeQ : Nat
  hotRows : Nat
  /-- Tenant virtual address of the table. -/
  addr : Nat
deriving DecidableEq, Repr

/-- Bytes of a row, its stride in the table and in a ROWS list (R437, R441). -/
def Table.rb (t : Table) : Nat := t.elems * elemSize t.fmt
def Table.rs (t : Table) : Nat := roundUp t.rb 16
def Table.rs64 (t : Table) : Nat := roundUp t.rb 64
def Table.composed (t : Table) : Bool := t.compose != 0

/-- The header's fields (R435). -/
def tableOf (addr : Nat) (h : List Byte) : Table :=
  let w := fieldAt h 0 4
  { spread := bits w 15 14, compose := bits w 13 12, fmt := bits w 11 10, direct := bit w 9, keys := bit w 8, ngram := bits w 2 0
    elems := bits (fieldAt h 4 4) 10 0, bitsA := bits (fieldAt h 8 4) 5 0, bitsB := bits (fieldAt h 0xC 4) 5 0
    seedA := fieldAt h 0x10 8, seedB := fieldAt h 0x18 8, baseA := fieldAt h 0x20 8, baseB := fieldAt h 0x28 8
    hotBase := fieldAt h 0x30 8, homeQ := bits (fieldAt h 0x38 4) 18 17, hotRows := bits (fieldAt h 0x38 4) 16 0, addr := addr }

/-- The tier of an object-space address. -/
def Block.tvaHbm (b : Block) (tenant v : Nat) : Option Bool :=
  if v < 2 ^ 47 then (b.liveObj? tenant (v / 2 ^ 35)).map fun o => o.hbm else none

/-- The header passes R436. -/
def Block.tableOk (b : Block) (tenant : Nat) (h : List Byte) (t : Table) : Bool :=
  let w := fieldAt h 0 4
  let single := t.compose == 0
  let rsvd := decide (w < 2 ^ 16) && bits w 7 3 == 0 && decide (fieldAt h 4 4 < 2 ^ 11) && decide (fieldAt h 8 4 < 64) &&
    decide (fieldAt h 0xC 4 < 64) && decide (fieldAt h 0x38 4 < 2 ^ 19) && zeroAt h 0x3C 4
  let common := rsvd && decide (t.spread < 2) && decide (t.compose < 3) && decide (t.fmt < 3) && decide (1 ≤ t.ngram ∧ t.ngram ≤ 4)
  if t.keys then
    common && t.compose == 0 && t.fmt == 0 && !t.direct && t.elems == 0 && t.bitsA == 0 && t.bitsB == 0 && t.seedA == 0 &&
      t.seedB == 0 && t.baseA == 0 && t.baseB == 0 && t.hotBase == 0 && t.hotRows == 0
  else
    common && decide (4 ≤ t.elems ∧ t.elems ≤ 1024) && t.elems % 4 == 0 && decide (1 ≤ t.bitsA ∧ t.bitsA ≤ 40) &&
      (if single then t.bitsB == 0 else decide (1 ≤ t.bitsB ∧ t.bitsB ≤ 40)) && t.seedA % 2 == 1 &&
      (if single then t.seedB == 0 else t.seedB % 2 == 1) && t.baseA % 64 == 0 && t.baseB % 64 == 0 && (!single || t.baseB == 0) &&
      (!t.direct || single) && decide (t.hotRows ≤ 65536) && t.hotRows % 4 == 0 &&
      (if t.hotRows = 0 then t.hotBase == 0
       else single && !t.direct && b.tvaHbm tenant t.baseA == some false && b.tvaHbm tenant t.hotBase == some true)

/-- Read and check a table's header. -/
def Block.gtuTable (b : Block) (c : UnitCmd) : Except Code Table :=
  let v := c.at 8 8
  match b.fetchTask c Codes.gtuXlate v 64 with
  | .error e => .error e
  | .ok h =>
    let t := tableOf v h
    if b.tableOk c.tenant h t then .ok t else .error Codes.gtuTableBad

/-- The quarter that serves a table: HOME_Q, or the next live one (R449, R618). -/
def Block.servedBy (b : Block) (t : Table) : Nat :=
  (((List.range 4).map fun i => (t.homeQ + i) % 4).find? fun q => !b.fenced 6 q).getD t.homeQ

/-! ### Keys and rows (R438, R439) -/

/-- rotl64 by 24. -/
def rotl24 (k : W64) : W64 := k.rotateLeft 24

/-- The key of an n-gram, oldest token first. -/
def gramKey (ts : List Nat) : Nat := (ts.foldl (fun (k : W64) t => rotl24 k ^^^ BitVec.ofNat 64 (t + 1)) 0).toNat

/-- Keys of a token string. -/
def gramKeys (n : Nat) (ts : List Nat) : List Nat :=
  if ts.length < n then [] else (List.range (ts.length + 1 - n)).map fun j => gramKey ((ts.drop j).take n)

/-- Row of a key in a sub-table with a seed. -/
def hashRow (k seed rbits : Nat) : Nat := k * seed % 2 ^ 64 / 2 ^ (64 - rbits)

/-- Rows of A and B for a key; none: the key is invalid. -/
def Table.rowOf (t : Table) (k : Nat) : Option (Nat × Nat) :=
  if k = 2 ^ 64 - 1 then none
  else if t.direct then (if k < 2 ^ t.bitsA then some (k, 0) else none)
  else some (hashRow k t.seedA t.bitsA, if t.composed then hashRow k t.seedB t.bitsB else 0)

/-! ### Elements (R437, R440) -/

/-- A row's elements as they are stored: codes in the table's format. -/
def rowCodes (fmt : Nat) (bs : List Byte) : List W32 := (entries (elemSize fmt) bs).map (BitVec.ofNat 32)

/-- Codes as F32 words; the conversion is exact. -/
def codesF32 (fmt : Nat) (cs : List W32) : List W32 :=
  if fmt = 0 then cs
  else cs.map fun v => ((if fmt = 1 then bf16 else e4m3).read v.toNat).toF32

/-- F32 words as codes, to nearest-even (R440). -/
def f32Codes (fmt : Nat) (ws : List W32) : List W32 :=
  if fmt = 0 then ws
  else ws.map fun w => BitVec.ofNat 32 ((if fmt = 1 then bf16 else e4m3).convert false (f32 w)).val

/-- Codes as bytes. -/
def codeBytes (fmt : Nat) (cs : List W32) : List Byte := (cs.map fun v => le (elemSize fmt) v.toNat).flatten

/-- A row's elements as F32 words. -/
def rowF32 (fmt : Nat) (bs : List Byte) : List W32 := codesF32 fmt (rowCodes fmt bs)

/-- F32 words as a row in the table's format, to nearest-even (R440). -/
def packRow (fmt : Nat) (ws : List W32) : List Byte := codeBytes fmt (f32Codes fmt ws)

def zipWith32 (f : W32 → W32 → W32) (x y : List W32) : List W32 := (x.zip y).map fun p => f p.1 p.2

/-! ### Hot rows (R455, R456) -/

def Table.hotSlot (t : Table) (s : Nat) : Nat := t.hotBase + 64 + 16 * s
def Table.hotRow (t : Table) (s : Nat) : Nat := t.hotBase + 64 + 16 * t.hotRows + s * t.rs

/-- Slots of a row's bucket. -/
def Table.bucketSlots (t : Table) (r : Nat) : List Nat := (List.range 4).map fun i => 4 * (r % (t.hotRows / 4)) + i

/-- A directory slot's ROW, STATE and HITS. -/
def slotOf (v : Nat) : Nat × Nat × Nat := (bits v 39 0, bits v 41 40, bits v 63 48)
def slotWord (row st hits : Nat) : Nat := row + st * 2 ^ 40 + hits * 2 ^ 48

/-- Read a directory slot of the hot area. -/
def Block.hotSlotAt (b : Block) (tenant : Nat) (t : Table) (s : Nat) : Option (Nat × Nat × Nat) :=
  (b.readV tenant (t.hotSlot s) 8).map fun x => slotOf (unle x)

/-- Write a directory slot; the hot area is the module's own (R455). -/
def Block.setHotSlot (b : Block) (tenant : Nat) (t : Table) (s row st hits : Nat) : Block :=
  (b.writeV tenant (t.hotSlot s) (le 8 (slotWord row st hits))).getD b

/-- Where a row of sub-table A is read and written now: the slot that serves it, if any (R456). -/
def Block.servingSlot (b : Block) (tenant : Nat) (t : Table) (r : Nat) : Option Nat :=
  if t.hotRows = 0 then none
  else (t.bucketSlots r).find? fun s => match b.hotSlotAt tenant t s with
    | some (row, st, _) => row == r && (st == 1 || st == 3)
    | none => false

/-- What a fetch of a row does to the hot area (R456): HITS of the slot that serves it, else SAMPLE and perhaps a candidate. -/
def Block.hotFetch (b : Block) (q tenant : Nat) (t : Table) (r : Nat) : Block :=
  if t.hotRows = 0 then b
  else
    match b.servingSlot tenant t r with
    | some s =>
      match b.hotSlotAt tenant t s with
      | some (row, st, hits) => b.setHotSlot tenant t s row st (min 65535 (hits + 1))
      | none => b
    | none =>
      let g := b.gtuQ q
      match b.readV tenant t.hotBase 4 with
      | none => b
      | some x =>
        let sample := unle x + 1
        let hit := decide (g.hotSample.toNat ≤ sample)
        let b := (b.writeV tenant t.hotBase (le 4 (if hit then 0 else sample))).getD b
        if hit && g.lane.isNone && g.candidate.isNone then
          b.modGtu q fun g => { g with candidate := some (tenant, t.addr, t.addr / 2 ^ 35, r) }
        else b

/-! ### Tables across a team (R450) -/

/-- The members that share a table, in order of position: those that the team expects, the lost ones too, whose rows stay theirs; this
module alone where it has no team. -/
def Block.teamPositions (b : Block) : List Nat :=
  let ps := (List.range 8).filter fun p => bit b.cb.expected.toNat p
  if ps.contains b.position then ps else [b.position]

/-- An owner of rows can be reached (R450). -/
def Block.reaches (b : Block) (pos : Nat) : Bool := pos == b.position || (b.inTeam && bit b.cb.present.toNat pos)

/-- The position that owns row r of a sub-table with 2^rbits rows. -/
def Block.rowOwner (b : Block) (t : Table) (rbits r : Nat) : Nat :=
  if t.spread = 0 then b.position
  else
    let ps := b.teamPositions
    ps.getD (r * ps.length / 2 ^ rbits) b.position

/-- Where row r of a sub-table lies on its owner. -/
def Block.rowAddr (b : Block) (t : Table) (base rbits r : Nat) : Nat :=
  if t.spread = 0 then base + r * t.rs
  else
    let ps := b.teamPositions
    let m := r * ps.length / 2 ^ rbits
    base + (r - ceilDiv (m * 2 ^ rbits) ps.length) * t.rs

/-- Rows are named across sub-tables by number: those of B from 2^40. -/
def rowB : Nat := 2 ^ 40

def Block.ownerOf (b : Block) (t : Table) (n : Nat) : Nat :=
  if n < rowB then b.rowOwner t t.bitsA n else b.rowOwner t t.bitsB (n - rowB)

def Block.addrOf (b : Block) (t : Table) (n : Nat) : Nat :=
  if n < rowB then b.rowAddr t t.baseA t.bitsA n else b.rowAddr t t.baseB t.bitsB (n - rowB)

/-- A command of the module's own on a table of a tenant, for the lane's and other members' accesses. -/
def laneCmd (tenant addr : Nat) : UnitCmd :=
  { station := 3, quarter := 0, coach := none, tag := 0, desc := 0, task := 0, tenant := tenant, ctx := 0, decode := false
    firmware := true, deferred := true, ranges := [], bytes := fitBytes 64 (le 8 0 ++ le 8 addr), seq := 0 }

/-- Fetch an own row: its elements' codes, and what the fetch does to the hot area. -/
def Block.fetchRow (b : Block) (q : Nat) (c : UnitCmd) (t : Table) (n : Nat) : Except Code (Block × List W32) :=
  let serving := if n < rowB then b.servingSlot c.tenant t n else none
  let v := match serving with
    | some s => t.hotRow s
    | none => b.addrOf t n
  match b.fetchTask c Codes.gtuXlate v t.rb with
  | .error e => .error e
  | .ok bs => .ok ((if n < rowB then b.hotFetch q c.tenant t n else b).touched [(v, t.rb)], rowCodes t.fmt bs)

/-- Fetch rows in order. -/
def Block.fetchRows (b : Block) (q : Nat) (c : UnitCmd) (t : Table) : List Nat → Except Code (Block × List (Nat × List W32))
  | [] => .ok (b, [])
  | n :: ns =>
    match b.fetchRow q c t n with
    | .error e => .error e
    | .ok (b, x) =>
      match b.fetchRows q c t ns with
      | .error e => .error e
      | .ok (b, xs) => .ok (b, (n, x) :: xs)

/-! ### Command fields and checks (R444, R445) -/

def UnitCmd.gtuOp (c : UnitCmd) : Nat := c.at 0 1
def UnitCmd.gtuPool (c : UnitCmd) : Bool := bit (c.at 0 4) 8
def UnitCmd.gtuTok (c : UnitCmd) : Bool := bit (c.at 0 4) 9
def UnitCmd.gtuN (c : UnitCmd) : Nat := bits (c.at 4 4) 16 0
def UnitCmd.gtuSrc (c : UnitCmd) : Nat := c.at 0x10 8
def UnitCmd.gtuDelta (c : UnitCmd) : Nat := c.at 0x18 8
def UnitCmd.gtuOut (c : UnitCmd) : Nat := c.at 0x20 8

/-- A LOOKUP or KEYS that a GATHER step of this module issues: its result goes to the step. -/
def UnitCmd.ofStep (c : UnitCmd) : Bool := c.coach.isNone && !c.deferred

/-- A step's UPDATE cannot change a key table, a composed table or a DIRECT table (R443). -/
def Table.updatable (t : Table) : Bool := !t.keys && !t.composed && !t.direct

/-- Keys that a command forms (R438). -/
def UnitCmd.gtuKeyCount (c : UnitCmd) (t : Table) : Nat := if c.gtuTok then c.gtuN + 1 - t.ngram else c.gtuN

/-- Bytes that a LOOKUP or KEYS writes at OUT (R441, R446). -/
def UnitCmd.gtuOutLen (c : UnitCmd) (t : Table) : Nat :=
  if c.gtuOp = 3 then 8 * c.gtuKeyCount t else if c.gtuPool then t.rs64 else c.gtuKeyCount t * t.rs64

/-- The checks of R445 and R436 on quarter q. -/
def Block.gtuCheck (b : Block) (q : Nat) (c : UnitCmd) : Except Code Table :=
  let op := c.gtuOp
  let rsvd := decide (c.at 0 4 < 2 ^ 10) && decide (c.at 4 4 < 2 ^ 17) && c.zero 0x28 24 && (op == 2 || c.gtuDelta == 0) &&
    (op != 2 || c.gtuOut == 0)
  if !rsvd then .error Codes.badRsvd
  else
    match b.gtuTable c with
    | .error e => .error e
    | .ok t =>
      let n := c.gtuN
      let nOk := decide (1 ≤ n) && (if c.gtuTok then decide (n + 1 ≤ 65536 + t.ngram) else decide (n ≤ 65536))
      let align := c.at 8 8 % 64 == 0 && c.gtuSrc % (if c.gtuTok then 4 else 8) == 0 && c.gtuOut % 64 == 0 && c.gtuDelta % 64 == 0
      let ok := decide (1 ≤ op ∧ op ≤ 3) && nOk && align && !(op == 1 && t.keys) && !(op == 3 && !t.keys) && !(c.gtuPool && op != 1) &&
        !(op == 2 && (!c.deferred || !t.updatable)) && !(op != 2 && c.deferred)
      let out := c.gtuOutLen t
      if b.servedBy t ≠ q then .error Codes.gtuWrongUnit
      else if !ok then .error Codes.gtuOperand
      else if op ≠ 2 ∧ !c.ofStep ∧ !(out == 0 || inRanges c.ranges c.gtuOut out) then .error Codes.gtuTarget
      else .ok t

/-- The keys of a command (R438). -/
def Block.gtuKeys (b : Block) (c : UnitCmd) (t : Table) : Except Code (List Nat) :=
  (b.fetchTask c Codes.gtuXlate c.gtuSrc (c.gtuN * (if c.gtuTok then 4 else 8))).map fun bs =>
    if c.gtuTok then gramKeys t.ngram (entries 4 bs) else entries 8 bs

/-! ### Results -/

/-- Fields of the completion record (R452). -/
def gtuRecord (code : Code) (keys unique defaulted remote : Nat) : List Byte :=
  le 4 code.toNat ++ le 4 keys ++ le 4 unique ++ le 4 defaulted ++ le 4 remote

/-- Distinct numbers in rising order. -/
def distinct (l : List Nat) : List Nat :=
  (sortBy (fun x y => decide (x ≤ y)) l).foldl (fun acc x => if acc.getLast? = some x then acc else acc ++ [x]) []

/-- Rows that keys need, by number across the sub-tables. -/
def Table.needs (t : Table) (keys : List Nat) : List Nat :=
  let rs := keys.filterMap t.rowOf
  distinct (rs.map (·.1)) ++ (if t.composed then (distinct (rs.map (·.2))).map (rowB + ·) else [])

/-- The row of a key out of fetched rows, in the table's codes: the stored row under SINGLE and for the default row, a composed
row converted (R440). -/
def Table.compose1 (t : Table) (got : List (Nat × List W32)) (dflt : List W32) (k : Nat) : List W32 :=
  match t.rowOf k with
  | none => dflt
  | some (a, r) =>
    let x := (got.lookup a).getD []
    let y := (got.lookup (rowB + r)).getD []
    if t.compose = 0 then x
    else f32Codes t.fmt (zipWith32 (if t.compose = 1 then mulF32 else addF32) (codesF32 t.fmt x) (codesF32 t.fmt y))

/-- An entry: its row's codes, zeros up to RS64 (R441). -/
def Table.entry (t : Table) (cs : List W32) : List Byte := fitBytes t.rs64 (codeBytes t.fmt cs)

/-- Elementwise maximum of rows of codes (R447); a NaN gives the default NaN, in one row too. -/
def poolRows (fmt : Nat) (rows : List (List W32)) : List W32 :=
  match rows.map (codesF32 fmt) with
  | [] => []
  | x :: xs => f32Codes fmt ((x :: xs).foldl (zipWith32 maxF32) x)

/-- A result of a step's command joins the step: entries are appended, pooled ones combined by the maximum (R442). The step's
last command makes the result final. -/
def Block.gatherPart (b : Block) (n : Nat) (t : Table) (pool : Bool) (count : Nat) (bytes : List Byte) : Block :=
  let more := b.gtu.any fun g => g.2.queue.any fun c => c.ofStep && c.ctx == n
  let hdr := if t.keys then [] else fitBytes 64 (le 4 (t.elems + t.fmt * 2 ^ 11))
  let join := fun (r : Option StepResult) =>
    let r0 := r.getD (StepResult.ofCode Codes.ok)
    match r0.ld with
    | none => { r0 with ld := some (if t.keys then kIndices else kRows, count, hdr ++ bytes) }
    | some (k, c, old) =>
      if pool then
        { r0 with ld := some (k, 1, hdr ++ t.entry (poolRows t.fmt [rowCodes t.fmt ((old.drop 64).take t.rb), rowCodes t.fmt (bytes.take t.rb)])) }
      else { r0 with ld := some (k, c + count, old ++ bytes) }
  let b := b.modCtx n fun c => { c with step := c.step.map fun st => { st with
    result := some (join st.result), wait := if more then st.wait else .task } }
  b.stepCheck n

/-- A step's command fails: the step ends with its code, and its other commands go. -/
def Block.gatherFail (b : Block) (n : Nat) (code : Code) : Block :=
  let b := { b with gtu := tabMap (fun _ (u : Gtu) => { u with queue := u.queue.filter fun c => !(c.ofStep && c.ctx == n) }) b.gtu }
  b.unitResult n (StepResult.ofCode code)

/-- A command ends with a code other than OK. -/
def Block.gtuFail (b : Block) (q : Nat) (c : UnitCmd) (code : Code) : Block :=
  let b := b.modGtu q fun g => { g with cmdCount := sat32 g.cmdCount 1 }
  -- a translation fault leaves what may have been written at OUT undefined (R445)
  let b : Block := match b.gtuTable c with
    | .ok t => if code = Codes.gtuXlate ∧ !c.ofStep ∧ !c.deferred then b.outUndefined c c.gtuOut (c.gtuOutLen t) else b
    | .error _ => b
  if c.ofStep then (b.unblockCtx c.ctx).gatherFail c.ctx code
  else if c.deferred then b.updateFail q c code
  else b.cmdCode c code

/-- A LOOKUP has all its rows (R446, R447): it writes its entries and completes. -/
def Block.lookupDone (b : Block) (q : Nat) (c : UnitCmd) (t : Table) (keys : List Nat) (got : List (Nat × List W32))
    (remote : Nat) : Block :=
  let b := if c.ofStep then b.unblockCtx c.ctx else b
  match b.fetchTask c Codes.gtuXlate (t.addr + 0x80) t.rb with
  | .error e => b.gtuFail q c e
  | .ok d =>
    let dflt := rowCodes t.fmt d
    let rows := keys.map (t.compose1 got dflt)
    let pooled := if rows.isEmpty then dflt else poolRows t.fmt rows
    let bytes := if c.gtuPool then t.entry pooled else (rows.map t.entry).flatten
    let valid := keys.filterMap t.rowOf
    let unique := if t.composed then (distinct (valid.map fun r => r.1 * rowB + r.2)).length else (distinct (valid.map (·.1))).length
    let b := b.modGtu q fun g => { g with cmdCount := sat32 g.cmdCount 1, rowCount := sat32 g.rowCount unique }
    if c.ofStep then b.gatherPart c.ctx t c.gtuPool (if c.gtuPool then 1 else keys.length) bytes
    else
      match if bytes.isEmpty then some b else b.writeTask c c.gtuOut bytes with
      | none => (b.outUndefined c c.gtuOut bytes.length).cmdCode c Codes.gtuXlate
      | some b => b.cmdDone c (gtuRecord Codes.ok keys.length unique (keys.length - valid.length) remote)

/-- The table a step names: NO_OBJECT, or GTU_TABLE_BAD for another kind or a bad header. -/
def Block.stepTable (b : Block) (tenant obj : Nat) : Except Code Table :=
  match b.liveObj? tenant obj with
  | none => .error Codes.noObject
  | some o => if o.kind ≠ 10 then .error Codes.gtuTableBad else b.gtuTable (laneCmd tenant (obj * 2 ^ 35))

/-! ### Running the command at the front of a unit's queue -/

/-- The command that the unit runs next (R449): the front of its queue; while a LOOKUP waits for other members' rows, the first batch
forwarded from one, so that two members never wait for each other (DESIGN CHOICE, assumption 126). -/
def Gtu.next (g : Gtu) : Option UnitCmd := if g.wait.isNone then g.queue.head? else g.queue.find? fun c => c.forwarded.isSome

/-- The unit's next command runs, when it is of the row's operation (R449): a forwarded batch by `fwd`, any other after its checks. -/
def Block.gtuRun (b : Block) (q : Nat) (mine : Nat → Bool) (fwd : Block → UnitCmd → Forward → Block)
    (f : Block → UnitCmd → Table → List Nat → Block) : Block :=
  match (b.gtuQ q).next with
  | none => b
  | some c =>
    if !mine c.gtuOp then b
    else
      let b := b.modGtu q fun g => { g with queue := g.queue.erase c }
      match c.forwarded with
      | some w => fwd b c w
      | none =>
        match b.gtuCheck q c with
        | .error e => b.gtuFail q c e
        | .ok t =>
          match b.gtuKeys c t with
          | .error e => b.gtuFail q c e
          | .ok keys => f (b.touched [(c.gtuSrc, c.gtuN * (if c.gtuTok then 4 else 8))]) c t keys

/-- Rows of this member for a LOOKUP of another one (R450). -/
def Block.serveRows (b : Block) (q : Nat) (c : UnitCmd) (w : Forward) : Block :=
  let b := b.modGtu q fun g => { g with cmdCount := sat32 g.cmdCount 1 }
  let base := { b.resultOf w.msg Codes.ok with gather := true }
  match w.msg.body with
  | .lookup obj rows =>
    match b.stepTable c.tenant obj with
    | .error e => b.answerWork w.domain w.dest { base with code := e }
    | .ok t =>
      match b.fetchRows q c t rows with
      | .error e => b.answerWork w.domain w.dest { base with code := e }
      | .ok (b, got) =>
        (b.modGtu q fun g => { g with rowCount := sat32 g.rowCount rows.length }).answerWork w.domain w.dest
          { base with ids := rows, rows := got.map (·.2) }
  | _ => b

/-- Ask other members for rows or send them deltas (R450). -/
def Block.gtuWork (b : Block) (c : UnitCmd) (q pos : Nat) (body : WorkBody) : Block :=
  b.cbEmit (.work pos false
    { module := b.position, version := b.sec.svn, ctx := c.ctx, coachman := coachman c.ctx, tenant := c.tenant
      dtid := (b.ten c.tenant).dtid, setIdx := q
      pin := none, body := body })

/-- LOOKUP (R440, R446, R447, R450). An invalid OP is refused by its check here. -/
def execLookup (quarter : Nat) (s : State) : Host.Outcome State Fault Refusal :=
  s.run fun b => b.gtuRun quarter (fun op => op == 1 || op == 0 || decide (3 < op)) (fun b c w => b.serveRows quarter c w) fun b c t keys =>
    let need := t.needs keys
    let own := need.filter fun n => b.ownerOf t n == b.position
    let other := need.filter fun n => b.ownerOf t n != b.position
    if other.any fun n => !b.reaches (b.ownerOf t n) then b.gtuFail quarter c Codes.teamLost else
    match b.fetchRows quarter c t own with
    | .error e => b.gtuFail quarter c e
    | .ok (b', got) =>
      if other.isEmpty then b'.lookupDone quarter c t keys got 0
      else
        let owed := (b.teamPositions.map fun p => (p, other.filter fun n => b.ownerOf t n == p)).filter fun x => !x.2.isEmpty
        let b' := owed.foldl (fun (b : Block) (x : Nat × List Nat) => b.gtuWork c quarter x.1 (.lookup (t.addr / 2 ^ 35) x.2)) b'
        let b' := if c.ofStep then b'.blockCtx c.ctx else b'
        b'.modGtu quarter fun g => { g with wait := some ⟨c, owed, got⟩ }

/-- KEYS (R442, R446). -/
def execKeys (quarter : Nat) (s : State) : Host.Outcome State Fault Refusal :=
  s.run fun b => b.gtuRun quarter (· == 3) (fun b _ _ => b) fun b c t keys =>
    let bytes := (keys.map (le 8)).flatten
    let b := b.modGtu quarter fun g => { g with cmdCount := sat32 g.cmdCount 1 }
    if c.ofStep then b.gatherPart c.ctx t false keys.length bytes
    else
      match if bytes.isEmpty then some b else b.writeTask c c.gtuOut bytes with
      | none => (b.outUndefined c c.gtuOut bytes.length).cmdCode c Codes.gtuXlate
      | some b => b.cmdDone c (gtuRecord Codes.ok keys.length 0 0 0)

/-! ### UPDATE (R443, R448, R458) -/

/-- The deltas of a row in the order the unit adds them: the spec fixes none, so the order is free. -/
def deltaOrder (epoch : Nat) (ds : List (List W32)) : List (List W32) :=
  (sortBy (fun (x y : List W32 × Nat) => decide (Config.freeNat epoch x.2 ≤ Config.freeNat epoch y.2)) ds.zipIdx).map (·.1)

/-- The summed delta of a row. -/
def sumDeltas (epoch : Nat) (ds : List (List W32)) : List W32 :=
  match deltaOrder epoch ds with
  | [] => []
  | x :: xs => xs.foldl (zipWith32 addF32) x

/-- Write a row of sub-table A with a delta added (R448); a row being copied also enters the ledger, and a full ledger abandons
the migration (R458). -/
def Block.addRow (b : Block) (q : Nat) (c : UnitCmd) (t : Table) (n : Nat) (delta : List W32) : Except Code Block :=
  let v := match b.servingSlot c.tenant t n with
    | some s => t.hotRow s
    | none => b.addrOf t n
  match b.fetchTask c Codes.gtuXlate v t.rb with
  | .error e => .error e
  | .ok old =>
    match b.writeV c.tenant v (packRow t.fmt (zipWith32 addF32 (rowF32 t.fmt old) delta)) with
    | none => .error Codes.gtuXlate
    | some b =>
      let b := b.hotFetch q c.tenant t n
      let g := b.gtuQ q
      match g.lane with
      | none => .ok b
      | some l =>
        if l.tenant ≠ c.tenant ∨ l.table ≠ t.addr ∨ l.row ≠ n then .ok b
        else if 256 ≤ g.ledger.length then .ok (b.abandonLane q true)
        else .ok (b.modGtu q fun g => { g with ledger := g.ledger ++ [⟨t.addr, n, delta⟩] })

/-- Add a batch of summed deltas, all rows or none (R448, R451). -/
def Block.addRows (b : Block) (q : Nat) (c : UnitCmd) (t : Table) : List (Nat × List W32) → Except Code Block
  | [] => .ok b
  | (n, d) :: r =>
    match b.addRow q c t n d with
    | .error e => .error e
    | .ok b => b.addRows q c t r

/-- A forwarded batch of summed deltas is applied (R448, R450); it answers nothing. -/
def Block.serveDeltas (b : Block) (q : Nat) (c : UnitCmd) (w : Forward) : Block :=
  let b := b.modGtu q fun g => { g with cmdCount := sat32 g.cmdCount 1 }
  match w.msg.body with
  | .update obj rows deltas =>
    match b.stepTable c.tenant obj with
    | .error e => b.updateFail q c e
    | .ok t =>
      match b.addRows q c t (rows.zip deltas) with
      | .error e => b.updateFail q c e
      | .ok b => b.modGtu q fun g => { g with rowCount := sat32 g.rowCount rows.length }
  | _ => b

/-- GTU_UPDATE (R448 to R451, R458): sums per distinct row, own rows written once, the others' sums sent to their owners. A part that
cannot be delivered is lost and recorded (R450). -/
def execGtuUpdate (quarter : Nat) (s : State) : Host.Outcome State Fault Refusal :=
  s.run fun b => b.gtuRun quarter (· == 2) (fun b c w => b.serveDeltas quarter c w) fun b c t keys =>
    match b.fetchTask c Codes.gtuXlate c.gtuDelta (keys.length * t.rs64) with
    | .error e => b.gtuFail quarter c e
    | .ok ds =>
      let rows := (chunks t.rs64 ds).map fun d => rowF32 t.fmt (d.take t.rb)
      let pairs := (keys.zip rows).filterMap fun p => (t.rowOf p.1).map fun r => (r.1, p.2)
      let need := distinct (pairs.map (·.1))
      let sum := fun (n : Nat) => sumDeltas (b.epoch + n) ((pairs.filter fun p => p.1 == n).map (·.2))
      let own := (need.filter fun n => b.ownerOf t n == b.position).map fun n => (n, sum n)
      match b.addRows quarter c t own with
      | .error e => b.gtuFail quarter c e
      | .ok b' =>
        let owed := ((b.teamPositions.filter (· != b.position)).map fun p => (p, need.filter fun n => b.ownerOf t n == p)).filter
          fun x => !x.2.isEmpty
        let b' := (owed.filter fun x => b.reaches x.1).foldl (fun (b : Block) (x : Nat × List Nat) =>
          b.gtuWork c quarter x.1 (.update (t.addr / 2 ^ 35) x.2 (x.2.map sum))) b'
        let b' := if owed.any fun x => !b.reaches x.1 then b'.updateFail quarter c Codes.teamLost else b'
        (b'.nextEpoch).modGtu quarter fun g => { g with
          cmdCount := sat32 g.cmdCount 1, rowCount := sat32 g.rowCount own.length }

/-! ### Hot-row migration (R456 to R459) -/

/-- Begin to fill a slot with a row (R457 step 2): FILLING, and the row's copy is read. -/
def Block.beginFill (b : Block) (q tenant : Nat) (t : Table) (obj s r : Nat) : Block :=
  match b.readV tenant (b.addrOf t r) t.rb with
  | none => b.modGtu q fun g => { g with lane := none, ledger := [], abandonCount := sat32 g.abandonCount 1 }
  | some copy =>
    (b.setHotSlot tenant t s r 2 0).modGtu q fun g => { g with
      lane := some ⟨tenant, t.addr, obj, s, r, r, false, copy⟩, ledger := [] }

/-- HOT_ROW_MIGRATION (R456, R457): the lane takes the candidate row: the lowest FREE slot of its bucket, else the VALID slot of
lowest HITS below GTU_HOT_EVICT, which is drained first; failing both, the bucket's HITS are halved. -/
def execHotRowMigration (quarter : Nat) (s : State) : Host.Outcome State Fault Refusal :=
  s.run fun b =>
    let g := b.gtuQ quarter
    match g.candidate with
    | none => b
    | some (tenant, addr, obj, r) =>
      let b := b.modGtu quarter fun g => { g with candidate := none }
      match b.gtuTable (laneCmd tenant addr) with
      | .error _ => b
      | .ok t =>
        if g.lane.isSome ∨ b.fenced 6 quarter ∨ t.hotRows = 0 then b
        else
          let slots := (t.bucketSlots r).filterMap fun i => (b.hotSlotAt tenant t i).map fun x => (i, x)
          match slots.find? fun x => x.2.2.1 == 0 with
          | some (i, _) => b.beginFill quarter tenant t obj i r
          | none =>
            let cold := slots.filter fun x => x.2.2.1 == 1 && decide (x.2.2.2 < g.hotEvict.toNat)
            match (sortBy (fun x y => decide (x.2.2.2 ≤ y.2.2.2)) cold).head? with
            | some (i, row, _, hits) =>
              match b.readV tenant (t.hotRow i) t.rb with
              | none => b
              | some copy =>
                (b.setHotSlot tenant t i row 3 hits).modGtu quarter fun g => { g with
                  lane := some ⟨tenant, addr, obj, i, row, r, true, copy⟩, ledger := [] }
            | none =>
              slots.foldl (fun (b : Block) (x : Nat × Nat × Nat × Nat) => b.setHotSlot tenant t x.1 x.2.1 x.2.2.1 (x.2.2.2 / 2)) b

/-- The ledger's deltas replayed into a copy (R457, R458). -/
def replayLedger (fmt : Nat) (es : List LedgerEnt) (copy : List Byte) : List Byte :=
  es.foldl (fun c e => packRow fmt (zipWith32 addF32 (rowF32 fmt c) e.delta)) copy

/-- MIGRATION_COMMIT (R457, R459): the copy with the ledger's replays takes effect: a drained slot is FREE and is filled with the
candidate row next; a filled slot is VALID with HITS 0. -/
def execMigrationCommit (quarter : Nat) (s : State) : Host.Outcome State Fault Refusal :=
  s.run fun b =>
    let g := b.gtuQ quarter
    match g.lane with
    | none => b
    | some l =>
      match b.gtuTable (laneCmd l.tenant l.table) with
      | .error _ => b.abandonLane quarter true
      | .ok t =>
        let copy := replayLedger t.fmt g.ledger l.copy
        if l.draining then
          match b.writeV l.tenant (b.addrOf t l.row) copy with
          | none => b.abandonLane quarter true
          | some b => (b.setHotSlot l.tenant t l.slot l.row 0 0).beginFill quarter l.tenant t l.obj l.slot l.newRow
        else
          match b.writeV l.tenant (t.hotRow l.slot) copy with
          | none => b.abandonLane quarter true
          | some b =>
            (b.setHotSlot l.tenant t l.slot l.row 1 0).modGtu quarter fun g => { g with
              lane := none, ledger := [], migrateCount := sat32 g.migrateCount 1 }

/-! ### Steps GATHER and UPDATE (R442, R443) -/

/-- A gather command of a context's step. -/
def stepGtuCmd (n tenant obj q op : Nat) (deferred pool tok : Bool) (count src delta : Nat) : UnitCmd :=
  { station := 3, quarter := q, coach := none, tag := 0, desc := 0, task := 0, tenant := tenant, ctx := n, decode := false
    firmware := true, deferred := deferred, ranges := [], seq := 0
    bytes := fitBytes 64 (le 4 (op + (if pool then 256 else 0) + (if tok then 512 else 0)) ++ le 4 count ++ le 8 (obj * 2 ^ 35) ++
      le 8 src ++ le 8 delta) }

/-- The runs of at most 65,536 keys of `count` entries: first entry and entries (R442). -/
def keyRuns (tok : Bool) (ngram count : Nat) : List (Nat × Nat) :=
  let keys := if tok then count + 1 - ngram else count
  (List.range (ceilDiv keys 65536)).map fun i =>
    let k := min 65536 (keys - 65536 * i)
    (65536 * i, if tok then k + ngram - 1 else k)

/-- GATHER (R442): one LOOKUP or KEYS command for each run of keys; no keys give an empty list, or the default row. -/
def execGather (ctx : Nat) (s : State) : Host.Outcome State Fault Refusal :=
  s.run fun b => b.onStep ctx 3 fun i b =>
    let c := b.ctx ctx
    let l := c.list i.la
    match b.stepTable c.tenant i.obj with
    | .error e => b.stepCode ctx i e
    | .ok t =>
      if !b.listIs ctx i.la [kTokens, kIndices] then b.stepCode ctx i Codes.listKind
      else if b.kindGone 6 4 then b.stepCode ctx i Codes.unitFenced
      else if t.keys ∧ i.sub ≠ 0 then b.stepCode ctx i Codes.gtuOperand
      else
        let tok := l.kind == kTokens
        let pool := i.sub == 1
        let runs := keyRuns tok t.ngram l.count
        let src := ctxTva (l.offset * 64)
        let cmds := runs.map fun r =>
          stepGtuCmd ctx c.tenant i.obj (b.servedBy t) (if t.keys then 3 else 1) false pool tok r.2 (src + r.1 * (if tok then 4 else 8)) 0
        if cmds.isEmpty then
          let hdr := fitBytes 64 (le 4 (t.elems + t.fmt * 2 ^ 11))
          match b.fetchTask (laneCmd c.tenant t.addr) Codes.gtuXlate (t.addr + 0x80) t.rb with
          | .error e => b.stepCode ctx i e
          | .ok d =>
            let ld := if t.keys then (kIndices, 0, []) else if pool then (kRows, 1, hdr ++ fitBytes t.rs64 d) else (kRows, 0, hdr)
            b.startStep ctx i .task false 96 (some { StepResult.ofCode Codes.ok with ld := some ld }) none none [i.obj]
        else
          b.startStep ctx i .rounds false 96 none none none [i.obj] 0 (cmds.map StepCmd.unit)

/-- UPDATE (R443): the kernel's checks, then deferred UPDATE commands that go out when the step commits. -/
def execUpdate (ctx : Nat) (s : State) : Host.Outcome State Fault Refusal :=
  s.run fun b => b.onStep ctx 4 fun i b =>
    let c := b.ctx ctx
    let la := c.list i.la
    let lb := c.list i.lb
    match b.stepTable c.tenant i.obj with
    | .error e => b.stepCode ctx i e
    | .ok t =>
      let hdr := fieldAt (b.readMem (ctxRangeBase + lb.offset * 64) 4) 0 4
      if !b.listIs ctx i.la [kIndices] ∨ !b.listIs ctx i.lb [kRows] then b.stepCode ctx i Codes.listKind
      else if !t.updatable then b.stepCode ctx i Codes.gtuNoUpdate
      else if b.poisoned (ctxRangeBase + lb.offset * 64) 64 then b.stepCode ctx i Codes.memPoison
      else if bits hdr 10 0 ≠ t.elems ∨ bits hdr 12 11 ≠ t.fmt ∨ la.count ≠ lb.count then b.stepCode ctx i Codes.gtuCountMismatch
      else if b.kindGone 6 4 then b.stepCode ctx i Codes.unitFenced
      else
        let cmds := (keyRuns false 1 la.count).map fun r =>
          stepGtuCmd ctx c.tenant i.obj (b.servedBy t) 2 true false false r.2 (ctxTva (la.offset * 64) + 8 * r.1)
            (ctxTva (lb.offset * 64 + 64) + t.rs64 * r.1)
        b.startStep ctx i .task false 96 (some { StepResult.ofCode Codes.ok with deferred := cmds }) none none [i.obj]

end Sys2Proof.Machine
end

