-- ==== Sys2Proof/Machine/Search.lean ====
section
/-!
DEFINITION. Machine/Search.lean: vector steps and search (R270 to R302): shard sets, EMBED, PROBE, SCAN with the sketch
engines, WALK with its hops, and the work on shards of other modules.
-/
namespace Sys2Proof.Machine

/-! ### Vectors, shard sets, access (R270, R271, R281 to R286) -/

/-- A query: header fields of its VECTOR list, vector and sketch bytes (R271). -/
structure QueryVec where
  dim : Nat
  fmt : Nat
  sketch : Nat
  vec : List Byte
  sk : List Byte
deriving DecidableEq, Repr

/-- A VECTOR list's bytes as a query (R271). -/
def queryOf (bs : List Byte) : QueryVec :=
  let w := fieldAt bs 0 4
  let vb := bits w 15 0 * elemBytes (bits w 19 16)
  { dim := bits w 15 0, fmt := bits w 19 16, sketch := bits w 21 20, vec := (bs.drop 64).take vb, sk := bs.drop (64 + vb) }

/-- The bytes of a VECTOR list (R271). -/
def vectorBytes (dim fmt sketch : Nat) (vec sk : List Byte) : List Byte :=
  fitBytes 64 (le 4 (dim + fmt * 2 ^ 16 + sketch * 2 ^ 20)) ++ fitBytes (dim * elemBytes fmt) vec ++ fitBytes (sketchBytes sketch) sk

/-- A shard set object (R270, R480): REFERENCE, and module and shard of each entry. -/
def Block.shardSet (b : Block) (t obj : Nat) : Except Code (Bool × List (Nat × Nat)) :=
  match b.liveObj? t obj with
  | none => .error Codes.noObject
  | some o =>
    if o.kind ≠ 2 ∨ o.size < 64 then .error Codes.setBad
    else
      let h := b.readMem o.base 64
      let n := fieldAt h 0 2
      let es := (List.range n).map fun i => fieldAt (b.readMem (o.base + 64 + 8 * i) 8) 0 8
      if b.poisoned o.base (64 + 8 * n) then .error Codes.memPoison
      else if 2 ^ 17 ≤ unle h ∨ n = 0 ∨ 256 < n ∨ o.size < 64 + 8 * n ∨
          es.any (fun e => e != bits e 48 32 * 2 ^ 32 + bits e 5 0) ∨ (distinct es).length ≠ n then .error Codes.setBad
      else .ok (bit (unle h) 16, es.map fun e => (bits e 48 32, bits e 5 0))

/-- The bytes of a step's shard set and of a query agree with a shard (R286). -/
def Shard.matches (x : Shard) (q : QueryVec) : Bool := x.dim == q.dim && x.fmt == q.fmt && x.sketch == q.sketch

/-- Why a tenant may not use a shard of this module (R65, R276, R283, R474); `held` says that its request holds it already and that the
step prepares candidates, which a CLOSING shard then allows (R340). Areas that are gone give the requester's translation fault. -/
def Block.shardRefusal (b : Block) (t s : Nat) (held : Bool) : Option Code :=
  match b.shard? s with
  | none => some Codes.shardAccess
  | some x =>
    if x.owner ≠ t ∧ (!x.readers.contains t ∨ (b.ten x.owner).state ≠ TenState.on) then some Codes.shardAccess
    else if x.state = .closing ∧ !held then some Codes.shardClosed
    else if !b.areasLive x then some Codes.xlateFault
    else none

/-- A context's request holds a shard of this module. -/
def Ctx.holdsShard (c : Ctx) (s : Nat) : Bool := match c.req with
  | some r => r.shards.contains s
  | none => false

/-- The epoch that a request has pinned. -/
def Ctx.pin (c : Ctx) (key : Nat) : Option Nat := match c.req with
  | some r => r.pins.lookup key
  | none => none

/-- A step reaches a shard of this module (R281, R284): the request holds it, and pins it now if it had not. -/
def Block.reachShard (b : Block) (n s : Nat) : Block :=
  match b.shard? s with
  | none => b
  | some x => b.modCtx n fun c => { c with req := c.req.map fun r => { r with
      shards := if r.shards.contains s then r.shards else r.shards ++ [s]
      pins := if (r.pins.lookup s).isSome then r.pins else r.pins ++ [(s, x.epoch)] } }

/-- Epoch of a request on a shard of this module. -/
def Block.epochOf (b : Block) (n s : Nat) : Nat := ((b.ctx n).pin s).getD 0

/-- Send work for a shard of another module (R298): the request has asked for that shard, and a wait for its answer begins (R300). -/
def Block.sendWork (b : Block) (n m setIdx shard : Nat) (body : WorkBody) : Block :=
  let pin := (b.ctx n).pin (b.pinKey m shard)
  let now := b.clk.cclk
  let b := b.modCtx n fun c => { c with
    req := c.req.map fun r => { r with asked := if r.asked.contains (m, shard) then r.asked else r.asked ++ [(m, shard)] }
    step := c.step.map fun st => { st with remoteSince := now } }
  b.sendTo m (b.workMsg n setIdx pin body)

/-! ### Candidates (R273) -/

def Cand.bytes (c : Cand) : List Byte :=
  le 8 c.id ++ le 4 c.score.toNat ++ le 2 c.cache ++ le 1 c.flags ++ le 1 c.setIdx

def candOf (e : List Byte) : Cand :=
  { id := fieldAt e 0 8, score := BitVec.ofNat 32 (fieldAt e 8 4), setIdx := fieldAt e 15 1, flags := fieldAt e 14 1
    cache := fieldAt e 12 2 }

def candsOf (bs : List Byte) : List Cand := (List.range (bs.length / 16)).map fun i => candOf ((bs.drop (16 * i)).take 16)

def flagExact : Nat := 1
def flagWalked : Nat := 2
def flagDeath : Nat := 4

/-- CACHE of an entry whose record has not been fetched. -/
def noCache : Nat := 0xFFFF

/-- Entries chosen out of lists in order, by MERGE in mode EXACT (R292, R297). -/
def mergeCands (k : Nat) (ls : List (List Cand)) : List Cand :=
  let es := ls.zipIdx.map fun l => l.1.map fun c => (⟨c.id, c.score, c.bytes, l.2⟩ : MergeEnt)
  (mergeExact k es.flatten).map fun e => candOf e.bytes

/-! ### Scores (R291, R342) -/

/-- Bits that differ in two sketches. -/
def hamming (x y : List Byte) : Nat :=
  natSum ((x.zip y).map fun p => ((List.range 8).filter fun i => (p.1 ^^^ p.2).getLsbD i).length)

/-- b − 2h. -/
def sketchScore (x y : List Byte) : Int := 8 * (x.length : Int) - 2 * (hamming x y : Int)

/-- The elements of a vector as F32 (R245). -/
def vecF32 (fmt : Nat) (bs : List Byte) : List W32 :=
  if fmt = 0 then bs.map fun x => (e4m3.read x.toNat).toF32
  else if fmt = 2 then bs.map fun x => intF32 x.toInt
  else (List.range (bs.length / 2)).map fun i =>
    ((if fmt = 6 then bf16 else fp16).read (fieldAt bs (2 * i) 2)).toF32

/-- The exact score (R342): 64 lanes in ascending steps of VFMA, then the VRED SUM tree. -/
def exactScore (x y : List W32) : W32 :=
  let ps := x.zip y
  treeSum ((List.range 64).map fun l =>
    ((ps.zipIdx).filter fun p => p.2 % 64 == l).foldl (fun acc p => fmaF32 acc p.1.1 p.1.2) 0)

/-- The passage index whose locator names a row (R267). -/
def Block.indexOfRow (b : Block) (x : Shard) (row : Nat) : Option Nat :=
  (List.range x.capacity).find? fun i => match b.locator x i with
    | some (r, _) => r == row
    | none => false

def Block.sketchOf (b : Block) (x : Shard) (row : Nat) : List Byte := b.areaRead x x.sketches (x.sb * row) x.sb

/-! ### The record cache and the staging area (R274, R299) -/

/-- Records that a request's cache holds at most. -/
def cacheLimit : Nat := 65535

/-- The records of a request, or of work for another module: those held, their pages, and the passages whose reads are under
way. -/
structure RecCache where
  records : List (Nat × List Byte)
  pages : List Nat
  fetching : List Nat
deriving DecidableEq, Repr

def Block.cacheOf (b : Block) (n : Nat) : RecCache :=
  match b.work? n, (b.ctx n).req with
  | some w, _ => ⟨w.records, w.pages, w.fetching⟩
  | none, some r => ⟨r.records, r.cachePages, r.fetching⟩
  | none, none => ⟨[], [], []⟩

def Block.setCache (b : Block) (n : Nat) (c : RecCache) : Block :=
  match b.work? n with
  | some _ => b.modWork n fun w => { w with records := c.records, pages := c.pages, fetching := c.fetching }
  | none => b.modCtx n fun x => { x with req := x.req.map fun r => { r with
      records := c.records, cachePages := c.pages, fetching := c.fetching } }

/-- Place of a record in the cache, if it has been fetched. -/
def Block.cached? (b : Block) (n id : Nat) : Option Nat := (b.cacheOf n).records.findIdx? fun x => x.1 == id

/-- CACHE of an entry (R273). -/
def Block.cached (b : Block) (n id : Nat) : Nat := (b.cached? n id).getD noCache

/-- Outcome of a fetch, or of records that have come: done, a wait for pages (R170), or a stop code. -/
inductive CacheRes
  | ok (b : Block)
  | wait
  | fail (c : Code)
deriving DecidableEq, Repr

/-- Room for `k` records more, in context pages of 16 records (R274, R299). -/
def Block.cacheRoom (b : Block) (n k : Nat) : CacheRes :=
  let c := b.cacheOf n
  let total := c.records.length + c.fetching.length + k
  if cacheLimit < total then .fail Codes.cacheFull
  else
    match b.ctxPages n (ceilDiv total 16 - c.pages.length) with
    | .quota => .fail Codes.mtQuotaPages
    | .wait => .wait
    | .got b ps => .ok (b.setCache n { c with pages := c.pages ++ ps })

/-- Records that another module sent join the cache (R299, R340). -/
def Block.addRecords (b : Block) (n : Nat) (rs : List (Nat × List Byte)) : CacheRes :=
  match b.cacheRoom n rs.length with
  | .ok b => let c := b.cacheOf n; .ok (b.setCache n { c with records := c.records ++ rs })
  | r => r

/-- A record as it is delivered (R269): DEATH from the passage's tail at the time of the read, TOMBSTONE set with it. -/
def Block.delivered (b : Block) (id : Nat) (bytes : List Byte) : List Byte :=
  match b.shard? (idShard id) with
  | none => bytes
  | some x =>
    match b.locator x (idIndex id) with
    | some (row, _) => deliver bytes (b.tail x row).death
    | none => bytes

/-- A record fetch ends: the record joins the cache of what asked for it. -/
def Block.recordCame (b : Block) (n id : Nat) (bytes : List Byte) : Block :=
  let c := b.cacheOf n
  if !c.fetching.contains id then b
  else b.setCache n { c with records := c.records ++ [(id, b.delivered id bytes)], fetching := c.fetching.erase id }

/-- Reads of records count as slot reads (R516). -/
def Block.countReads (b : Block) (k : Nat) : Block := { b with sb := { b.sb with readCount := sat32 b.sb.readCount k } }

/-- The fetch of one record is issued (R269, R502, R505, R507): bytes in the write buffer come at once, bytes on a die in a read turn
of the coachman's, a slot that is not held as undefined bytes. -/
def Block.issueRead (b : Block) (n : Nat) (x : Shard) (id : Nat) : Except Code Block :=
  match b.locator x (idIndex id) with
  | none => .error Codes.sbNotHeld
  | some (_, slot) =>
    match b.slot? x.owner slot with
    | none =>
      .ok ((b.recordCame n id ((List.range 4096).map fun i => Config.freeByte b.epoch (slotKey x.owner slot * 4096 + i))).nextEpoch)
    | some y =>
      if y.lost then .error Codes.sbLost
      else
        match y.place with
        | none => .ok ((b.recordCame n id y.data).countReads 1)
        | some p =>
          let r : SbRead :=
            { owner := coachman n, job := b.sb.nextSeq, index := 0, tenant := x.owner, slot := slot, data := y.data, place := p
              recovery := false, admitAt := b.admitOf n, seq := b.sb.nextSeq, fetch := some (n, id) }
          .ok { b with sb := { b.sb with
            nextSeq := b.sb.nextSeq + 1, reads := tabSet p.die (tabGet [] p.die b.sb.reads ++ [r]) b.sb.reads } }

/-- Issue the fetches of records of one module's shards (R274, R340), each with its shard. -/
def Block.issueReads (b : Block) (n : Nat) : List (Shard × Nat) → Except Code Block
  | [] => .ok b
  | (x, id) :: rest =>
    match b.issueRead n x id with
    | .error c => .error c
    | .ok b => b.issueReads n rest

/-- Fetch records into the cache: room and pages first, then the reads. -/
def Block.fetchRecords (b : Block) (n : Nat) (l : List (Shard × Nat)) : CacheRes :=
  match b.cacheRoom n l.length with
  | .ok b =>
    let c := b.cacheOf n
    match (b.setCache n { c with fetching := c.fetching ++ l.map (·.2) }).issueReads n l with
    | .ok b => .ok b
    | .error e => .fail e
  | r => r

/-- The passages of a list that are neither in the cache nor on their way, each once. -/
def Block.unfetched (b : Block) (n : Nat) (ids : List Nat) : List Nat :=
  let c := b.cacheOf n
  (distinct ids).filter fun id => !(c.records.any fun x => x.1 == id) && !c.fetching.contains id

/-! ### EMBED (R285) -/

/-- EMBED (R285): the encoder's output comes with the command. -/
def execEmbed (ctx : Nat) (vector sketch : List (BitVec 8)) (s : State) : Host.Outcome State Fault Refusal :=
  s.run fun b => b.onStep ctx 2 fun i b =>
    let c := b.ctx ctx
    match b.liveObj? c.tenant i.obj with
    | none => b.stepCode ctx i Codes.noObject
    | some o =>
      match (if o.kind = 4 then o.decl.bind fun d => d.encoder else none) with
      | none => b.stepCode ctx i Codes.modelMismatch
      | some d =>
        let feat := bit i.iflags 0
        if !b.listOk ctx i.la [kTokens] ∨ (feat ∧ !b.listOk ctx i.lb [kRows]) then b.stepCode ctx i Codes.listKind
        else if b.listPoison ctx i.la ∨ (feat ∧ b.listPoison ctx i.lb) then b.stepCode ctx i Codes.memPoison
        else
          let bytes := vectorBytes d.dim d.fmt d.sketch vector sketch
          b.startStep ctx i .task false d.cclk
            (some { StepResult.ofCode Codes.ok with ld := some (kVector, bytes.length, bytes) }) none none [i.obj] i.obj

/-! ### What a step on a shard set begins with -/

/-- The checks of a PROBE, SCAN or WALK at its start: set, lists, access and mismatch (R130, R270, R283, R286, R300). -/
def Block.searchStart (b : Block) (n : Nat) (i : RInstr) (lbKind : Option Nat) :
    Except Code (Bool × List (Nat × Nat) × QueryVec) :=
  let c := b.ctx n
  match b.shardSet c.tenant i.obj with
  | .error e => .error e
  | .ok (ref, es) =>
    let lbOk : Bool := match lbKind with
      | some k => b.listOk n i.lb [k]
      | none => true
    if !b.listOk n i.la [kVector] ∨ !lbOk then .error Codes.listKind
    else if b.listPoison n i.la ∨ (lbKind.isSome ∧ b.listPoison n i.lb) then .error Codes.memPoison
    else
      let q := queryOf (b.listBytes n i.la)
      let here := es.filter fun e => e.1 == b.cb.module
      let refused := here.findSome? fun e => b.shardRefusal c.tenant e.2 false
      match refused with
      | some e => .error e
      | none =>
        if here.any fun e => match b.shard? e.2 with
            | some x => !x.matches q
            | none => true then .error Codes.vectorMismatch
        else if es.any fun e => e.1 != b.cb.module && (b.moduleVia e.1).isNone then .error Codes.shardUnreachable
        else .ok (ref, es, q)

/-- The step reaches its shards of this module. -/
def Block.reachAll (b : Block) (n : Nat) (es : List (Nat × Nat)) : Block :=
  es.foldl (fun (b : Block) e => if e.1 = b.cb.module then b.reachShard n e.2 else b) b

def SearchRun.new (q : QueryVec) : SearchRun :=
  { vec := q.vec, sketch := q.sk, fmt := q.fmt, dim := q.dim, mask := 0, any := false, k := 0, round := 0, widen := false
    prefetch := 0, maxHops := 0, reference := false, queries := [], walks := [] }

/-- One shard's part, nothing of it done. -/
def ShardQuery.new (setIdx shard : Nat) (module : Option Nat) (epoch : Nat) : ShardQuery :=
  { setIdx := setIdx, shard := shard, module := module, epoch := epoch, pending := [], later := [], hist := [], survivors := []
    remote := [], done := false }

/-- The search of a context's step, or of work for another module, while it is still to give its result. -/
def Block.search? (b : Block) (n : Nat) : Option SearchRun :=
  match b.work? n with
  | some w => if w.result.isSome then none else some w.run
  | none => (b.ctx n).step.bind fun st => if st.wait = .task then none else st.search

def Block.modSearch (b : Block) (n : Nat) (f : SearchRun → SearchRun) : Block :=
  match b.work? n with
  | some _ => b.modWork n fun w => { w with run := f w.run }
  | none => b.modCtx n fun c => { c with step := c.step.map fun st => { st with search := st.search.map f } }

/-- A search ends with a code. -/
def Block.searchFail (b : Block) (n : Nat) (code : Code) : Block :=
  match b.work? n with
  | some w => b.workResult n (b.resultOf w.msg code)
  | none => (b.unblockCtx n).unitResult n (StepResult.ofCode code)

/-- The answer of a search for another module (R299): its entries, and the records fetched for them. -/
def Block.workList (b : Block) (n : Nat) (w : WorkRun) (cs : List Cand) : Block :=
  b.workResult n { b.resultOf w.msg Codes.ok with
    ids := cs.map fun c => c.id, scores := cs.map fun c => c.score, deaths := cs.map fun c => bit c.flags 2
    records := (b.cacheOf n).records.filter fun x => cs.any fun c => c.id == x.1 }

def Block.modQuery (b : Block) (n setIdx : Nat) (f : ShardQuery → ShardQuery) : Block :=
  b.modSearch n fun s => { s with queries := s.queries.map fun q => if q.setIdx = setIdx then f q else q }

/-- A candidates result (R292, R297): SHORT below `k`. -/
def candResult (k : Nat) (cs : List Cand) : StepResult :=
  { StepResult.ofCode (if cs.length < k then Codes.short else Codes.ok) with
    ld := some (kCandidates, cs.length, (cs.map Cand.bytes).flatten), rd := some (BitVec.ofNat 64 cs.length), ownList := true }

/-! ### PROBE (R287) -/

/-- PARTITIONS entry (R272). -/
def partBytes (setIdx round part : Nat) (score : W32) : List Byte := le 4 score.toNat ++ le 2 part ++ le 1 round ++ le 1 setIdx

/-- The entries of one shard with their rounds (R287): partitions by number, with scores. -/
def probeEntries (setIdx p : Nat) (all : Bool) (scores : List W32) : List (List Byte) :=
  let us := orderedAll 0 scores
  let top := fun (k : Nat) => selectPos id k us
  let round := fun (part : Nat) =>
    if all then some 0 else (List.range 5).find? fun r => (top (min (p * 2 ^ r) scores.length)).contains part
  let es := (List.range scores.length).filterMap fun part => (round part).map fun r => (r, part)
  (sortBy (fun x y => decide (x.1 ≤ y.1)) es).map fun e => partBytes setIdx e.1 e.2 (scores.getD e.2 0)

/-- Scores of a shard's partitions (R287): inner products in FP32, summed as R342 sums the exact score (DEDUCED, assumption 48). -/
def Block.probeShard (b : Block) (x : Shard) (q : List Byte) : List W32 :=
  let qv := vecF32 x.fmt (q.take x.vb)
  (List.range x.parts).map fun p => exactScore qv (vecF32 x.fmt (b.areaRead x x.centroids (p * x.vb) x.vb))

/-- PROBE's lists are complete once every module has answered: `scores` gives one list for each set entry. -/
def probeResult (p : Nat) (all : Bool) (scores : List (List W32)) : StepResult :=
  let es := (scores.zipIdx.map fun x => probeEntries x.2 p all x.1).flatten
  { StepResult.ofCode Codes.ok with ld := some (kPartitions, es.length, es.flatten) }

/-- The PARTITIONS list of a PROBE whose modules have answered: shards of this module are scored here. -/
def Block.probeFinish (b : Block) (i : RInstr) (es : List (Nat × Nat)) (s : SearchRun) : StepResult :=
  probeResult i.imm16 (bit i.iflags 0 || s.reference) (es.zipIdx.map fun e =>
    if e.1.1 = b.cb.module then
      match b.shard? e.1.2 with
      | some x => b.probeShard x s.vec
      | none => []
    else
      match s.queries.find? fun q => q.setIdx == e.2 with
      | some q => q.remote.map fun c => c.score
      | none => [])

/-- Work goes out for every set entry of another module. -/
def Block.sendRemote (b : Block) (n : Nat) (es : List (Nat × Nat)) (body : Nat → Nat → Option WorkBody) : Block :=
  es.zipIdx.foldl (fun (b : Block) e =>
    if e.1.1 = b.cb.module then b
    else
      match body e.2 e.1.2 with
      | some w =>
        let b := b.sendWork n e.1.1 e.2 e.1.2 w
        (b.modSearch n fun s => { s with queries := s.queries ++ [.new e.2 e.1.2 (some e.1.1) 0] }).blockCtx n
      | none => b) b

/-- PROBE (R287). -/
def execProbe (ctx : Nat) (s : State) : Host.Outcome State Fault Refusal :=
  s.run fun b => b.onStep ctx 5 fun i b =>
    match b.searchStart ctx i none with
    | .error e => b.stepCode ctx i e
    | .ok (ref, es, q) =>
      let run := { SearchRun.new q with reference := ref }
      let b := b.reachAll ctx es
      if es.all fun e => e.1 == b.cb.module then
        b.startStep ctx i .task false (Config.fwCclk 5) (some (b.probeFinish i es run)) none none [i.obj]
      else
        let b := b.startStep ctx i .search false (Config.fwCclk 5) none (some run) none [i.obj]
        b.sendRemote ctx es fun _ shard => some (.probe shard (b.listBytes ctx i.la))

/-! ### Sketch engines (R288 to R291) -/

/-- The live engine that serves a shard (R288, R618). -/
def Block.engineOf (b : Block) (s : Nat) : Nat :=
  (((List.range 8).map fun d => (s + d) % 8).find? fun e => !b.fenced 4 e).getD (s % 8)

/-- The shards whose turns an engine holds, in ascending order. -/
def Block.cycleOf (b : Block) (e : Nat) : List Nat := (List.range 64).filter fun s => b.engineOf s == e

/-- The shard whose turn it is. -/
def Block.turnShard (b : Block) (e : Nat) : Nat :=
  let l := b.cycleOf e
  l.getD ((b.engine e).turn % max 1 l.length) e

/-- Queries of a round join their shard's engine, in the order of their partitions in LB (R289). -/
def Block.queueQueries (b : Block) (n : Nat) (q : ShardQuery) : Block :=
  b.modEngine (b.engineOf q.shard) fun e => { e with
    waiting := e.waiting ++ q.pending.map fun p =>
      { ctx := n, setIdx := q.setIdx, shard := q.shard, place := p.1, part := p.2 } }

/-- Passes formed from waiting queries (R289): one partition each, up to 64 queries, in order of arrival. -/
def formPasses (shard : Nat) : List Pass → List EngQuery → List Pass
  | ps, [] => ps
  | ps, q :: qs =>
    match ps.findIdx? fun p => p.part == q.part && decide (p.queries.length < 64) with
    | some i => formPasses shard (ps.modify i fun p => { p with queries := p.queries ++ [q] }) qs
    | none => formPasses shard (ps ++ [{ shard := shard, part := q.part, queries := [q] }]) qs

/-- The first pass of the shard whose turn it is starts, and reads FILL (R290). -/
def Block.startPass (b : Block) (engine : Nat) : Block :=
  let sh := b.turnShard engine
  match (b.engine engine).passes.find? fun p => p.shard == sh, b.shard? sh with
  | some p, some x =>
    if p.fill.isSome then b
    else b.modEngine engine fun e => { e with passes := e.passes.map fun q =>
      if q = p then { q with fill := some (b.partEnt x p.part).fill } else q }
  | _, _ => b

/-- A shard has passes left or queries waiting on an engine. -/
def Engine.busyWith (e : Engine) (s : Nat) : Bool :=
  e.passes.any (fun p => p.shard == s) || e.waiting.any (fun q => q.shard == s)

/-- TURN_BOUNDARY (R288, R289): the turn ends after its length, in shared mode as soon as its shard has no pass to run; the next
shard's turn starts and forms its passes behind one that was suspended, and the first of them starts. -/
def execTurnBoundary (engine : Nat) (s : State) : Host.Outcome State Fault Refusal :=
  s.run fun b =>
    let e := b.engine engine
    let cyc := b.cycleOf engine
    let late := decide (e.length * 3 ≤ (b.clk.cclk - e.since) * 4)
    let early := e.shared && !e.passes.any (fun p => p.shard == b.turnShard engine)
    if !b.mainUp || cyc.isEmpty || b.fenced 4 engine || !(late || early) then b
    else
      let step := if b.ske.shared then
          (((List.range cyc.length).map (· + 1)).find? fun d => e.busyWith (cyc.getD ((e.turn + d) % cyc.length) 0)).getD 1
        else 1
      let turn := (e.turn + step) % cyc.length
      let sh := cyc.getD turn 0
      let mine := e.waiting.filter fun q => q.shard == sh
      let b := b.modEngine engine fun e => { e with
        turn := turn, shared := b.ske.shared, length := b.ske.turnLen, since := b.clk.cclk
        waiting := e.waiting.filter fun q => q.shard != sh
        passes := e.passes ++ formPasses sh [] mine }
      b.startPass engine

/-- The floor of a lane (R291): the highest score with at least k counted rows at or above it. -/
def floorOf (k : Nat) (hist : List (Int × Nat)) : Option Int :=
  let l := sortBy (fun x y => decide (y.1 ≤ x.1)) hist
  ((l.foldl (fun (st : Nat × Option Int) x => (st.1 + x.2, if st.2.isNone && decide (k ≤ st.1 + x.2) then some x.1 else st.2))
    (0, none))).2

def histAdd (sc : Int) : List (Int × Nat) → List (Int × Nat)
  | [] => [(sc, 1)]
  | (x, n) :: rest => if x = sc then (x, n + 1) :: rest else (x, n) :: histAdd sc rest

/-- FP32 of a sketch score (R292). -/
def scoreF32 (sc : Int) : W32 := intF32 sc

/-- The entry of a row (R273, R292). -/
def Block.rowCand (b : Block) (x : Shard) (s setIdx row : Nat) (sc : Int) : Cand :=
  { id := passageId b.cb.module s ((b.indexOfRow x row).getD 0), score := scoreF32 sc, setIdx := setIdx
    flags := if (b.tail x row).death = noEpoch then 0 else flagDeath, cache := noCache }

/-- One lane of a pass over the first `fill` rows of a partition (R291): histogram, floor, survivors. With REFERENCE every counted row
survives (R301). -/
def Block.scanPart (b : Block) (x : Shard) (run : SearchRun) (q : ShardQuery) (place part fill : Nat) : ShardQuery :=
  let pe := b.partEnt x part
  (List.range fill).foldl (fun (q : ShardQuery) i =>
    let row := pe.first + i
    let t := b.tail x row
    if t.visible q.epoch && t.passes run.mask run.any then
      let sc := sketchScore run.sketch (b.sketchOf x row)
      let hist := histAdd sc q.hist
      let keep : Bool := run.reference || match floorOf run.k hist with
        | some f => decide (f ≤ sc)
        | none => true
      { q with hist := hist, survivors := if keep then q.survivors ++ [⟨place, row, sc, b.rowCand x q.shard q.setIdx row sc⟩]
          else q.survivors }
    else q) q

/-- KEY_BASE of R292. -/
def scanBase (nbits : Nat) : Nat := ordered 1 (BitVec.ofInt 32 (max (-(nbits : Int)) (-1022)))

/-- Survivors in the order of their partition in LB, then by row. -/
def survivorOrder (l : List Survivor) : List Survivor :=
  sortBy (fun x y => decide (x.place < y.place) || (x.place == y.place && decide (x.row ≤ y.row))) l

/-- The selection of one shard (R292): the bucketed top k in position order. -/
def shardSelect (k nbits : Nat) (l : List Survivor) : List Cand :=
  let l := survivorOrder l
  (selectPos (bucketKey (scanBase nbits) 1) k (l.map fun v => some (ordered 1 (BitVec.ofInt 32 v.score)))).filterMap fun i =>
    (l[i]?).map fun v => v.cand

/-- The survivors' records under REFERENCE (R301). -/
def Block.fetchSurvivors (b : Block) (n : Nat) (run : SearchRun) : CacheRes :=
  let l := (run.queries.filter fun q => q.module.isNone).map fun q => match b.shard? q.shard with
    | some x => (b.unfetched n (q.survivors.map fun v => v.cand.id)).map fun id => (x, id)
    | none => []
  if !run.reference then .ok b else b.fetchRecords n l.flatten

/-- The selection under REFERENCE (R301): the exact scores of the survivors' records, mode EXACT. -/
def Block.refSelect (b : Block) (n : Nat) (x : Shard) (run : SearchRun) (l : List Survivor) : List Cand :=
  let qv := vecF32 run.fmt run.vec
  let recs := (b.cacheOf n).records
  let cs := (survivorOrder l).map fun v =>
    { v.cand with
      score := exactScore qv (vecF32 run.fmt ((((recs.lookup v.cand.id).getD []).drop 0x40).take x.vb)), flags := v.cand.flags ||| flagExact }
  (selectPos id run.k (orderedAll 0 (cs.map fun c => c.score))).filterMap fun i => cs[i]?

/-- A shard's list after its rounds so far. -/
def Block.shardList (b : Block) (n : Nat) (run : SearchRun) (q : ShardQuery) : List Cand :=
  if q.module.isSome then q.remote
  else
    match b.shard? q.shard with
    | none => []
    | some x => if run.reference then b.refSelect n x run q.survivors else shardSelect run.k (8 * x.sb) q.survivors

/-! ### SCAN (R292, R293) -/

/-- LB's entries for one set entry: place, round, partition. -/
def partsFor (setIdx : Nat) (bs : List Byte) : List (Nat × Nat × Nat) :=
  (List.range (bs.length / 8)).filterMap fun i =>
    let e := (bs.drop (8 * i)).take 8
    if fieldAt e 7 1 = setIdx then some (i, fieldAt e 6 1, fieldAt e 4 2) else none

/-- Every query's round is done. -/
def SearchRun.roundDone (s : SearchRun) : Bool := s.queries.all fun q => q.done

/-- Start round `r` on every shard that has partitions in it; a shard of another module is asked in round 0 whether it has any or not,
since its owner checks access and the vector (R283, R286). -/
def Block.startRound (b : Block) (n : Nat) (vecBytes : List Byte) (r : Nat) : Block :=
  match b.search? n with
  | none => b
  | some s =>
    let b := b.modSearch n fun s => { s with round := r }
    s.queries.foldl (fun (b : Block) q =>
      let now := (q.later.filter fun p => p.1 == r).map fun p => (p.2.1, p.2.2)
      let later := q.later.filter fun p => p.1 != r
      match q.module with
      | none =>
        let q' := { q with pending := now, later := later, done := now.isEmpty }
        (b.modQuery n q.setIdx fun _ => q').queueQueries n q'
      | some m =>
        if now.isEmpty ∧ 0 < r then b.modQuery n q.setIdx fun q => { q with done := true }
        else
          -- the owning module selects over the partitions of all rounds so far
          let q' := { q with pending := q.pending ++ now, later := later, done := false }
          let b := b.modQuery n q.setIdx fun _ => q'
          (b.sendWork n m q.setIdx q.shard (.scan q.shard (q'.pending.map (·.2)) vecBytes s.mask s.any s.k s.reference)).blockCtx n) b

/-- The selections of a round count at the selection unit (R292, R337): one over each shard's survivors, one merge. -/
def Block.countSelections (b : Block) (n : Nat) (s : SearchRun) (ls : List (List Cand)) : Block :=
  let b := (s.queries.filter fun q => q.module.isNone).foldl (fun (b : Block) q => b.countSelect n q.survivors.length) b
  if (b.work? n).isSome then b else b.countSelect n (natSum (ls.map fun l => l.length))

/-- All shards of the round have answered: merge; WIDEN goes on while there are fewer than k (R293). Under REFERENCE the records of the
rows counted come first (R301). -/
def Block.scanRound (b : Block) (n : Nat) (vecBytes : List Byte) : Nat → Block
  | 0 => b
  | fuel + 1 =>
    match b.search? n with
    | none => b
    | some s =>
      if !s.roundDone then b
      else
        match b.fetchSurvivors n s with
        | .wait => b
        | .fail e => b.searchFail n e
        | .ok b =>
          if s.reference && !(b.cacheOf n).fetching.isEmpty then b
          else
            let ls := s.queries.map (b.shardList n s)
            let b := b.countSelections n s ls
            match b.work? n with
            | some w => b.workList n w ls.flatten
            | none =>
              let cs := (mergeCands s.k ls).map fun c => { c with cache := b.cached n c.id }
              let more := s.widen && s.queries.any fun q => !q.later.isEmpty
              if cs.length < s.k ∧ more ∧ s.round < 4 then (b.startRound n vecBytes (s.round + 1)).scanRound n vecBytes fuel
              else (b.unblockCtx n).unitResult n (candResult s.k cs)

/-- SCAN and the reference form of WALK begin (R292, R301). -/
def Block.scanStart (b : Block) (n : Nat) (i : RInstr) (es : List (Nat × Nat)) (run : SearchRun)
    (parts : Nat → Nat → List (Nat × Nat × Nat)) : Block :=
  let vecBytes := b.listBytes n i.la
  let b := b.reachAll n es
  let qs := es.zipIdx.map fun e =>
    let local_ := e.1.1 = b.cb.module
    { ShardQuery.new e.2 e.1.2 (if local_ then none else some e.1.1) (if local_ then b.epochOf n e.1.2 else 0) with
      later := (parts e.2 e.1.2).map fun p => (p.2.1, p.1, p.2.2) }
  let b := b.startStep n i .search false (Config.fwCclk i.op) none (some { run with queries := qs }) none [i.obj]
  (b.startRound n vecBytes 0).scanRound n vecBytes 6

/-- The units a search needs are gone (R618). -/
def Block.searchGone (b : Block) : Bool := b.kindGone 4 8 || b.kindGone 5 4

/-- A pass's rows lie in poisoned memory (R613). -/
def Block.passPoisoned (b : Block) (x : Shard) (part fill : Nat) : Bool :=
  let pe := b.partEnt x part
  [(x.sketches, x.sb), (x.tails, 16)].any fun a => match b.xlate x.owner (a.1 + a.2 * pe.first) (a.2 * fill) with
    | some v => decide (0 < fill) && b.poisoned v (a.2 * fill)
    | none => false

/-- The list of the query vector that a search's rounds send on: LA of a context's step. -/
def Block.vectorList (b : Block) (n : Nat) : List Byte := match b.instrAt n with
  | some i => b.listBytes n i.la
  | none => []

/-- PASS_COMPLETE (R290, R291): the first pass of the shard whose turn it is ends; each of its lanes has its survivors, and the next pass
starts. A pass that reads a poisoned line ends its queries' steps (R613). -/
def execPassComplete (engine : Nat) (s : State) : Host.Outcome State Fault Refusal :=
  s.run fun b =>
    let e := b.engine engine
    let sh := b.turnShard engine
    match e.passes.find? fun p => p.shard == sh, b.shard? sh with
    | some p, some x =>
      if b.fenced 4 engine then b
      else
        let fill := p.fill.getD (b.partEnt x p.part).fill
        let bad := b.passPoisoned x p.part fill
        let b := (b.modEngine engine fun e => { e with passes := e.passes.erase p }).startPass engine
        let b := { b with ske := { b.ske with passCount := sat32 b.ske.passCount 1, rowCount := sat32 b.ske.rowCount fill } }
        let b := p.queries.foldl (fun (b : Block) eq =>
          match b.search? eq.ctx with
          | none => b
          | some run => b.modQuery eq.ctx eq.setIdx fun q =>
            let q := b.scanPart x run q eq.place eq.part fill
            let pend := q.pending.erase (eq.place, eq.part)
            { q with pending := pend, done := pend.isEmpty }) b
        (distinct (p.queries.map fun q => q.ctx)).foldl (fun (b : Block) n =>
          if bad then b.searchFail n Codes.memPoison else b.scanRound n (b.vectorList n) 6) b
    | _, _ => b

/-! ### WALK (R295 to R297) -/

/-- Offer an entry to a beam of width w: score descending, earlier discovery first. -/
def beamAdd (w : Nat) (beam : List BeamEnt) (x : BeamEnt) : List BeamEnt :=
  (insertBy (fun a c => decide (c.score ≤ a.score)) x beam).take w

/-- Discover one passage of the walk's shard (R295): skipped without a locator, with BIRTH above the epoch, or when already
discovered. -/
def Block.discover (b : Block) (x : Shard) (run : SearchRun) (w : WalkRun) (id : Nat) : WalkRun :=
  if idModule id ≠ b.cb.module ∨ idShard id ≠ w.shard ∨ 2 ^ 49 ≤ id ∨ w.seen.contains id then w
  else
    match b.locator x (idIndex id) with
    | none => w
    | some (row, _) =>
      let t := b.tail x row
      if w.epoch < t.birth then w
      else
        let sc := sketchScore run.sketch (b.sketchOf x row)
        let e : BeamEnt :=
          { cand := { id := id, score := scoreF32 sc, setIdx := w.setIdx
                      flags := flagWalked ||| (if t.death = noEpoch then 0 else flagDeath), cache := noCache }
            row := row, score := sc, expanded := false, ret := t.visible w.epoch && t.passes run.mask run.any, fetched := false }
        { w with seen := w.seen ++ [id], beam := beamAdd run.k w.beam e }

/-- The seeds of a walk, in LB order. -/
def Block.seedWalk (b : Block) (x : Shard) (run : SearchRun) (w : WalkRun) (ids : List Nat) : WalkRun := ids.foldl (b.discover x run) w

/-- A walk with nothing done. -/
def WalkRun.new (setIdx shard : Nat) (module : Option Nat) (epoch : Nat) : WalkRun :=
  { setIdx := setIdx, shard := shard, module := module, epoch := epoch, beam := [], seen := [], hops := 0, done := false }

/-- A walk is over (R296). -/
def WalkRun.finished (w : WalkRun) (maxHops : Nat) : Bool := decide (maxHops ≤ w.hops) || w.beam.all fun e => e.expanded

/-- The neighbours in use of a record (R268). -/
def recordNbrs (r : List Byte) : List Nat := (List.range (min 32 (fieldAt r 4 2))).map fun i => fieldAt r (0x440 + 8 * i) 8

/-- Identifiers whose records the walk fetches now (R296): among the first D unexpanded entries, not fetched before, while a hop
remains. -/
def WalkRun.toFetch (w : WalkRun) (run : SearchRun) : List Nat :=
  if w.finished run.maxHops then []
  else (((w.beam.filter fun e => !e.expanded).take run.prefetch).filter fun e => !e.fetched).map fun e => e.cand.id

def WalkRun.markFetched (w : WalkRun) (ids : List Nat) : WalkRun :=
  { w with beam := w.beam.map fun e => if ids.contains e.cand.id then { e with fetched := true } else e }

/-- The best unexpanded entry. -/
def WalkRun.best (w : WalkRun) : Option BeamEnt := w.beam.find? fun e => !e.expanded

/-- Expand the entry with its record (R295). -/
def Block.expand (b : Block) (x : Shard) (run : SearchRun) (w : WalkRun) (id : Nat) (r : List Byte) : WalkRun :=
  let w := { w with hops := w.hops + 1, beam := w.beam.map fun e => if e.cand.id = id then { e with expanded := true } else e }
  (recordNbrs r).foldl (b.discover x run) w

def Block.setWalk (b : Block) (n : Nat) (w : WalkRun) : Block :=
  b.modSearch n fun s => { s with walks := s.walks.map fun v => if v.setIdx = w.setIdx then w else v }

/-- Fetch records of a walk into the cache. -/
def Block.fetchWalk (b : Block) (n : Nat) (x : Shard) (w : WalkRun) (ids : List Nat) : CacheRes × WalkRun :=
  (b.fetchRecords n ((b.unfetched n ids).map fun id => (x, id)), w.markFetched ids)

/-- Every walk is over: the returnable entries are merged (R297). -/
def Block.walkCheck (b : Block) (n : Nat) : Block :=
  match b.search? n with
  | none => b
  | some s =>
    if s.walks.all fun w => w.done then
      let ls := s.walks.map fun w => (w.beam.filter fun e => e.ret).map fun e => { e.cand with cache := b.cached n e.cand.id }
      match b.work? n with
      | some w => b.workList n w ls.flatten
      | none => ((b.countSelect n (natSum (ls.map fun l => l.length))).unblockCtx n).unitResult n (candResult s.k (mergeCands s.k ls))
    else b

/-- A walk after its seeds or a hop: prefetches go out, and it may be over. A fetch that finds no page waits: none. -/
def Block.walkOn (b : Block) (n : Nat) (x : Shard) (run : SearchRun) (w : WalkRun) : Option Block :=
  match b.fetchWalk n x w (w.toFetch run) with
  | (.wait, _) => none
  | (.fail c, _) => some (b.searchFail n c)
  | (.ok b, w) => some ((b.setWalk n { w with done := w.finished run.maxHops }).walkCheck n)

/-- The next hop of a walk (R295, R296): it picks the best unexpanded entry, issues its fetch if none has been, and expands it once its
record is here. None: a fetch waits for a page. -/
def Block.hop (b : Block) (n : Nat) (x : Shard) (run : SearchRun) (w : WalkRun) : Option Block :=
  match w.best with
  | none => some b
  | some e =>
    match b.fetchWalk n x w [e.cand.id] with
    | (.wait, _) => none
    | (.fail c, _) => some (b.searchFail n c)
    | (.ok b, w) =>
      match (b.cacheOf n).records.lookup e.cand.id with
      | some r => b.walkOn n x run (b.expand x run w e.cand.id r)
      | none => some (b.setWalk n w)

/-- The identifiers of LB's entries that name a shard. -/
def seedsOf (m s : Nat) (bs : List Byte) : List Nat :=
  ((candsOf bs).filter fun c => idModule c.id == m && idShard c.id == s).map fun c => c.id

/-! ### Answers of other modules (R298 to R300) -/

/-- The entries of a RESULT as candidates. -/
def resultCands (m : ResultMsg) (flags : Nat) : List Cand :=
  m.ids.zipIdx.map fun x =>
    { id := x.1, score := m.scores.getD x.2 0, setIdx := m.setIdx
      flags := flags ||| (if m.deaths.getD x.2 false then flagDeath else 0), cache := noCache }

/-- The request pins the epoch that the owning module holds (R281). -/
def Block.pinRemote (b : Block) (n key epoch : Nat) : Block :=
  b.modCtx n fun c => { c with req := c.req.map fun r => { r with
    pins := if (r.pins.lookup key).isSome then r.pins else r.pins ++ [(key, epoch)] } }

/-- An answer of the module has come and waits for pages. -/
def SearchRun.parkedFor (s : SearchRun) (setIdx module : Nat) : Bool :=
  s.parked.any fun m => m.setIdx == setIdx && m.module == module

/-- Some module still owes the step its answer. -/
def SearchRun.owes (s : SearchRun) : Bool :=
  s.queries.any (fun q => !q.done && match q.module with
    | some m => !s.parkedFor q.setIdx m
    | none => false) ||
  s.walks.any fun w => !w.done && match w.module with
    | some m => !s.parkedFor w.setIdx m
    | none => false

/-- No module is awaited any more: the context runs again (R144). -/
def Block.notOwed (b : Block) (n : Nat) : Block := match b.search? n with
  | some s => if s.owes then b else b.unblockCtx n
  | none => b

/-- Records of an answer join the cache, or the answer waits for pages of it (R170, R299). -/
def Block.takeRecords (b : Block) (n : Nat) (m : ResultMsg) (rs : List (Nat × List Byte)) (f : Block → Block) : Block :=
  match b.addRecords n rs with
  | .ok b => f b
  | .wait => (b.modSearch n fun s => { s with parked := s.parked ++ [m] }).notOwed n
  | .fail e => b.searchFail n e

/-- A search of `i` waits for an answer: the shard's entry of a query, and of a walk. -/
def SearchRun.waitsFor (s : SearchRun) (m : ResultMsg) : Option ShardQuery × Option WalkRun :=
  (s.queries.find? fun q => q.setIdx == m.setIdx && q.module == some m.module && !q.done,
    s.walks.find? fun w => w.setIdx == m.setIdx && w.module == some m.module && !w.done)

/-- An answer for a PROBE, SCAN or WALK: its entries, and the records returned with them (R298, R299). -/
def Block.searchAnswer (b : Block) (n : Nat) (m : ResultMsg) : Block :=
  match b.search? n, b.instrAt n with
  | some run, some i =>
    let new := m.records.filter fun r => (b.cached? n r.1).isNone
    match run.waitsFor m with
    | (none, none) => b
    | (none, some w) =>
      b.takeRecords n m new fun b =>
        let es := (resultCands m flagWalked).map fun c =>
          ({ cand := c, row := 0, score := 0, expanded := true, ret := true, fetched := true } : BeamEnt)
        ((b.setWalk n { w with beam := es, done := true }).notOwed n).walkCheck n
    | (some q, _) =>
      if i.op = 5 then
        let b := b.modQuery n q.setIdx fun q => { q with remote := resultCands m 0, done := true }
        match b.search? n with
        | some run =>
          if run.owes then b
          else
            match b.shardSet (b.ctx n).tenant i.obj with
            | .error e => b.searchFail n e
            | .ok (_, es) => (b.unblockCtx n).unitResult n (b.probeFinish i es run)
        | none => b
      else
        b.takeRecords n m new fun b =>
          ((b.modQuery n q.setIdx fun q => { q with
            remote := resultCands m (if run.reference then flagExact else 0), done := true }).notOwed n).scanRound n
              (b.vectorList n) 6
  | _, _ => b

/-- A SCAN or WALK whose records or answers waited for a page goes on: the first answer that waits, else the rounds. -/
def Block.searchAgain (b : Block) (n op : Nat) : Block :=
  match (b.ctx n).step, b.search? n with
  | some st, some s =>
    if st.opcode ≠ op then b
    else
    match s.parked with
    | m :: rest => (b.modSearch n fun s => { s with parked := rest }).searchAnswer n m
    | [] => if st.wait = .search ∧ s.reference then b.scanRound n (b.vectorList n) 6 else b
  | _, _ => b

/-- SCAN (R292, R293, R301). Entries of LB for a partition that the shard lacks name no rows. -/
def execScan (ctx : Nat) (s : State) : Host.Outcome State Fault Refusal :=
  s.run fun b => if (b.ctx ctx).step.isSome then b.searchAgain ctx 6 else b.onStep ctx 6 fun i b =>
    match b.searchStart ctx i (some kPartitions) with
    | .error e => b.stepCode ctx i e
    | .ok (ref, es, q) =>
      if b.searchGone then b.stepCode ctx i Codes.unitFenced
      else
        let lb := b.listBytes ctx i.lb
        let c := b.ctx ctx
        let run := { SearchRun.new q with
          mask := c.reg i.rb, any := i.sub == 1, k := i.imm16, widen := bit i.iflags 0, reference := ref }
        b.scanStart ctx i es run fun setIdx shard => (partsFor setIdx lb).filter fun p => match b.shard? shard with
          | some x => (es.getD setIdx (0, 0)).1 != b.cb.module || decide (p.2.2 < x.parts)
          | none => true

/-- WALK (R295 to R297, R301). A shard of another module is asked whether a seed names it or not (R283, R286). -/
def execWalk (ctx : Nat) (s : State) : Host.Outcome State Fault Refusal :=
  s.run fun b0 => if (b0.ctx ctx).step.isSome then b0.searchAgain ctx 7 else b0.onStep ctx 7 fun i b =>
    match b.searchStart ctx i (some kCandidates) with
    | .error e => b.stepCode ctx i e
    | .ok (ref, es, q) =>
      let c := b.ctx ctx
      let run := { SearchRun.new q with
        mask := c.reg i.rb, any := i.sub == 1, k := i.imm16, maxHops := i.imm32 % 256, prefetch := i.imm32 / 256 % 256, reference := ref }
      if b.kindGone 5 4 ∨ (ref ∧ b.searchGone) then b.stepCode ctx i Codes.unitFenced
      else if ref then
        -- every partition; how many a shard of another module has is known there
        b.scanStart ctx i es run fun setIdx shard =>
          let all := (List.range 65536).map fun p => (p, 0, p)
          if (es.getD setIdx (0, 0)).1 ≠ b.cb.module then all
          else
            match b.shard? shard with
            | some x => all.take x.parts
            | none => []
      else
        let lb := b.listBytes ctx i.lb
        let b := b.reachAll ctx es
        let mine := es.zipIdx.filter fun e => e.1.1 != b.cb.module || !(seedsOf e.1.1 e.1.2 lb).isEmpty
        let ws := mine.map fun e =>
          if e.1.1 = b.cb.module then
            match b.shard? e.1.2 with
            | some x =>
              let w := b.seedWalk x run (.new e.2 e.1.2 none (b.epochOf ctx e.1.2)) (seedsOf e.1.1 e.1.2 lb)
              { w with done := w.finished run.maxHops }
            | none => { WalkRun.new e.2 e.1.2 none 0 with done := true }
          else .new e.2 e.1.2 (some e.1.1) 0
        let b := b.startStep ctx i .rounds false (Config.fwCclk 7) none (some { run with walks := ws }) none [i.obj]
        let b := mine.foldl (fun (b : Block) e =>
          if e.1.1 = b.cb.module then b
          else (b.sendWork ctx e.1.1 e.2 e.1.2
            (.walk e.1.2 (seedsOf e.1.1 e.1.2 lb) (b.listBytes ctx i.la) run.mask run.any run.k run.maxHops run.prefetch)).blockCtx ctx) b
        let started := ws.foldl (fun (ob : Option Block) w => match ob with
          | none => none
          | some b =>
            if w.module.isSome then some b
            else
              match b.shard? w.shard with
              | some x => if b.search? ctx = none then some b else b.walkOn ctx x run w
              | none => some b) (some b)
        match started with
        | some b => b.walkCheck ctx
        | none => b0

/-- HOP (R295, R296): the walk of a context's step on `shard` takes its next hop. -/
def execHop (ctx shard : Nat) (s : State) : Host.Outcome State Fault Refusal :=
  s.run fun b0 =>
    match b0.search? ctx with
    | none => b0
    | some run =>
      match run.walks.find? fun w => w.shard == shard && w.module.isNone && !w.done, b0.shard? shard with
      | some w, some x => (b0.hop ctx x run w).getD b0
      | _, _ => b0

/-- A step that waits for other modules ends with SHARD_UNREACHABLE (R300): the results of other shards are discarded, and the
request's end drops its pins. -/
def Block.unreachable (b : Block) (n : Nat) : Block :=
  let leave := fun (e : Engine) => { e with
    waiting := e.waiting.filter fun q => q.ctx != n
    passes := e.passes.map fun p => { p with queries := p.queries.filter fun q => q.ctx != n } }
  ({ b with ske := { b.ske with engines := tabMap (fun _ e => leave e) b.ske.engines } }).searchFail n Codes.shardUnreachable

/-- REMOTE_WAIT_EXPIRY (R300): SKE_REMOTE_WAIT × 1,024 ungated CCLK have passed since the send. -/
def execRemoteWaitExpiry (ctx : Nat) (s : State) : Host.Outcome State Fault Refusal :=
  s.run fun b =>
    match (b.ctx ctx).step, b.search? ctx with
    | some st, some run =>
      if run.owes ∧ st.remoteSince + b.ske.remoteWait.toNat * 1024 ≤ b.clk.cclk then b.unreachable ctx else b
    | _, _ => b

end Sys2Proof.Machine
end

