-- ==== Sys2Proof/Machine/Rerank.lean ====
section
/-!
DEFINITION. Machine/Rerank.lean: RERANK and PACK (R340 to R359): preparation of candidates, exact scores, cross-encoder,
feedback and fusion, the packer template and its budget rule, attribution.
-/
namespace Sys2Proof.Machine

/-! ### Preparation (R340, R341) -/

/-- A kept candidate: its position in the input list, the entry with its cache index, its record, and BIRTH and DEATH of its tail. -/
structure Kept where
  pos : Nat
  cand : Cand
  bytes : List Byte
  birth : Nat
  death : Nat
deriving DecidableEq, Repr

/-- What preparation gives: kept candidates in list order, and the counts of those not visible and duplicate. -/
structure Prep where
  kept : List Kept
  unseen : Nat
  dups : Nat
deriving DecidableEq, Repr

/-- The CACHE value of an entry is the current request's (R340). -/
def Cand.useCache (c : Cand) (own : Bool) : Bool := own && c.cache != noCache

/-- The list handle was written by a search step of the current request (R340). -/
def Ctx.ownList (c : Ctx) (h : Nat) : Bool := match c.req with
  | some r => r.ownLists.contains h
  | none => false

/-- Modules and shards that candidates name, each once, in list order. -/
def shardsNamed (cs : List Cand) : List (Nat × Nat) :=
  cs.foldl (fun acc c => let e := (idModule c.id, idShard c.id); if acc.contains e then acc else acc ++ [e]) []

/-- The access stage of R340, with the comparison of R342 where the step scores: the first refusal in list order. -/
def Block.prepAccess (b : Block) (n : Nat) (q : Option QueryVec) (cs : List Cand) : Option Code :=
  let c := b.ctx n
  let refused := (shardsNamed cs).findSome? fun e =>
    if e.1 = b.cb.module then b.shardRefusal c.tenant e.2 (c.holdsShard e.2)
    else if (b.moduleVia e.1).isNone then some Codes.shardUnreachable
    else none
  match refused, q with
  | some e, _ => some e
  | none, some q =>
    if (shardsNamed cs).any fun e => e.1 == b.cb.module && match b.shard? e.2 with
        | some x => !(x.dim == q.dim && x.fmt == q.fmt)
        | none => true then some Codes.vectorMismatch
    else none
  | none, none => none

/-- Identifiers asked of another module's shard: distinct, in list order. -/
def askedOf (m s : Nat) (cs : List Cand) : List Nat :=
  (cs.filter fun c => idModule c.id == m && idShard c.id == s).foldl (fun acc c => if acc.contains c.id then acc else acc ++ [c.id]) []

/-- Ask every other module that a list names about access and tails (R298, R340 stages 1 and 2). -/
def Block.askTails (b : Block) (n : Nat) (cs : List Cand) (vector : List Byte) : Block :=
  ((shardsNamed cs).filter fun e => e.1 != b.cb.module).zipIdx.foldl (fun (b : Block) e =>
    let b := b.sendWork n e.1.1 e.2 e.1.2 (.tails e.1.2 (askedOf e.1.1 e.1.2 cs) vector)
    (b.modSearch n fun s => { s with queries := s.queries ++ [.new e.2 e.1.2 (some e.1.1) 0] }).blockCtx n) b

/-- BIRTH and DEATH of a visible candidate's tail (R280, R341), on this module or as its owning module answered; none: not visible. -/
def Block.candTail (b : Block) (n : Nat) (c : Cand) : Option (Nat × Nat) :=
  let m := idModule c.id
  let s := idShard c.id
  if m = b.cb.module then
    (b.shard? s).bind fun x => (b.locator x (idIndex c.id)).bind fun l =>
      let t := b.tail x l.1
      if t.visible (b.epochOf n s) then some (t.birth, t.death) else none
  else
    (b.search? n).bind fun run =>
      (run.queries.find? fun q => q.module == some m && q.shard == s).bind fun q => (q.tails.lookup c.id).map fun t => (t.1, t.2)

/-- What the drops leave of a list, with positions, and the counts of those not visible and duplicate (R341). -/
def Block.prepDrops (b : Block) (n : Nat) : Nat → List Cand → List Nat → List (Nat × Cand) × Nat × Nat
  | _, [], _ => ([], 0, 0)
  | pos, c :: rest, seen =>
    let r := b.prepDrops n (pos + 1) rest (c.id :: seen)
    if (b.candTail n c).isNone then (r.1, r.2.1 + 1, r.2.2)
    else if seen.contains c.id then (r.1, r.2.1, r.2.2 + 1)
    else ((pos, c) :: r.1, r.2.1, r.2.2)

/-- The candidates that a step keeps, and the counts of its drops. -/
def Block.keptOf (b : Block) (n : Nat) (run : SearchRun) : List (Nat × Cand) × Nat × Nat := b.prepDrops n 0 run.cands []

/-- The passages whose records a preparation fetches: of the kept candidates without a CACHE of this request (R340 stage 3). -/
def Block.prepNeeds (b : Block) (n : Nat) (run : SearchRun) : List Nat :=
  ((b.keptOf n run).1.filter fun k => !k.2.useCache run.own).map fun k => k.2.id

/-- Place of the record that was fetched last for a passage. -/
def lastRecord (recs : List (Nat × List Byte)) (id : Nat) : Nat :=
  (((recs.zipIdx.filter fun x => x.1.1 == id).getLast?).map (·.2)).getD noCache

/-- What preparation gives once every record is in the cache. -/
def Block.prepared (b : Block) (n : Nat) (run : SearchRun) : Prep :=
  let d := b.keptOf n run
  let recs := (b.cacheOf n).records
  { kept := d.1.map fun k =>
      let at_ := if k.2.useCache run.own then k.2.cache else lastRecord recs k.2.id
      let t := (b.candTail n k.2).getD (0, noEpoch)
      { pos := k.1, cand := { k.2 with cache := at_ }, bytes := (recs.getD at_ (0, [])).2, birth := t.1, death := t.2 }
    unseen := d.2.1, dups := d.2.2 }

/-- The tails are here: the fetches of a preparation are issued, on this module and on others, if the cache has room for all of
them (R340 stages 3 and 4). None: the cache waits for a page. -/
def Block.prepFetch (b : Block) (n : Nat) (run : SearchRun) : Option Block :=
  let need := b.prepNeeds n run
  let c := b.cacheOf n
  if cacheLimit < c.records.length + c.fetching.length + need.length then some (b.searchFail n Codes.cacheFull)
  else
    match b.fetchRecords n ((need.filter fun id => idModule id == b.cb.module).filterMap fun id =>
        (b.shard? (idShard id)).map fun x => (x, id)) with
    | .wait => none
    | .fail e => some (b.searchFail n e)
    | .ok b =>
      let b := b.modSearch n fun s => { s with fetching := true }
      some (run.queries.foldl (fun (b : Block) q =>
        let m := q.module.getD b.cb.module
        let ids := need.filter fun id => idModule id == m && idShard id == q.shard
        if ids.isEmpty then b
        else ((b.modQuery n q.setIdx fun q => { q with done := false }).sendWork n m q.setIdx q.shard (.records q.shard ids)).blockCtx n) b)

/-! ### RERANK (R342 to R347) -/

/-- The fusion block of R345: F, WE, WX, weights of the features. -/
structure Fusion where
  f : Nat
  we : W32
  wx : W32
  wf : List W32
deriving DecidableEq, Repr

def finiteF32 (w : W32) : Bool := !(f32 w).isNan && !(f32 w).isInf

/-- The table's fusion block (R345), or FUSION_BAD. -/
def Block.fusion (b : Block) (tenant obj : Nat) (t : Table) : Except Code Fusion :=
  match b.fetchTask (laneCmd tenant (obj * 2 ^ 35)) Codes.gtuXlate (obj * 2 ^ 35 + 0x40) 64 with
  | .error e => .error e
  | .ok h =>
    let f := fieldAt h 0 4
    let w := fun (off : Nat) => (BitVec.ofNat 32 (fieldAt h off 4) : W32)
    let wf := (List.range 8).map fun k => w (0x10 + 4 * k)
    if 8 < f ∨ !zeroAt h 0xC 4 ∨ !zeroAt h 0x30 16 ∨ !finiteF32 (w 4) ∨ !finiteF32 (w 8) ∨ (wf.take f).any (fun x => !finiteF32 x) ∨
        (0 < f ∧ (t.fmt ≠ 0 ∨ t.elems < f)) then .error Codes.fusionBad
    else .ok ⟨f, w 4, w 8, wf⟩

/-- The fused score (R345). -/
def Fusion.score (u : Fusion) (e c : W32) (row : List W32) : W32 :=
  (List.range u.f).foldl (fun s k => fmaF32 s (u.wf.getD k 0) (row.getD k 0)) (fmaF32 (mulF32 u.we e) u.wx c)

/-- The result of RERANK (R343, R346): final scores `s` with their candidates in order, and the drop counts. -/
def rerankResult (k : Nat) (exact : Bool) (cs : List (Cand × W32)) (drops : Nat × Nat × Nat) : StepResult :=
  let live := cs.filter fun c => !(f32 c.2).isNan
  let nans := cs.length - live.length
  let us := orderedAll 0 (live.map fun c => c.2)
  let sel := selectPos id k us
  let sel := if k ≤ 4096 then sluOrderBy us sel else sel
  let out := sel.filterMap fun j => (live[j]?).map fun c =>
    { c.1 with score := c.2, flags := (c.1.flags &&& (flagWalked ||| flagDeath)) ||| (if exact then flagExact else 0) }
  { candResult k out with drops := some (drops.1, drops.2.1, drops.2.2 + nans) }
where
  /-- Positions by score descending, then by position (R346). -/
  sluOrderBy (us : List (Option Nat)) (sel : List Nat) : List Nat :=
    sortBy (fun x y => decide ((us.getD y none).getD 0 ≤ (us.getD x none).getD 0)) sel

/-- Delivered CCLK that RERANK's kernels declare (R347): preparation of n entries, exact tasks of up to 256 candidates, x
cross-encoder scores, fusion of F features. -/
def rerankCclk (n dim x cross f : Nat) (fused : Bool) : Nat :=
  64 + 4 * n + ceilDiv n 256 * 48 + n * (ceilDiv dim 64 + 10) + x * cross + (if fused then 40 + ceilDiv x 64 * (4 * f + 12) else 0)

/-- The cross-encoder that OBJ names (R344): none where OBJ is 0. -/
def Block.crossOf (b : Block) (t obj : Nat) (q : QueryVec) : Except Code (Option CrossDecl) :=
  if obj = 0 then .ok none
  else
    match b.liveObj? t obj with
    | none => .error Codes.noObject
    | some o =>
      match (if o.kind = 5 then o.decl.bind fun d => d.cross else none) with
      | some d => if d.dim = q.dim ∧ d.fmt = q.fmt then .ok (some d) else .error Codes.modelMismatch
      | none => .error Codes.modelMismatch

/-- The feedback table that a RERANK names, with its fusion block; none where it names none (R343, R345). -/
def Block.feedback (b : Block) (t obj : Nat) : Except Code (Option (Table × Fusion)) :=
  if obj = 0 then .ok none
  else
    match b.stepTable t obj with
    | .error e => .error e
    | .ok tb => (b.fusion t obj tb).map fun u => some (tb, u)

/-- The last stages: fusion with the rows of the candidates, and the final selection (R345, R346). -/
def Block.rerankFuse (b : Block) (n : Nat) (i : RInstr) (run : RerankRun) : Block :=
  let tenant := (b.ctx n).tenant
  let m := run.ents.length
  match b.feedback tenant (i.imm32 % 65536) with
  | .error e => b.unitResult n (StepResult.ofCode e)
  | .ok none =>
    (b.countSelect n m).unitResult n
      (rerankResult i.imm16 (i.obj = 0) (run.ents.map fun e => (e.1, if i.obj = 0 then e.2.1 else e.2.2)) run.drops)
  | .ok (some (t, u)) =>
    match b.fetchTask (laneCmd tenant t.addr) Codes.gtuXlate (t.addr + 0x80) t.rb with
    | .error e => b.unitResult n (StepResult.ofCode e)
    | .ok d =>
      let dflt := rowCodes t.fmt d
      let b := b.modGtu (b.servedBy t) fun g => { g with
        cmdCount := sat32 g.cmdCount 1
        rowCount := sat32 g.rowCount (distinct ((run.ents.map fun e => e.1.id).filterMap t.rowOf |>.map (·.1))).length }
      ((b.addTask n 8 0 (40 + ceilDiv m 64 * (4 * u.f + 12)) 514).countSelect n m).unitResult n (rerankResult i.imm16 false
        (run.ents.map fun e => (e.1, u.score e.2.1 e.2.2 (codesF32 t.fmt (t.compose1 run.rows dflt e.1.id)))) run.drops)

/-- The tile tasks of the exact stage: up to 256 candidates each, in list order (R343, R347). -/
def Block.exactTasks (b : Block) (n dim v : Nat) : Block :=
  (List.range (ceilDiv v 256)).foldl (fun (b : Block) j =>
    b.addTask n 8 0 (48 + min 256 (v - 256 * j) * (ceilDiv dim 64 + 10)) (j + 1)) b

/-- The stages of RERANK once every record is here (R343). -/
def Block.rerankGo (b : Block) (n : Nat) (i : RInstr) (p : Prep) (q : QueryVec) (cross : List W32) : Block :=
  let c := b.ctx n
  let qv := vecF32 q.fmt q.vec
  let vb := q.dim * elemBytes q.fmt
  let sc := p.kept.map fun k => (k.cand, exactScore qv (vecF32 q.fmt ((k.bytes.drop 0x40).take vb)))
  let live := sc.filter fun x => !(f32 x.2).isNan
  let drops := (p.unseen, p.dups, sc.length - live.length)
  let fb := i.imm32 % 65536
  let b := (b.exactTasks n q.dim sc.length).countSelect n sc.length
  if i.obj = 0 ∧ fb = 0 then b.unitResult n (rerankResult i.imm16 true live drops)
  else
    let first := (selectPos id i.imm16 (orderedAll 0 (live.map fun x => x.2))).filterMap fun j => live[j]?
    let b : Block := match b.crossOf c.tenant i.obj q with
      | .ok (some d) => b.addTask n 8 i.obj (first.length * d.cclk) 513
      | _ => b
    let withC := first.zipIdx.map fun x => (x.1.1, x.1.2, if i.obj = 0 then (0 : W32) else cross.getD x.2 0)
    let ents := withC.filter fun x => !(f32 x.2.2).isNan
    let run : RerankRun :=
      { cross := cross, ents := ents, drops := (drops.1, drops.2.1, drops.2.2 + (withC.length - ents.length)), rows := [], owed := [] }
    match b.feedback c.tenant fb with
    | .error e => b.unitResult n (StepResult.ofCode e)
    | .ok none => b.rerankFuse n i run
    | .ok (some (t, _)) =>
      let need := t.needs (ents.map fun x => x.1.id)
      let own := need.filter fun r => b.ownerOf t r == b.position
      let other := need.filter fun r => b.ownerOf t r != b.position
      let cmd := stepGtuCmd n c.tenant fb (b.servedBy t) 1 false false false ents.length 0 0
      let b := b.modGtu (b.servedBy t) fun g => { g with
        cmdCount := sat32 g.cmdCount 1, rowCount := sat32 g.rowCount own.length }
      if other.any fun r => !b.reaches (b.ownerOf t r) then b.unitResult n (StepResult.ofCode Codes.teamLost) else
      match b.fetchRows (b.servedBy t) cmd t own with
      | .error e => b.unitResult n (StepResult.ofCode e)
      | .ok (b, got) =>
        let run := { run with rows := got }
        if other.isEmpty then b.rerankFuse n i run
        else
          let owed := (b.teamPositions.map fun p => (p, other.filter fun r => b.ownerOf t r == p)).filter fun x => !x.2.isEmpty
          let b := owed.foldl (fun (b : Block) (x : Nat × List Nat) =>
            b.gtuWork cmd (8 + b.servedBy t) x.1 (.lookup fb x.2)) b
          (b.modCtx n fun c => { c with step := c.step.map fun st => { st with
            wait := .rounds, rerank := some { run with owed := owed } } }).blockCtx n

/-! ### PACK: the template (R348 to R350) -/

structure Segment where
  kind : Nat
  label : Bool
  offA : Nat
  lenA : Nat
  offB : Nat
  lenB : Nat
deriving DecidableEq, Repr

structure Template where
  attrib : Nat
  priority : Bool
  turn : Option Nat
  passMin : Nat
  passMax : Nat
  maxPass : Nat
  histMin : Nat
  segs : List Segment
  pool : List Nat
deriving DecidableEq, Repr

/-- AUX of TEMPLATE_BAD for the header. -/
def headerAux : Nat := 0xFFFFFF

/-- A segment entry, or none where it fails R350. -/
def segmentOf (pool : Nat) (e : List Byte) : Option Segment :=
  let w := fieldAt e 0 4
  let kind := bits w 7 0
  let s : Segment :=
    { kind := kind, label := bit w 8, offA := fieldAt e 4 4, lenA := fieldAt e 8 2, offB := fieldAt e 0xC 4, lenB := fieldAt e 0xA 2 }
  let runA := decide (s.offA + s.lenA ≤ pool)
  let runB := decide (s.offB + s.lenB ≤ pool)
  if 2 ^ 9 ≤ w then none
  else if kind = 1 then (if !s.label && s.lenB == 0 && s.offB == 0 && runA then some s else none)
  else if kind = 2 then (if !s.label && s.lenA == 0 && s.lenB == 0 && s.offA == 0 && s.offB == 0 then some s else none)
  else if kind = 3 then (if runA && runB then some s else none)
  else none

/-- The template of a PACK (R350): the code with its AUX where it fails. -/
def Block.template (b : Block) (t obj : Nat) : Except (Code × Nat) Template :=
  match b.liveObj? t obj with
  | none => .error (Codes.noObject, 0)
  | some o =>
    if o.kind ≠ 9 ∨ o.size < 64 then .error (Codes.templateBad, headerAux)
    else
      let h := b.readMem o.base 64
      let w := fieldAt h 0 4
      let w4 := fieldAt h 4 4
      let w8 := fieldAt h 8 4
      let wc := fieldAt h 0xC 4
      let n := bits w 15 0
      let pool := fieldAt h 0x14 4
      let passMax := bits w4 15 0
      let passMin := bits w4 31 16
      let maxPass := bits w8 15 0
      let turn := bit w 16
      let bad := decide (2 ^ 20 ≤ w) || bits w 19 18 == 3 || n == 0 || decide (32 < n) || passMin == 0 || decide (512 < passMin) ||
        decide (passMax < passMin) || decide (512 < passMax) || decide (2 ^ 16 ≤ w8) || maxPass == 0 || decide (4096 < maxPass) ||
        decide (2 ^ 24 ≤ wc) || decide (1048575 < fieldAt h 0x10 4) || decide (65536 < pool) ||
        !zeroAt h 0x18 40 || decide (o.size < 64 + 16 * n + 4 * pool)
      if b.poisoned o.base 64 then .error (Codes.memPoison, 0)
      else if bad then .error (Codes.templateBad, headerAux)
      else if b.poisoned o.base (64 + 16 * n + 4 * pool) then .error (Codes.memPoison, 0)
      else
        let es := (List.range n).map fun k => segmentOf pool (b.readMem (o.base + 64 + 16 * k) 16)
        let second := fun (k : Nat) => (es.take k).any fun e => match e, es.getD k none with
          | some x, some y => x.kind == y.kind && x.kind != 1
          | _, _ => false
        match (List.range n).find? fun k => (es.getD k none).isNone || second k with
        | some k => .error (Codes.templateBad, k)
        | none =>
          .ok { attrib := bits w 19 18, priority := bit w 17, turn := if turn then some wc else none, passMin := passMin
                passMax := passMax, maxPass := maxPass, histMin := fieldAt h 0x10 4, segs := es.filterMap id
                pool := entries 4 (b.readMem (o.base + 64 + 16 * n) (4 * pool)) }

/-! ### PACK: the budget rule (R351 to R357) -/

/-- A packed passage: its candidate, the label, body tokens written, the offset of its body in LD. -/
structure Packed where
  kept : Kept
  label : List Nat
  labelBad : Bool
  body : List Nat
deriving DecidableEq, Repr

/-- Stored tokens of a record (R268). -/
def recordTokens (r : List Byte) : List Nat := (List.range (min 512 (fieldAt r 6 2))).map fun k => fieldAt r (0x540 + 3 * k) 3

/-- The label in a record's META, and LABEL_BAD (R356). -/
def recordLabel (r : List Byte) : List Nat × Bool :=
  let len := bits (fieldAt r 0x20 4) 10 0
  let n := fieldAt r 0xB40 2
  if len < 2 then ([], false)
  else if 16 < n ∨ len < 2 + 3 * n then ([], true)
  else ((List.range n).map fun k => fieldAt r (0xB42 + 3 * k) 3, false)

/-- The passage fill (R352): packed passages, room left, whether one was cut or left out. -/
def passageFill (t : Template) (s : Segment) : List Kept → Nat → Nat → List Packed × Nat × Bool
  | [], room, _ => ([], room, false)
  | k :: rest, room, packed =>
    if t.maxPass ≤ packed then ([], room, true)
    else
      let lb := recordLabel k.bytes
      let label := if s.label then lb.1 else []
      let toks := recordTokens k.bytes
      let w := s.lenA + s.lenB + label.length
      let body := toks.take t.passMax
      let mk := fun (bd : List Nat) => ({ kept := k, label := label, labelBad := lb.2, body := bd } : Packed)
      if w + body.length ≤ room then
        let r := passageFill t s rest (room - (w + body.length)) (packed + 1)
        (mk body :: r.1, r.2.1, r.2.2)
      else if w ≤ room ∧ min t.passMin toks.length ≤ room - w then
        let r := passageFill t s rest 0 (packed + 1)
        (mk (body.take (room - w)) :: r.1, r.2.1, true)
      else ([], room, true)

/-- History tokens kept of h when `keep` fit (R353): the first kept token moves forward to a turn start, unless that leaves fewer
than the mandatory ones. -/
def historyKeep (t : Template) (hist : List Nat) (keep : Nat) : List Nat :=
  let first := hist.length - keep
  match t.turn with
  | none => hist.drop first
  | some tok =>
    let start := fun (j : Nat) => j == 0 || hist.getD (j - 1) 0 == tok
    match ((List.range hist.length).filter fun j => decide (first ≤ j) && start j).head? with
    | some j => if hist.length - j < min t.histMin hist.length then hist.drop first else hist.drop j
    | none => hist.drop first

/-- A run of the literal pool. -/
def Template.run (t : Template) (off len : Nat) : List Nat := (t.pool.drop off).take len

/-- LD of a PACK (R354): its tokens, and where the body of each packed passage begins. -/
def Template.write (t : Template) (hist : List Nat) (ps : List Packed) : List Nat × List Nat :=
  t.segs.foldl (fun (st : List Nat × List Nat) s =>
    if s.kind = 1 then (st.1 ++ t.run s.offA s.lenA, st.2)
    else if s.kind = 2 then (st.1 ++ hist, st.2)
    else ps.foldl (fun (st : List Nat × List Nat) p =>
      let pre := st.1 ++ t.run s.offA s.lenA ++ p.label
      (pre ++ p.body ++ t.run s.offB s.lenB, st.2 ++ [pre.length])) st) ([], [])

/-- An attribution entry (R358). -/
def attribution (t : Template) (p : Packed) (start : Nat) : List Byte :=
  let r := p.kept.bytes
  let stored := (recordTokens r).length
  let len := bits (fieldAt r 0x20 4) 10 0
  let metaBytes := if t.attrib = 2 then (r.drop 0xB40).take len else []
  let flags := p.kept.pos % 2 ^ 16 + (if p.body.length < stored then 2 ^ 16 else 0) + (if p.labelBad then 2 ^ 17 else 0) +
    (if p.kept.death = noEpoch then 0 else 2 ^ 18) + p.kept.cand.setIdx * 2 ^ 24
  fitBytes 64 (le 8 p.kept.cand.id ++ le 4 p.kept.cand.score.toNat ++ le 4 flags ++ le 4 start ++ le 2 p.body.length ++ le 2 stored ++
    le 2 p.label.length ++ le 2 metaBytes.length ++ le 4 p.kept.birth ++ le 4 p.kept.death) ++
  fitBytes (roundUp metaBytes.length 64) metaBytes

/-- PACK once its candidates are prepared (R351 to R357). -/
def packResult (t : Template) (budget : Nat) (hist : List Nat) (p : Prep) : StepResult :=
  let hseg := t.segs.any fun s => s.kind == 2
  let hist := if hseg then hist else []
  let h := hist.length
  let must := min t.histMin h
  let mand := natSum ((t.segs.filter fun s => s.kind == 1).map fun s => s.lenA) + must
  if budget < mand then StepResult.ofCode Codes.budgetSmall
  else
    let room := budget - mand
    let pseg := t.segs.find? fun s => s.kind == 3
    let fill := fun (room : Nat) => match pseg with
      | some s => passageFill t s p.kept room 0
      | none => ([], room, false)
    let early := min h (t.histMin + room)
    let pf := fill (if t.priority then room - (early - must) else room)
    let kept := historyKeep t hist (if t.priority then early else min h (t.histMin + pf.2.1))
    let out := t.write kept pf.1
    let left := if pseg.isSome then p.kept.length - pf.1.length else 0
    let trunc := pf.2.2 || decide (kept.length < h)
    let summary := fitBytes 64 (le 4 pf.1.length ++ le 4 left ++ le 4 p.unseen ++ le 4 p.dups ++ le 4 kept.length ++
      le 4 (h - kept.length) ++ le 4 out.1.length ++ le 4 budget)
    { StepResult.ofCode (if trunc then Codes.packTrunc else Codes.ok) with
      ld := some (kTokens, out.1.length, (out.1.map (le 4)).flatten), rd := some (BitVec.ofNat 64 out.1.length)
      summary := if t.attrib = 0 then [] else summary :: (pf.1.zip out.2).map fun x => attribution t x.1 x.2 }

/-- Declared delivered CCLK of PACK's packing task (R359): `n` entries of LA. -/
def packCclk (t : Template) (budget n : Nat) : Nat :=
  let entry := if t.attrib = 0 then 0 else if t.attrib = 1 then 64 else 64 + roundUp 1216 64
  96 + 16 * t.segs.length + 4 * n + ceilDiv budget 16 +
    ceilDiv (if t.attrib = 0 then 0 else 64 + min n t.maxPass * entry) 64

/-- Declared delivered CCLK of the preparation kernel for `n` entries (R347). -/
def prepCclk (n : Nat) : Nat := 64 + 4 * n

/-- PACK once its candidates are prepared (R351 to R357). -/
def Block.packGo (b : Block) (n : Nat) (i : RInstr) (p : Prep) : Block :=
  let c := b.ctx n
  match b.template c.tenant i.obj with
  | .error e => b.unitResult n (StepResult.ofCode e.1)
  | .ok t =>
    let hist := if t.segs.any (fun s => s.kind == 2) then b.tokensOf n i.lb else []
    let la := if t.segs.any (fun s => s.kind == 3) then (c.list i.la).count else 0
    (b.addTask n 9 0 (packCclk t i.imm32 la) 1).unitResult n (packResult t i.imm32 hist p)

/-! ### The course of a preparation (R340) -/

/-- A RERANK or PACK goes on: once nothing is owed and every record is in the cache, it scores or packs. -/
def Block.prepRun (b : Block) (n : Nat) : Block :=
  match (b.ctx n).step, b.search? n, b.instrAt n with
  | some st, some run, some i =>
    let missing := (b.prepNeeds n run).any fun id => (b.cacheOf n).fetching.contains id
    if st.wait ≠ .search ∨ run.owes ∨ !run.parked.isEmpty ∨ !run.fetching ∨ missing then b
    else if st.opcode = 9 then b.packGo n i (b.prepared n run)
    else
      b.rerankGo n i (b.prepared n run) { dim := run.dim, fmt := run.fmt, sketch := 0, vec := run.vec, sk := run.sketch }
        (match st.rerank with
        | some r => r.cross
        | none => [])
  | _, _, _ => b

/-- The next stage of a preparation: the fetches once every tail is here, then the step itself. Where the cache waits for a page,
nothing happens. -/
def Block.prepOn (b : Block) (n : Nat) : Block :=
  match (b.ctx n).step, b.search? n with
  | some st, some run =>
    if st.wait ≠ .search ∨ run.owes ∨ !run.parked.isEmpty ∨ run.fetching then b.prepRun n
    else
      match b.prepFetch n run with
      | some b => b.prepRun n
      | none => b
  | _, _ => b

/-- An answer for a RERANK or PACK: tails and access first, then records (R298, R340). -/
def Block.prepAnswer (b : Block) (n : Nat) (m : ResultMsg) : Block :=
  match b.search? n with
  | none => b
  | some run =>
    match (run.waitsFor m).1 with
    | none => b
    | some q =>
      if run.fetching then
        b.takeRecords n m m.records fun b => ((b.modQuery n q.setIdx fun q => { q with done := true }).notOwed n).prepOn n
      else
        let tails := (m.ids.zip m.tails).map fun x => (x.1, x.2.1, x.2.2)
        ((b.modQuery n q.setIdx fun q => { q with tails := tails, done := true }).notOwed n).prepOn n

/-- A preparation whose records or answers waited for a page goes on. -/
def Block.prepAgain (b : Block) (n op : Nat) : Block :=
  match (b.ctx n).step, b.search? n with
  | some st, some run =>
    if st.opcode ≠ op then b
    else
      match run.parked with
      | m :: rest => (b.modSearch n fun s => { s with parked := rest }).prepAnswer n m
      | [] => b.prepOn n
  | _, _ => b

/-- A RERANK or PACK begins (R284, R340): its preparation task, the shards it reaches here, and what it asks of other modules. -/
def Block.prepStart (b : Block) (n : Nat) (i : RInstr) (q : QueryVec) (own : Bool) (cs : List Cand) (vector : List Byte)
    (holds : List Nat) : Block :=
  let run := { SearchRun.new q with cands := cs, own := own }
  let b := b.startStep n i .search false (prepCclk cs.length) none (some run) none holds
  let b := (shardsNamed cs).foldl (fun (b : Block) e => if e.1 = b.cb.module then b.reachShard n e.2 else b) b
  b.askTails n cs vector

/-- RERANK (R340 to R347): the cross-encoder's scores come with the command, in the order of the candidates it sees. -/
def execRerank (ctx : Nat) (cross : List (BitVec 32)) (s : State) : Host.Outcome State Fault Refusal :=
  s.run fun b => if (b.ctx ctx).step.isSome then b.prepAgain ctx 8 else b.onStep ctx 8 fun i b =>
    let c := b.ctx ctx
    let fb := i.imm32 % 65536
    if !b.listOk ctx i.la [kVector] ∨ !b.listOk ctx i.lb [kCandidates] then b.stepCode ctx i Codes.listKind
    else if b.listPoison ctx i.la ∨ b.listPoison ctx i.lb then b.stepCode ctx i Codes.memPoison
    else
      let q := queryOf (b.listBytes ctx i.la)
      let cs := candsOf (b.listBytes ctx i.lb)
      match b.crossOf c.tenant i.obj q, b.feedback c.tenant fb, b.prepAccess ctx (some q) cs with
      | .error e, _, _ => b.stepCode ctx i e
      | _, .error e, _ => b.stepCode ctx i e
      | _, _, some e => b.stepCode ctx i e
      | .ok _, .ok u, none =>
        if b.kindGone 5 4 ∨ (fb ≠ 0 ∧ b.kindGone 6 4) then b.stepCode ctx i Codes.unitFenced
        else if (match u with
            | some (t, _) => t.keys
            | none => false) then b.stepCode ctx i Codes.gtuOperand
        else
          let holds := (if i.obj = 0 then [] else [i.obj]) ++ (if fb = 0 then [] else [fb])
          let b := b.prepStart ctx i q (c.ownList i.lb) cs (b.listBytes ctx i.la) holds
          let b := b.modCtx ctx fun c => { c with step := c.step.map fun st => { st with
            rerank := some { cross := cross, ents := [], drops := (0, 0, 0), rows := [], owed := [] } } }
          b.prepOn ctx

/-- PACK (R340, R348 to R359). A list that the template does not use is not read (R351, R352). -/
def execPack (ctx : Nat) (s : State) : Host.Outcome State Fault Refusal :=
  s.run fun b => if (b.ctx ctx).step.isSome then b.prepAgain ctx 9 else b.onStep ctx 9 fun i b =>
    let c := b.ctx ctx
    let la := c.list i.la
    let lb := c.list i.lb
    match b.template c.tenant i.obj with
    | .error e => (b.modCtx ctx fun c => { c with lastCode := e.1 }).stopReqAux ctx e.1 e.2
    | .ok t =>
      let passages := t.segs.any fun s => s.kind == 3
      let history := t.segs.any fun s => s.kind == 2
      let cs := if passages then candsOf (b.listBytes ctx i.la) else []
      if (la.kind ≠ 0 ∧ la.kind ≠ kCandidates) ∨ (lb.kind ≠ 0 ∧ lb.kind ≠ kTokens) then b.stepCode ctx i Codes.listKind
      else if (passages ∧ b.listPoison ctx i.la) ∨ (history ∧ b.listPoison ctx i.lb) then b.stepCode ctx i Codes.memPoison
      else
        match b.prepAccess ctx none cs with
        | some e => b.stepCode ctx i e
        | none => (b.prepStart ctx i ⟨0, 0, 0, [], []⟩ (c.ownList i.la) cs [] [i.obj]).prepOn ctx

/-- A RESULT reaches the step that waits for it: PROBE, SCAN, WALK, RERANK or PACK. Any code but OK ends the step (R300). -/
def Block.remoteAnswer (b : Block) (n : Nat) (m : ResultMsg) : Block :=
  match (b.ctx n).step, b.search? n with
  | some st, some run =>
    let shard? : Option Nat := match run.waitsFor m with
      | (some q, _) => some q.shard
      | (none, some w) => some w.shard
      | (none, none) => none
    match shard? with
    | none => b
    | some shard =>
      if m.code ≠ Codes.ok then b.searchFail n m.code
      else
        let b := b.pinRemote n (b.pinKey m.module shard) m.epoch
        if st.opcode = 8 ∨ st.opcode = 9 then b.prepAnswer n m else b.searchAnswer n m
  | _, _ => b

/-- A record that was read from the strongbox comes to what asked for it (R269, R274): the step goes on. -/
def Block.stepRecord (b : Block) (n : Nat) : Block :=
  match (b.ctx n).step with
  | some st => if st.opcode = 8 ∨ st.opcode = 9 then b.prepOn n else if st.opcode = 6 ∨ st.opcode = 7 then b.searchAgain n st.opcode else b
  | none => b

/-- Rows of a RERANK's feedback table come from another member (R343, R450). -/
def Block.rerankRows (b : Block) (n pos : Nat) (rows : List (Nat × List W32)) : Block :=
  match (b.ctx n).step, b.instrAt n with
  | some st, some i =>
    match st.rerank with
    | some r =>
      let r := { r with rows := r.rows ++ rows, owed := r.owed.filter fun o => o.1 != pos }
      let b := b.modCtx n fun c => { c with step := c.step.map fun st => { st with rerank := some r } }
      if r.owed.isEmpty ∧ st.wait = .rounds then (b.unblockCtx n).rerankFuse n i r else b
    | none => b
  | _, _ => b

end Sys2Proof.Machine
end

