-- ==== Sys2Proof/Machine/Estimate.lean ====
section
/-!
DEFINITION. Machine/Estimate.lean: the turnpike's estimate of a route (R156 to R159): largest counts of the steps (R294, R297,
R334, R347, R359, R375, R387, R431, R453, R471, R506), largest lists, the largest need of each tier, the coach part.
-/
namespace Sys2Proof.Machine

/-! ### Bounds (R470, R471, R506) -/

/-- Largest DDR read of `n` bytes in NCLK by a unit station of `share` sixty-fourths in its quarter (R468, R470, R471). -/
def ddrMax (share n : Nat) : Nat := 1100 + ceilDiv (5 * (n - 64)) (18 * share)

/-- Excess of the maximum bound of one stream of `n` bytes over its minimum, in NCLK, by a unit station of `share` sixty-fourths
(R468, R470, R471). A list's pages may lie in either tier, so the DDR bounds count, with every page boundary of the context
window. -/
def streamExcess (share n : Nat) : Nat :=
  let m := roundUp n 64 - 64
  if n = 0 then 0 else 1004 + ceilDiv (5 * m) (18 * share) - ceilDiv m 128 + 420 * ceilDiv m 65536

/-- The same for the text unit on the hub die: one quarter of the hub bridge's share, divided by 8 (R470). -/
def hubExcess (n : Nat) : Nat :=
  let m := roundUp n 64 - 64
  if n = 0 then 0 else 1004 + ceilDiv (10 * m) 9 - ceilDiv m 128 + 420 * ceilDiv m 65536

/-- A requester of another quarter adds 36 NCLK each way (R471). -/
def crossQuarter : Nat := 72

/-- Maximum of n record reads issued together, in FCLK (R506 with a = 0, e = 1, u = n). -/
def recordsMax (n : Nat) : Nat := if n = 0 then 0 else 953500 + 900000 * (n - 1) + 1901000

/-- Maximum of a swap-in of m slots, in FCLK (R506, R513). -/
def swapInMax (m : Nat) : Nat :=
  let u := ceilDiv (4 * ceilDiv (ceilDiv m 60) 32) 3
  if m = 0 then 0 else 953500 + 900000 * (u - 1) + 1901000

/-- Logarithm to base 2, rounded up. -/
def log2Up (k : Nat) : Nat := if k ≤ 1 then 0 else Nat.log2 (k - 1) + 1

/-- SELECT EXACT (R334), in NCLK. -/
def selectNclk (n k : Nat) (idx sort : Bool) : Nat :=
  96 + 5 * ceilDiv n (if idx then 32 else 64) + ceilDiv k 16 + (if sort ∧ 2 ≤ k then ceilDiv k 16 * log2Up k else 0)

/-- SELECT EXACT at maximum bounds (R335): streams of the scores, the indices and the entries written. -/
def selectMax (n k : Nat) (idx sort : Bool) : Nat :=
  selectNclk n k idx sort + streamExcess 4 (4 * n) + (if idx then streamExcess 4 (4 * n) else 0) + streamExcess 4 (8 * k)

/-- SELECT BUCKET at maximum bounds (R334, R335). -/
def bucketMax (n k : Nat) : Nat := 48 + 2 * ceilDiv n 64 + ceilDiv k 16 + streamExcess 4 (4 * n) + streamExcess 4 (8 * k)

/-- MERGE EXACT of m entries in g lists at maximum bounds (R334, R335): streams of the list table, the lists and the entries
written. -/
def mergeMax (g m k : Nat) : Nat :=
  96 + ceilDiv g 8 + 5 * ceilDiv m 32 + ceilDiv k 8 + streamExcess 4 (32 * g) + streamExcess 4 (16 * m) + streamExcess 4 (16 * k)

/-- Time of LOOKUP (op 1), KEYS (op 3) and UPDATE (op 2) of n entries (R453), in NCLK. -/
def gatherNclk (t : Table) (op n : Nat) (pool tok : Bool) : Nat :=
  let r := ceilDiv t.rb 128
  let a := if t.composed then 2 else 1
  let h := if t.hotRows = 0 then 0 else 1
  let k := if tok then ceilDiv n 16 else 0
  let sorted := if 2 ≤ n then ceilDiv n 16 * log2Up n else 0
  if op = 3 then 32 + k + ceilDiv n 16
  else if op = 2 then 48 + k + sorted + n * (3 * r + h)
  else 48 + k + sorted + n * (a * r + h) + (if pool then r else n * r)

/-- The same at maximum bounds (R453): streams of the keys, of the rows read and of what is written. -/
def gatherMax (t : Table) (op n : Nat) (pool tok : Bool) : Nat :=
  let a := if t.composed then 2 else 1
  let rows := if op = 3 then 0 else a * n * t.rb
  let out := if op = 3 then 8 * n else if op = 2 then n * t.rb else (if pool then 1 else n) * t.rs64
  gatherNclk t op n pool tok + streamExcess 4 (if tok then 4 * (n + t.ngram - 1) else 8 * n) +
    (if op = 2 then streamExcess 4 (n * t.rs64) else 0) + streamExcess 4 rows + streamExcess 4 out

/-- Largest exchange with another member of the team: a request, its response and `n` bytes of payload, in link cycles (R566). -/
def Block.exchangeMax (b : Block) (n : Nat) : Nat :=
  2 * (2 * b.cb.l + 2 + b.cb.retryLimit * (2 * b.cb.l + 1)) + 4 + ceilDiv n 256

/-- What a team table adds for n keys (R453): the exchange with each of the other members, in ungated CCLK. -/
def Block.teamRows (b : Block) (t : Table) (n : Nat) : Nat :=
  if t.spread = 1 then convL (max 1 (b.teamPositions.length - 1) * b.exchangeMax (n * (8 + t.rb))) else 0

/-- Largest count of a step's commands over `count` entries (R442, R443), in ungated CCLK. -/
def Block.gatherCount (b : Block) (t : Table) (op count : Nat) (pool tok : Bool) : Nat :=
  let runs := (keyRuns tok t.ngram count).map fun r => if tok then r.2 + 1 - t.ngram else r.2
  natSum (runs.map fun k => convN (gatherMax t op k pool tok) + b.teamRows t k)

/-- The maximum of a collective of op, of b bytes, reading `bin` and writing `bout` bytes (R565), in link cycles; op 0 stands for
ALL_REDUCE, 1 for REDUCE_SCATTER and the others for the rest. -/
def Block.collMax (b : Block) (op len bin bout : Nat) : Nat :=
  let n := max 1 b.teamPositions.length
  let f := ceilDiv len (if op ≤ 1 then 256 * n else 256)
  ceilDiv bin 192 + (if op = 0 then 2 else 1) * (2 * f + 2 * b.cb.l + 2 + b.cb.retryLimit * (2 * b.cb.l + 1)) + 6 + ceilDiv bout 192

/-! ### Walking a route (R156, R158) -/

/-- What the walk has gathered: the largest lists by handle (kind and entries), which handles a PROBE of the route writes (its
IMM16, and whether it takes every partition), DIM and FMT of those that an EMBED of the route writes, whether
those that its searches write may name other modules' shards, the positions that the
context then holds, SPEC, the time in ungated CCLK, the declared delivered CCLK, pages of lists and of the record cache, pages of
the generator's and of the draft's frames, and those of the draft that the context holds already. -/
structure Est where
  lists : Tab (Nat × Nat)
  probes : Tab (Nat × Bool)
  dims : Tab (Nat × Nat)
  remotes : Tab Bool
  kv : Nat
  spec : Option (Nat × Nat)
  time : Nat
  coach : Nat
  pages : Nat
  records : Nat
  nextBytes : Nat
  genPages : Nat
  draftPages : Nat
  draftHeld : Nat
deriving DecidableEq, Repr

/-- Largest number of entries of a handle. -/
def Est.size (e : Est) (h : Nat) : Nat := ((tabFind? h e.lists).map (·.2)).getD 0

def Est.kind (e : Est) (h : Nat) : Nat := ((tabFind? h e.lists).map (·.1)).getD 0

/-- A new list of the route: its entries, and the pages of its bytes. -/
def Est.newList (e : Est) (h kind count bytes : Nat) : Est :=
  { e with lists := tabSet h (kind, count) e.lists, probes := tabErase h e.probes, pages := e.pages + ceilDiv bytes 65536 }

/-- A compute step's time: the coachman's own (R139), delivered CCLK, and a unit's time in ungated CCLK. -/
def Est.step (e : Est) (s : Nat) (i : RInstr) (d unit : Nat) : Est :=
  { e with time := e.time + 32 + (if i.rpl % 8 = 0 then 0 else 16) + convD s d + unit, coach := e.coach + d }

/-- Declared delivered CCLK of a step's tile task, where the chapter counts the unit's time alone (R159). -/
def Est.load (e : Est) (d : Nat) : Est := { e with coach := e.coach + d }

/-- The shards of a set as this module holds them, and whether another module has some. -/
def Block.estShards (b : Block) (t obj : Nat) : Bool × List Shard × Bool :=
  match b.shardSet t obj with
  | .ok (ref, es) => (ref, (es.filter fun e => e.1 == b.cb.module).filterMap fun e => b.shard? e.2, es.any fun e => e.1 != b.cb.module)
  | .error _ => (false, [], false)

/-- Shards of a set. -/
def Block.setSize (b : Block) (t obj : Nat) : Nat := match b.shardSet t obj with
  | .ok (_, es) => es.length
  | .error _ => 0

/-- Pages of the draft table that a context holds (R420): frames and the table itself. -/
def Block.draftHeld (b : Block) (n : Nat) : Nat :=
  let c := b.ctx n
  if c.draftTable.isEmpty then 0
  else natSum (c.draftTable.map fun e => ((b.frame e.frame).map fun (f : Frame) => f.pages.length).getD 0) +
    ceilDiv (64 + 8 * c.draftTable.length) 65536

/-- Work on other modules counts SKE_REMOTE_WAIT (R300, R576), in ungated CCLK. -/
def Block.estRemote (b : Block) (remote : Bool) : Nat := if remote then b.ske.remoteWait.toNat * 1024 else 0

/-- CAPACITY of a shard's partitions, the largest first. -/
def Block.capacities (b : Block) (x : Shard) : List Nat :=
  sortBy (fun c d => decide (d ≤ c)) ((List.range x.parts).map fun p => (b.partEnt x p).cap)

/-- A pass over r rows at its maximum (R290), in NCLK: engines own 12 sixty-fourths of DDR. -/
def passNclk (sb r : Nat) : Nat := 24 + ceilDiv (r * sb) 128 + ddrMax 12 (r * sb)

/-- SCAN's count of a round whose passes take T NCLK (R294). -/
def scanNclk (turn t : Nat) : Nat := 8 * turn * (1 + ceilDiv t (max 1 turn))

/-- Partitions of each round of a PROBE (R287). -/
def probeRounds (p parts : Nat) (all : Bool) : List Nat :=
  if all then [parts] else (List.range 5).map fun r =>
    min (p * 2 ^ r) parts - (if r = 0 then 0 else min (p * 2 ^ (r - 1)) parts)

/-- Lists of the given lengths out of one list. -/
def splitAts : List Nat → List Nat → List (List Nat)
  | [], _ => []
  | k :: ks, xs => xs.take k :: splitAts ks (xs.drop k)

/-- CAPACITY of the partitions that each round of a SCAN takes on a shard (R294): a PROBE's in the numbers of R287, the largest
ones; else those of LB. -/
def Block.roundCaps (b : Block) (n : Nat) (e : Est) (i : RInstr) (setIdx : Nat) (x : Shard) (ref : Bool) : List (List Nat) :=
  match tabFind? i.lb e.probes with
  | some (p, all) => splitAts (probeRounds p x.parts (all || ref)) (b.capacities x)
  | none =>
    let es := (entries 8 (b.listBytes n i.lb)).filter fun v => v / 2 ^ 56 == setIdx
    (List.range 5).map fun r => (es.filter fun v => bits v 55 48 == r).map fun v => (b.partEnt x (bits v 47 32)).cap

/-- Largest count of one round on one shard (R294): the turns of its passes, and the selection over the rows of all rounds so
far (R292, R293). -/
def Block.roundMax (b : Block) (k : Nat) (x : Shard) (before now : List Nat) : Nat :=
  let t := natSum (now.map fun c => passNclk x.sb c)
  (if t = 0 then 0 else scanNclk b.ske.turnLen t) + bucketMax (natSum before + natSum now) k

/-- SCAN's largest count on the shards of this module (R294), in NCLK, with the merge of each round. -/
def Block.scanMax (b : Block) (n : Nat) (e : Est) (i : RInstr) (shards : List (Nat × Shard)) (ref : Bool) : Nat :=
  let rounds := if bit i.iflags 0 then 5 else 1
  natSum (shards.map fun x =>
    let caps := (b.roundCaps n e i x.1 x.2 ref).take rounds
    natSum ((List.range caps.length).map fun r => b.roundMax i.imm16 x.2 (caps.take r).flatten (caps.getD r []))) +
  rounds * mergeMax shards.length (shards.length * i.imm16) i.imm16

/-- What preparation adds to a step over n entries (R347): a tail read and n record reads issued together, in ungated CCLK. -/
def prepUnit (n : Nat) : Nat := convN (ddrMax 8 64 + crossQuarter) + convF (recordsMax n)

/-- A list of candidates may name shards of other modules: as the step of the route that writes it says, else by its entries. -/
def Block.listRemote (b : Block) (n : Nat) (e : Est) (h : Nat) : Bool :=
  (tabFind? h e.remotes).getD ((entries 16 (b.listBytes n h)).any fun v =>
    decide (v % 2 ^ 64 < 2 ^ 49) && idModule (v % 2 ^ 64) != b.cb.module)

/-- The estimate's part of one instruction (R156), for a request of context `n`. -/
def Block.estStep (b : Block) (n : Nat) (e : Est) (i : RInstr) : Est :=
  let c := b.ctx n
  let s := b.rel.skip
  let t := c.tenant
  let la := e.size i.la
  let lb := e.size i.lb
  match i.op with
  | 0x01 =>
    -- a list of the context, or reads of host memory
    let input := if bit i.iflags 0 then hubExcess 65536 else 16 * b.txu.hostBound.toNat
    let unit := convN (530528 + input + hubExcess 131072) + Config.stepExcess 1 0
    ((e.step s i 0 unit).load (Config.fwCclk 1)).newList i.ld kTokens 32768 131072
  | 0x02 =>
    let d := match b.liveObj? t i.obj with
      | some o => if o.kind = 4 then (o.decl.bind fun d => d.encoder) else none
      | none => none
    match d with
    | some d =>
      let size := 64 + d.dim * elemBytes d.fmt + sketchBytes d.sketch
      let e := (e.step s i d.cclk 0).newList i.ld kVector size size
      { e with dims := tabSet i.ld (d.dim, d.fmt) e.dims }
    | none => e.step s i 0 0
  | 0x03 =>
    match b.stepTable t i.obj with
    | .ok tb =>
      let tok := e.kind i.la == kTokens
      let keys := if tok then la + 1 - tb.ngram else la
      let unit := b.gatherCount tb (if tb.keys then 3 else 1) la (i.sub == 1) tok
      let count := if tb.keys then keys else if i.sub = 1 then 1 else keys
      (e.step s i 96 unit).newList i.ld (if tb.keys then kIndices else kRows) count (if tb.keys then 8 * keys else 64 + count * tb.rs64)
    | .error _ => e.step s i 96 0
  | 0x04 =>
    match b.stepTable t i.obj with
    | .ok tb => e.step s i 96 (b.gatherCount tb 2 la false false)
    | .error _ => e.step s i 96 0
  | 0x05 =>
    let (ref, xs, remote) := b.estShards t i.obj
    let all := bit i.iflags 0 || ref
    let count := natSum (xs.map fun x => if all then x.parts else min (16 * i.imm16) x.parts)
    let sel := if all then 0 else convN (natSum (xs.map fun x => selectMax x.parts (min (16 * i.imm16) x.parts) false false))
    let e := (e.step s i (Config.fwCclk 5) (sel + b.estRemote remote)).newList i.ld
      kPartitions count (8 * count)
    { e with probes := tabSet i.ld (i.imm16, all) e.probes }
  | 0x06 =>
    let (ref, _, remote) := b.estShards t i.obj
    let xs := match b.shardSet t i.obj with
      | .ok (_, es) => es.zipIdx.filterMap fun x => if x.1.1 = b.cb.module then (b.shard? x.1.2).map fun y => (x.2, y) else none
      | .error _ => []
    let unit := convN (b.scanMax n e i xs ref) + (if bit i.iflags 0 then 5 else 1) * b.estRemote remote
    let e := ((e.step s i 0 unit).load (Config.fwCclk 6)).newList i.ld kCandidates i.imm16 (16 * i.imm16)
    { e with remotes := tabSet i.ld remote e.remotes }
  | 0x07 =>
    let (_, xs, remote) := b.estShards t i.obj
    let hops := i.imm32 % 256
    let unit := convN (xs.length * hops * (4757500 + 256 + 3 * (ddrMax 8 64 + crossQuarter))) + b.estRemote remote
    let e := ((e.step s i 0 unit).load (Config.fwCclk 7)).newList i.ld kCandidates i.imm16 (16 * i.imm16)
    -- at most W + 32 × H records of each shard (R296)
    { e with records := e.records + (b.setSize t i.obj) * (i.imm16 + 32 * hops), remotes := tabSet i.ld remote e.remotes }
  | 0x08 =>
    let x := min i.imm16 lb
    let q0 := queryOf (b.listBytes n i.la)
    let q := match tabFind? i.la e.dims with
      | some (dim, fmt) => { q0 with dim := dim, fmt := fmt }
      | none => q0
    let cross := match b.crossOf t i.obj q with
      | .ok (some d) => d.cclk
      | _ => 0
    let fb := match b.feedback t (i.imm32 % 65536) with
      | .ok r => r
      | .error _ => none
    let d := rerankCclk lb q.dim x cross (match fb with
      | some (_, f) => f.f
      | none => 0) fb.isSome
    let feed := match fb with
      | some (tb, _) => b.gatherCount tb 1 x false false
      | none => 0
    let remote := b.listRemote n e i.lb
    let unit := prepUnit lb + convN (selectMax lb x true false + selectMax x x true (decide (i.imm16 ≤ 4096))) + feed + 2 * b.estRemote remote
    let e := (e.step s i d unit).newList i.ld kCandidates x (16 * x)
    { e with records := e.records + lb, remotes := tabSet i.ld remote e.remotes }
  | 0x09 =>
    match b.template t i.obj with
    | .ok tm =>
      let e := (e.step s i (prepCclk la + packCclk tm i.imm32 la) (prepUnit la +
        -- its attribution goes to the host as a descriptor, whose read-back counts DR_HOST_BOUND (R523, R536, R537)
        (if tm.attrib = 0 then 0 else convN b.dr.hostBound.toNat) + 2 * b.estRemote (b.listRemote n e i.la))).newList i.ld
        kTokens i.imm32 (4 * i.imm32)
      { e with records := e.records + la }
    | .error _ => e.step s i 0 0
  | 0x0A =>
    match b.generator t i.obj with
    | some g =>
      let len := e.kv + la
      let d := g.pcFix + g.pcTok * la + g.pcBlk * ceilDiv len 64 * ceilDiv la 64
      let colls := if g.sliced ∧ b.inTeam then Config.prefillColls i.obj la else []
      let e := e.step s i d (convL (natSum (colls.map fun c => b.collMax c.1 c.2.1 c.2.2.1 c.2.2.2)))
      { e with kv := len, nextBytes := max e.nextBytes g.nextBytes
               genPages := e.genPages + (ceilDiv len 64 - ceilDiv (len - la) 64) * framePages g }
    | none => e.step s i 0 0
  | 0x0B =>
    match b.generator t i.obj with
    | some g =>
      let draft := match e.spec with
        | some (o, k) => (b.generator t o).map fun d => (d, k)
        | none => none
      let k := match draft with
        | some (_, k) => k
        | none => 0
      let len := e.kv + i.imm16 + k
      let blocks := ceilDiv len 64
      let read := if i.sub = 0 then blocks else min blocks (i.imm32 + 5)
      let own := g.dcFix + g.dcTok * (k + 1) + g.dcBlk * read + (if i.sub = 0 then 0 else g.groups * g.dcSketch * blocks)
      let drafts := match draft with
        | some (d, k) => (d.dcFix + d.dcTok + d.dcBlk * blocks) * k
        | none => 0
      let vocab := match b.liveObj? t g.vocabObj with
        | some o => match b.segModel o with
          | .ok m => m.vocab
          | .error _ => 262144
        | none => 262144
      let sparse := if i.sub = 0 then 0 else g.groups * selectMax (blocks - 5) i.imm32 false false
      let maskBytes := ceilDiv vocab 8
      let reins := 16 + 64 + ceilDiv vocab 128 + ceilDiv maskBytes 128 + 2 * streamExcess 2 1280 + 3 * streamExcess 2 maskBytes
      let unit := convN ((2 * k + 2) * reins + 32 + 16 * (k + 1) + 8 + 2 * hubExcess 1280 + sparse) + Config.stepExcess 0xB k
      let round := own + drafts + 16 + 2 * g.dcSketch
      let close := g.dcFix + g.dcTok + g.dcBlk * blocks
      let m := i.imm16
      let e := { e with
        time := e.time + m * (32 + convD s round + unit) + convD s close + (if i.rpl % 8 = 0 then 0 else 16)
        coach := e.coach + m * round + close
        genPages := e.genPages + (blocks - ceilDiv e.kv 64) * framePages g
        draftPages := match draft with
          | some (d, _) => max e.draftPages (blocks * framePages d + ceilDiv (64 + 8 * blocks) 65536 - e.draftHeld)
          | none => e.draftPages
        nextBytes := max e.nextBytes g.nextBytes, kv := len }
      e.newList i.ld kTokens i.imm16 (4 * i.imm16)
    | none => e.step s i 0 0
  | 0x0C => { e with time := e.time + 8, spec := if i.obj = 0 then none else some (i.obj, i.imm16) }
  | 0x0F => (e.step s i 0 (convN (32 + 16 * la + 8 + hubExcess (4 * la) + 2 * hubExcess 1280))).load (Config.fwCclk 0xF)
  | 0x10 => { e with time := e.time + 6 }
  | 0x11 => { e with time := e.time + 16 }
  | 0x12 => { e with time := e.time + 24 }
  | 0x13 => { e with time := e.time + 24 }
  | _ => { e with time := e.time + 8 }

/-- The walk from an instruction to the last one. -/
def Block.estimate (b : Block) (n : Nat) (resume : Bool) (code : List RInstr) : Est :=
  let c := b.ctx n
  let e0 : Est :=
    { lists := tabMap (fun _ (l : ListHandle) => (l.kind, l.count)) c.lh, probes := [], dims := [], remotes := [], kv := c.kvLen
      spec := if resume then c.spec else none, time := 0, coach := 0, pages := 0, records := 0, nextBytes := 0, genPages := 0
      draftPages := 0, draftHeld := if resume then b.draftHeld n else 0 }
  code.foldl (fun (e : Est) i => b.estStep n e i) e0

/-- What RECOMPUTE adds (R172, R431): the count of a PREFILL over the token log, and the pages of its frames. -/
def Block.replayCost (b : Block) (n : Nat) : Nat × Nat :=
  let c := b.ctx n
  if !c.recompute then (0, 0)
  else
    match b.generator c.tenant c.gen with
    | some g =>
      let k := ceilDiv c.kvLen 64
      (g.pcFix + g.pcTok * c.kvLen + g.pcBlk * k * k, k * framePages g)
    | none => (0, 0)

/-- Slots of the image that a swapped context would read back (R171, R513). -/
def Ctx.imageOf (c : Ctx) : Nat :=
  match c.swap with
  | .none => 0
  | .out x => imageSlots x
  | .held _ x => imageSlots x
  | .inn _ x => imageSlots x

/-- The load term W (R159). -/
def Block.loadTerm (b : Block) : Nat := ceilDiv (b.tp.q * 64) ((64 - b.rel.skip) * max 1 b.nCoaches)

/-- E − W of R156: the route, the swap-in, the replay; with the walk and the replay's delivered CCLK. -/
def Block.noLoad (b : Block) (n : Nat) (e : Est) : Nat :=
  let c := b.ctx n
  let swapped := c.state == .swapped
  e.time + (if swapped then convF (swapInMax c.imageOf) else 0) + convD b.rel.skip (b.replayCost n).1

/-- The largest need of a route in context pages (R158, R490); steps create no objects and no slots. -/
def Block.pageNeed (b : Block) (n : Nat) (e : Est) : Nat :=
  let c := b.ctx n
  let blocks := ceilDiv e.kv 64
  let aux := ceilDiv (64 + 8 * blocks) 65536 + 1 + ceilDiv (4 * e.kv) 65536 + ceilDiv e.nextBytes 65536
  let auxNeed := if e.kv = c.kvLen ∧ e.nextBytes = 0 then 0 else aux - c.pages.length
  e.pages + ceilDiv e.records 16 + e.genPages + e.draftPages + auxNeed + (b.replayCost n).2

end Sys2Proof.Machine
end

