-- ==== Sys2Proof/Machine/Turnpike.lean ====
section
/-!
DEFINITION. Machine/Turnpike.lean: admission (R153 to R162), the turnpike queue (R160, R161), swapping and dropping (R170 to
R174, R513, R514) and the replay of a token log (R172).
-/
namespace Sys2Proof.Machine

/-! ### The tests (R153) -/

/-- Outcome of the admission tests: admitted with the walk of the route; refused with a code; failed with a reason, the estimate
where test 7 was reached, and whether the request may queue. -/
inductive Verdict
  | accept (route : RouteVersion) (est : Est)
  | refuse (code : Code)
  | deny (reason est : Nat) (mayQueue : Bool)
deriving DecidableEq, Repr

/-- The estimate field of R154. -/
def estField (e : Nat) : Nat := min (ceilDiv e 1024) 0xFFFF

/-- A code is RESUME (R138). -/
def resumeId : Nat := 0xFFFF

/-- RESUME is permitted (R138). -/
def Ctx.mayResume (c : Ctx) : Bool :=
  (c.state == .idle || (c.state == .swapped && c.prev == .idle)) && c.yielded

/-- The route version that a request would run, and its first step. -/
def Block.routeOf (b : Block) (n : Nat) (r : Req) : Except Code (RouteVersion × Nat) :=
  let c := b.ctx n
  if r.routeId = resumeId then
    match if c.mayResume then b.heldRoute n else none with
    | some v => .ok (v, c.pc)
    | none => .error Codes.notResumable
  else
    match if 0x3FF < r.routeId then none else b.currentRoute c.tenant r.routeId with
    | some v => .ok (v, 0)
    | none => .error Codes.badRoute

/-- Instructions of a route from a step on. -/
def RouteVersion.from (v : RouteVersion) (pc : Nat) : List RInstr := (v.code.drop pc).map fun x => RInstr.ofNat (unle x)

/-- A route needs the slices of other members: it runs a sliced generator (R71, R153 test 2). -/
def Block.needsSlice (b : Block) (t : Nat) (code : List RInstr) : Bool :=
  code.any fun i => (i.op == 0xA || i.op == 0xB) && match b.generator t i.obj with
    | some g => g.sliced
    | none => false

/-- Some expected member of the team is not present. -/
def Block.memberLost (b : Block) : Bool := decide (1 < b.cb.size) && b.cb.present != b.cb.expected

/-- Test 5 (R158, R490): the reason of the first tier that the route touches and that has no room. -/
def Block.quotaReason (b : Block) (t : Nat) (need : Tiers) : Option Nat :=
  let q := (b.ten t).quota
  let u := (b.use t).add need
  if 0 < need.hbm ∧ q.hbm < u.hbm then some 4
  else if 0 < need.ddr ∧ q.ddr < u.ddr then some 5
  else if 0 < need.pages ∧ q.pages < u.pages then some 6
  else if 0 < need.slots ∧ q.slots < u.slots then some 7
  else none

/-- The oldest aged request of a coachman's queue holds a younger request back (R161): after LOAD any, after DECODE_CEILING one
that holds decode work. The queue stands in order of arrival; a request not in it is younger than all. -/
def Block.heldBack (b : Block) (n : Nat) (decode : Bool) : Bool :=
  let aged := fun (m : Nat) => match (b.ctx m).req with
    | some r => b.tp.queueAge != 0 && (r.reason == 0xA || r.reason == 8) &&
        decide (r.arrival + b.tp.queueAge.toNat * 1024 ≤ b.clk.cclk)
    | none => false
  match (tabGet [] (coachman n) b.tp.queues).find? aged with
  | some m => m != n && match (b.ctx m).req with
    | some r => r.reason == 0xA || decode
    | none => false
  | none => false

/-- The largest need of a request (R158, R490). -/
def Block.needOf (b : Block) (n : Nat) (e : Est) : Tiers := ⟨0, 0, b.pageNeed n e, 0⟩

/-- The nine tests of R153 on the request of a context. -/
def Block.admission (b : Block) (n : Nat) (r : Req) : Verdict :=
  let c := b.ctx n
  let route := b.routeOf n r
  let code := match route with
    | .ok (v, pc) => v.from pc
    | .error _ => []
  if b.clk.stage ≠ .ready ∨ b.rel.memLost then .deny 1 0 false
  else if b.memberLost ∧ b.needsSlice c.tenant code then .deny 2 0 false
  else if b.liveCoaches < b.tp.floor then .deny 3 0 true
  else
    match route with
    | .error code => .refuse code
    | .ok (v, _) =>
      let est := b.estimate n (r.routeId = resumeId) code
      let decode := code.any fun i => i.op == 0xB
      match b.quotaReason c.tenant (b.needOf n est) with
      | some reason => .deny reason 0 true
      | none =>
        if decode ∧ b.tp.ceiling ≠ 100 ∧ b.tp.ceiling * 1024 ≤ b.tp.share * 100 then .deny 8 0 true
        else
          let base := b.noLoad n est
          let e := base + b.loadTerm
          if r.budget * 1024 < base then .deny 9 (estField e) false
          else if r.budget * 1024 < e then .deny 0xA (estField e) true
          else if b.heldBack n decode then .deny 0xB (estField e) true
          else .accept v est

/-! ### Admission -/

/-- What admission of a request other than RESUME resets (R122, R124, R138, R377, R428). -/
def Block.freshRoute (b : Block) (n : Nat) (v : RouteVersion) : Block :=
  let c := b.ctx n
  let ver := (((b.ten c.tenant).adapters.find? fun a => a.current).map (·.version)).getD 0
  let r := putField (putField (b.textRec n) 2 2 0) 9 1 0
  let b := ((b.putText n r).dropDraft n).modCtx n fun c => { c with
    pc := 0, yielded := false, routeId := v.routeId, routeVer := v.version, routeHeld := true, adapterVer := ver
    adapterHeld := true, spec := none }
  (b.gcRoutes c.tenant).gcAdapters c.tenant

/-- The generator of a context's blocks is sliced over a team in lockstep. -/
def Block.slicedCtx (b : Block) (n : Nat) : Bool :=
  let c := b.ctx n
  b.inTeam && match b.generator c.tenant c.gen with
    | some g => g.sliced
    | none => false

/-- What a context's swapping has come to is a team commit for the slices on other members (R174). -/
def Block.swapCommit (b : Block) (n : Nat) (st : SwapStep) : Block :=
  if b.slicedCtx n then b.startCommit (.swapStep n st) true else b

/-- The swap-out of a context is abandoned: what it has written is discarded, the debit stands (R173). -/
def Block.abandonSwap (b : Block) (n : Nat) : Block := (b.dropImage n).swapCommit n .kept

/-- Admit the request of a context (R99, R128, R145, R151, R159, R173, R281, R340, R490). -/
def Block.admitReq (b : Block) (n : Nat) (r : Req) (v : RouteVersion) (est : Est) : Block :=
  let m := coachman n
  let need := b.needOf n est
  let share := est.coach + (b.replayCost n).1
  let b := if r.routeId = resumeId then b else b.freshRoute n v
  -- a swap-out that has begun is abandoned
  let b := match (b.ctx n).swap with
    | .out _ => b.abandonSwap n
    | _ => b
  -- an epoch that advances in this CCLK has not yet advanced for the request
  let pins := b.ske.shards.map fun s => (s.1, if s.2.advanced = some b.clk.cclk then s.2.epoch - 1 else s.2.epoch)
  let b := { b with tp := { b.tp with
    admitCount := sat32 b.tp.admitCount 1, q := b.tp.q + share
    queues := tabSet m ((tabGet [] m b.tp.queues).filter (· != n)) b.tp.queues } }
  b.withNear (b.ctx n).tenant fun b => b.modCtx n fun c => { c with
    state := if c.state = .swapped then .swapped else .admitted
    prev := if c.state = .swapped then .admitted else c.prev
    tag := r.tag, budget := r.budget, admitAt := b.clk.cclk
    rg := r.args.zipIdx.foldl (fun t a => tabSet a.2 a.1 t) c.rg
    req := some { r with admitted := true, queued := false, need := need, share := share, pins := pins } }

/-- A refusal with TP_DENY (R154). -/
def Block.deny (b : Block) (n reason est : Nat) : Block :=
  ({ b with tp := { b.tp with denyCount := sat32 b.tp.denyCount 1 } }).endQueued n Codes.tpDeny (est * 256 + reason)

/-- Test the request of a context (R146, R153, R154, R160): accept, queue or refuse it. -/
def Block.testRequest (b : Block) (n : Nat) : Block :=
  let c := b.ctx n
  match c.req with
  | none => b
  | some r =>
    if r.admitted then b
    else if c.state = .free ∨ c.freeing then b.endQueued n Codes.badContext 0
    else
      match b.admission n r with
      | .accept v est => b.admitReq n r v est
      | .refuse code => b.endQueued n code 0
      | .deny reason est may =>
        if !may ∨ !r.queue then b.deny n reason est
        else
          let m := coachman n
          let q := tabGet [] m b.tp.queues
          let b := { b with tp := { b.tp with queues := if q.contains n then b.tp.queues else tabSet m (q ++ [n]) b.tp.queues } }
          let b := b.modCtx n fun c => { c with req := some { r with
            queued := true, reason := reason, est := est, arrival := if r.queued then r.arrival else b.clk.cclk } }
          if r.queued ∨ !r.ackQueued then b else (b.ctxReply n 5 Codes.tpQueued false false 0 reason []).1

/-- ROUTE_ADMISSION (R153): a request that has reached its coachman is tested for the first time. -/
def execRouteAdmission (ctx : Nat) (s : State) : Host.Outcome State Fault Refusal :=
  s.run fun b =>
    match (b.ctx ctx).req with
    | some r => if r.admitted ∨ r.queued ∨ r.finish.isSome then b else b.testRequest ctx
    | none => b

/-- QUEUE_RETEST (R160): the coachman tests its queued requests again, in order of arrival. -/
def execQueueRetest (cm : Nat) (s : State) : Host.Outcome State Fault Refusal :=
  s.run fun b => (tabGet [] cm b.tp.queues).foldl Block.testRequest b

/-- QUEUE_TIMEOUT (R161): AUX carries the estimate of the last test, zero where that did not come to test 7 (R154). -/
def execQueueTimeout (ctx : Nat) (s : State) : Host.Outcome State Fault Refusal :=
  s.run fun b =>
    match (b.ctx ctx).req with
    | some r =>
      if r.queued ∧ !r.admitted ∧ r.finish.isNone ∧ r.arrival + b.tp.queueLimit.toNat * 1024 < b.clk.cclk then b.deny ctx 0xC r.est else b
    | none => b

/-! ### Swapping (R170 to R174) -/

/-- A context needs pages (R170): swapped and admitted or running, or with RECOMPUTE in an admitted request that may go on. -/
def Ctx.needsPages (c : Ctx) : Bool :=
  (c.state == .swapped && (c.prev == .admitted || c.prev == .running)) ||
  (c.recompute && c.state != .blocked && (match c.req with
    | some r => r.admitted && r.ending.isNone
    | none => false))

/-- Pages that a needing context would take: its image's frames, or those of its token log. -/
def Block.pagesNeeded (b : Block) (n : Nat) : Nat :=
  let c := b.ctx n
  match c.swap with
  | .held fs _ => natSum (fs.map fun f => f.pages.length)
  | _ => (b.replayCost n).2

/-- Free pages of the context pool. -/
def Block.freePoolCount (b : Block) : Nat :=
  natSum ((List.range 4).map fun q =>
    (b.poolPages true q - (b.usedPages true q).length) + (b.poolPages false q - (b.usedPages false q).length))

/-- A step of the context stands committed but for pages that its lists wait for (R170). -/
def Ctx.stepWaitsPage (c : Ctx) : Bool := c.state == .running && !c.replyWait && match c.step with
  | some st => decide (st.tasks = 0) && st.wait == .task && st.result.isSome
  | none => false

/-- A coachman lacks pages for a context of its own that needs them. -/
def Block.short (b : Block) (m : Nat) : Bool :=
  let free := b.freePoolCount
  b.ctxs.any fun c => coachman c.1 == m && !c.2.freeing &&
    ((c.2.needsPages && decide (free < b.pagesNeeded c.1)) || (c.2.stepWaitsPage && free == 0))

/-- Frames of a context that it does not share (R171, R426). -/
def Block.ownFrames (b : Block) (n : Nat) : List (BlockEnt × Frame) :=
  (b.ctx n).blocks.filterMap fun e => match b.frame e.frame with
    | some f => if e.sharedRef ∨ 1 < f.refs then none else some (e, f)
    | none => none

/-- Bytes of a swap image (R171): 17 bytes for 32 elements of 8 or of 16 bits, and a header of 4,096. -/
def imageBytes (fs : List Frame) : Nat :=
  let narrow := natSum ((fs.filter fun f => !f.wide).map (·.bytes))
  let wide := natSum ((fs.filter fun f => f.wide).map (·.bytes))
  4096 + ceilDiv (17 * narrow) 32 + ceilDiv (17 * wide) 64

/-- The next victim of a coachman (R170): IDLE and HALTED contexts, then BLOCKED ones, the lowest PROG_SEQ first. -/
def Block.swapVictim (b : Block) (m : Nat) : Option Nat :=
  let rank := fun (c : Ctx) => if c.state = .idle ∨ c.state = .halted then some 0 else if c.state = .blocked then some 1 else none
  let cands := b.ctxs.filterMap fun c =>
    if coachman c.1 = m ∧ !c.2.freeing ∧ c.2.swap = .none ∧ !(b.ownFrames c.1).isEmpty then (rank c.2).map fun k => (k, c.2.progSeq, c.1) else none
  ((sortBy (fun (x y : Nat × Nat × Nat) => decide (x.1 < y.1) || (x.1 == y.1 && (decide (x.2.1 < y.2.1) ||
    (x.2.1 == y.2.1 && decide (x.2.2 ≤ y.2.2))))) cands).head?).map (·.2.2)

/-- Slots of the coach house (R513). -/
def coachHouse : Nat := 976562500

/-- A tenant's coach house budget on this module takes an image of `slots` (R170, R514). -/
def Block.budgetTakes (b : Block) (t slots : Nat) : Bool :=
  decide (slots * 4096 ≤ (b.ten t).chBudget) && decide (b.sb.chUsed + imageSpan slots ≤ coachHouse) && !b.sb.readOnly

/-- Spend the budget and the slots for an image. -/
def Block.takeImage (b : Block) (t slots : Nat) : Block :=
  ({ b with sb := { b.sb with chUsed := b.sb.chUsed + imageSpan slots } }).modTen t fun e => { e with chBudget := e.chBudget - slots * 4096 }

/-- Drop a context's blocks for recompute (R170). -/
def Block.dropVictim (b : Block) (n : Nat) : Block :=
  ({ b with tp := { b.tp with dropCount := sat32 b.tp.dropCount 1 } }).dropBlocks n

/-- Begin a swap-out, or drop where the budget does not take the image. -/
def Block.beginSwap (b : Block) (n : Nat) : Block :=
  let t := (b.ctx n).tenant
  let bytes := imageBytes ((b.ownFrames n).map (·.2))
  if b.budgetTakes t (imageSlots bytes) then
    (b.takeImage t (imageSlots bytes)).modCtx n fun c => { c with swap := .out bytes }
  else b.dropVictim n

/-- A team commit of this context's swapping waits for its decision or its cycle. -/
def Block.swapCommitting (b : Block) (n : Nat) : Bool :=
  b.cb.commits.any fun c => c.msg.coordinator == b.position && match c.msg.body with
    | .swapOut k _ => k == n
    | .swapStep k _ => k == n
    | _ => false

/-- SWAP_OUT (R170, R174): the coachman takes one victim. On a team its slices follow by a team commit, a drop where any member
lacks the budget. Steps that waited for a page try again. -/
def execSwapOut (cm : Nat) (s : State) : Host.Outcome State Fault Refusal :=
  s.run fun b =>
    if !b.short cm then b
    else
      match b.swapVictim cm with
      | none => b
      | some n =>
        if b.slicedCtx n then
          let t := (b.ctx n).tenant
          let fits := b.budgetTakes t (imageSlots (imageBytes ((b.ownFrames n).map (·.2))))
          if b.swapCommitting n then b
          else b.startCommit (.swapOut n !fits) true
        else (b.beginSwap n).retrySteps

/-- SWAP_OUT_COMPLETE (R145, R170, R173): the image is written; the frames go, their pages stay counted (R488). -/
def execSwapOutComplete (ctx : Nat) (s : State) : Host.Outcome State Fault Refusal :=
  s.run fun b =>
    let c := b.ctx ctx
    match c.swap with
    | .out bytes =>
      if !(c.state = .idle ∨ c.state = .blocked ∨ c.state = .halted) ∨ c.freeing then b.abandonSwap ctx
      else
        let own := b.ownFrames ctx
        let b := b.unrefAll (own.map (·.1))
        let b := b.modCtx ctx fun c => { c with
          prev := c.state, state := .swapped, swap := .held (own.map (·.2)) bytes
          swapPages := natSum (own.map fun f => f.2.pages.length)
          blocks := c.blocks.filter fun e => !own.any fun f => f.1 == e }
        (({ b with tp := { b.tp with swapOutCount := sat32 b.tp.swapOutCount 1 } }).swapCommit ctx .written).retrySteps
    | _ => b

/-- New pages for the frames of an image. -/
def Block.takeFrames (b : Block) (t m : Nat) : List Frame → Option (Block × List Frame)
  | [] => some (b, [])
  | f :: fs =>
    match b.takePages t m f.pages.length with
    | none => none
    | some (b, ps) => (b.takeFrames t m fs).map fun r => (r.1, { f with pages := ps } :: r.2)

/-- The needing context of a coachman that is served first (R170): the earliest ADMIT. -/
def Block.firstNeed (b : Block) (m : Nat) : Option Nat :=
  let waiting := fun (c : Ctx) => match c.swap with
    | .inn _ _ => false
    | _ => true
  ((sortBy (fun (x y : Nat × Ctx) => decide (x.2.admitAt < y.2.admitAt) || (x.2.admitAt == y.2.admitAt && decide (x.1 ≤ y.1)))
    (b.ctxs.filter fun c => coachman c.1 == m && c.2.needsPages && waiting c.2 && !c.2.freeing)).head?).map (·.1)

/-- The replay of a token log (R172): PREFILL over it, its keys and values computed again; LAST_CODE becomes RECOMPUTED, which
END carries as a qualified code. -/
def Block.replay (b : Block) (n : Nat) : Block :=
  let c := b.ctx n
  match b.generator c.tenant c.gen with
  | none => b.stopReq n Codes.noObject
  | some g =>
    let kv := (List.range c.kvLen).map fun i => (⟨Config.replayKv c.gen i, Config.replayDots c.gen i⟩ : KvToken)
    let clean := b.modCtx n fun c => { c with kvLen := 0, tokenLog := [] }
    match clean.prefillWrite n g c.gen c.tokenLog kv with
    | (.wait, _) => b
    | (.fail e, _) => b.stopReq n e
    | (.done b, chain) =>
      let skip := 64 * chain.length
      let b := b.storeCommit n { tokens := c.tokenLog, next := c.nextRec.getD [], gen := c.gen, chain := some chain }
      let cost := g.pcFix + g.pcTok * (c.kvLen - skip) + g.pcBlk * ceilDiv c.kvLen 64 * ceilDiv (c.kvLen - skip) 64
      ((b.taskDone n cost).sliceDecision n).modCtx n fun x => { x with
        nextRec := c.nextRec, recompute := false, lastCode := Codes.recomputed
        req := x.req.map fun r => { r with qualified := some Codes.recomputed } }

/-- Begin to read an image back: pages for its frames. -/
def Block.beginSwapIn (b : Block) (n : Nat) : Block :=
  match (b.ctx n).swap with
  | .held fs bytes =>
    match b.takeFrames (b.ctx n).tenant (coachman n) fs with
    | none => b
    | some (b, fs) => b.modCtx n fun c => { c with swap := .inn fs bytes, swapPages := 0 }
  | _ => b

/-- SWAP_IN (R170, R172, R174): the first needing context gets its pages: its image begins to be read back, on a team by a commit that
every member has room for, or its log is replayed. -/
def execSwapIn (ctx : Nat) (s : State) : Host.Outcome State Fault Refusal :=
  s.run fun b =>
    let m := coachman ctx
    let c := b.ctx ctx
    if b.firstNeed m ≠ some ctx then b
    else
      match c.swap with
      | .held _ _ =>
        if !b.slicedCtx ctx then b.beginSwapIn ctx
        else if b.swapCommitting ctx then b
        else b.startCommit (.swapStep ctx .start) true
      | _ => if c.state = .admitted ∨ c.state = .running then b.replay ctx else b

/-- A frame of an image at its new place, its values rounded by the packing (R171). -/
def Frame.unpacked (f : Frame) : Frame :=
  { f with slots := f.slots.map fun s => { s with kv := Config.mxRound f.wide s.kv } }

/-- Put a frame of an image back at its new place. -/
def Block.placeFrame (b : Block) (n : Nat) (f : Frame) : Block :=
  let at_ := f.pages.headD 0 * 1024
  let f := f.unpacked
  let pos := fun (e : BlockEnt) => ((b.frame e.frame).map fun (x : Frame) => x.firstPos).getD 0
  let b := { b with store := { b.store with frames := tabSet at_ f b.store.frames } }
  b.modCtx n fun c =>
    let old := c.blocks.map fun (e : BlockEnt) => (pos e, e)
    { c with blocks := (insertBy (fun (x y : Nat × BlockEnt) => decide (x.1 ≤ y.1)) (f.firstPos, ⟨false, at_⟩) old).map (·.2) }

/-- SWAP_IN_COMPLETE (R145, R171, R513, R514): the values carry MXFP4 rounding; an image that is lost leaves the context to
RECOMPUTE. The swap-in of a context that is being freed has stopped (R173). -/
def execSwapInComplete (ctx : Nat) (lost : Bool) (s : State) : Host.Outcome State Fault Refusal :=
  s.run fun b =>
    let c := b.ctx ctx
    match c.swap with
    | .inn fs _ => if c.freeing then b else
      let back := fun (c : Ctx) => { c with state := if c.state = .swapped then c.prev else c.state, prev := .free }
      if lost then
        let b := (b.dropImage ctx).log 0x09 2 Codes.sbLost none (some c.tenant) ctx
        ((b.dropBlocks ctx).modCtx ctx back).swapCommit ctx .lost
      else
        let b := { b with tp := { b.tp with swapInCount := sat32 b.tp.swapInCount 1 } }
        -- the image goes, the frames stay
        let b := (b.modCtx ctx fun c => { c with swap := .held [] (match c.swap with
          | .inn _ x => x
          | _ => 0) }).dropImage ctx
        ((fs.foldl (fun (b : Block) f => b.placeFrame ctx f) b).modCtx ctx back).swapCommit ctx .back
    | _ => b

end Sys2Proof.Machine
end

