-- ==== Sys2Proof/Machine/Works.lean ====
section
/-!
DEFINITION. Machine/Works.lean: work that other modules ask for (R298 to R300, R450): access, its tile task, its searches, walks and
record reads, and its answer.
-/
namespace Sys2Proof.Machine

/-! ### Work begins (R298, R299) -/

/-- The tenant that work is for (R299, R577, R588): of that number in the team, of that DTID in a domain, and ON. -/
def Block.workTenant (b : Block) (domain : Bool) (m : WorkMsg) : Option Nat :=
  if domain then (b.tenants.find? fun t => t.2.state == .on && t.2.dtid == m.dtid && m.dtid != 0).map (·.1)
  else if (b.ten m.tenant).state = .on then some m.tenant
  else none

/-- The pin of the asking request on a shard here (R281). -/
def Block.remotePin (b : Block) (m : WorkMsg) (shard : Nat) : Option Nat :=
  (b.ske.remote.find? fun r => r.1 == m.module && r.2.1 == m.ctx && r.2.2.1 == shard).map fun r => r.2.2.2

/-- Access, comparison and pin of work on a shard (R281, R283, R286): the shard and the request's epoch. `prep` says that the work is of
a preparation, which keeps a shard that it holds (R340). -/
def Block.workShard (b : Block) (t : Nat) (m : WorkMsg) (shard : Nat) (prep : Bool) (q : Option (QueryVec × Bool)) :
    Except Code (Block × Shard × Nat) :=
  let pin := b.remotePin m shard
  match b.shardRefusal t shard (prep && pin.isSome), b.shard? shard with
  | some e, _ => .error e
  | none, none => .error Codes.shardAccess
  | none, some x =>
    let same : Bool := match q with
      | some (q, true) => x.matches q
      | some (q, false) => x.dim == q.dim && x.fmt == q.fmt
      | none => true
    if !same then .error Codes.vectorMismatch
    else
      let e := match pin, m.pin with
        | some e, _ => e
        | none, some e => e
        | none, none => x.epoch
      let b := if pin.isSome then b
        else { b with ske := { b.ske with remote := b.ske.remote ++ [(m.module, m.ctx, shard, e)] } }
      .ok (b, x, e)

/-- The number that stands for work in tile tasks and queries: beyond every context's, with the request's coachman (R299). -/
def workNumber (k cm : Nat) : Nat := 131072 * (1 + k) + 16384 * cm

/-- Work on a shard begins: its GENERAL tile task by the firmware kernel of step `op`, dispatched as if admitted now (R298, R299). -/
def Block.workStart (b : Block) (domain : Bool) (dest t : Nat) (m : WorkMsg) (op : Nat) (run : SearchRun) : Block × Nat :=
  let n := workNumber b.ske.nextWork (m.coachman % 8)
  let w : WorkRun :=
    { domain := domain, dest := dest, msg := m, tenant := t, since := b.clk.cclk, tasks := 1, run := run, records := [], pages := []
      fetching := [], result := none }
  (({ b with ske := { b.ske with works := tabSet n w b.ske.works, nextWork := b.ske.nextWork + 1 } }).newTask n false 0 op 0, n)

/-! ### Its course (R295, R296, R299) -/

/-- Hops of a walk for another module, one after the other as their records are here. -/
def Block.walkDrive (b : Block) (n : Nat) : Nat → Block
  | 0 => b
  | fuel + 1 =>
    match b.search? n with
    | none => b
    | some run =>
      match run.walks.head? with
      | none => b
      | some w =>
        match b.shard? w.shard with
        | none => b.searchFail n Codes.shardAccess
        | some x =>
          match (if w.done then b.walkOn n x run w else b.hop n x run w) with
          | none => b
          | some b' =>
            match b'.search? n with
            | none => b'
            | some run' => if (run'.walks.head?).map (·.hops) = some w.hops then b' else b'.walkDrive n fuel

/-- The records that a preparation asked for are here: they are the answer (R340). -/
def Block.recordsCheck (b : Block) (n : Nat) (w : WorkRun) (ids : List Nat) : Block :=
  let c := b.cacheOf n
  let here := ids.filterMap fun id => (c.records.lookup id).map fun r => (id, r)
  if here.length = ids.length then b.workResult n { b.resultOf w.msg Codes.ok with records := here }
  else
    match b.fetchRecords n ((b.unfetched n ids).filterMap fun id => (b.shard? (idShard id)).map fun x => (x, id)) with
    | .ok b =>
      let c := b.cacheOf n
      let here := ids.filterMap fun id => (c.records.lookup id).map fun r => (id, r)
      if here.length = ids.length then b.workResult n { b.resultOf w.msg Codes.ok with records := here } else b
    | .wait => b
    | .fail e => b.searchFail n e

/-- Work goes on: after a record has come, or when a page may be free. -/
def Block.driveWork (b : Block) (n : Nat) : Block :=
  match b.work? n with
  | none => b
  | some w =>
    if w.result.isSome then b
    else
      match w.msg.body with
      | .scan _ _ _ _ _ _ _ => b.scanRound n [] 1
      | .walk _ _ _ _ _ _ hops _ => b.walkDrive n (hops + 2)
      | .records _ ids => b.recordsCheck n w ids
      | _ => b

/-- Every work that waits goes on. -/
def Block.driveWorks (b : Block) : Block := b.ske.works.foldl (fun (b : Block) w => b.driveWork w.1) b

/-! ### What each kind of work does -/

/-- SCAN's part on a shard (R292, R301): its queries join the shard's engine (R289). -/
def Block.serveScan (b : Block) (n : Nat) (x : Shard) (e shard setIdx : Nat) (parts : List Nat) : Block :=
  let ps := (parts.filter fun p => decide (p < x.parts)).zipIdx.map fun p => (p.2, p.1)
  let q := { ShardQuery.new setIdx shard none e with pending := ps, done := ps.isEmpty }
  ((b.modSearch n fun s => { s with queries := [q] }).queueQueries n q).driveWork n

/-- WALK's part on a shard (R295 to R297). -/
def Block.serveWalk (b : Block) (n : Nat) (x : Shard) (e shard setIdx : Nat) (seeds : List Nat) : Block :=
  match b.search? n with
  | none => b
  | some run =>
    let w := b.seedWalk x run (.new setIdx shard none e) seeds
    let b := b.modSearch n fun s => { s with walks := [w] }
    match b.walkOn n x run w with
    | some b => b.driveWork n
    | none => b

/-- Tails asked for by RERANK or PACK (R340, R341): those visible at the request's epoch, with BIRTH and DEATH. -/
def Block.seenTails (b : Block) (x : Shard) (e : Nat) (ids : List Nat) : List (Nat × Nat × Nat) :=
  ids.filterMap fun id => (b.locator x (idIndex id)).bind fun l =>
    let t := b.tail x l.1
    if t.visible e then some (id, t.birth, t.death) else none

/-- Forwarded table work joins the queue of the unit that serves the table here, as GENERAL (R449, R450). -/
def Block.serveTable (b : Block) (domain : Bool) (dest t : Nat) (m : WorkMsg) (obj op : Nat) : Block :=
  match if b.kindGone 6 4 then .error Codes.unitFenced else b.stepTable t obj with
  | .error e =>
    if op = 2 then b.updateFail 0 (laneCmd t 0) e else b.answerWork domain dest { b.resultOf m e with gather := true }
  | .ok tb =>
    let q := b.servedBy tb
    b.arrive { laneCmd t tb.addr with
      quarter := q, bytes := fitBytes 64 (le 8 op ++ le 8 tb.addr), forwarded := some ⟨domain, dest, m⟩ }

/-- A WORK message runs on the owning module (R298 to R300, R567, R577): refused from another firmware version and while the
module is not READY. -/
def Block.serveWork (b : Block) (domain : Bool) (dest : Nat) (m : WorkMsg) : Block :=
  let table : Bool := match m.body with
    | .lookup _ _ | .update _ _ _ => true
    | _ => false
  let reply := fun (b : Block) (code : Code) => b.answerWork domain dest { b.resultOf m code with gather := table }
  -- work on a shard: access and the request's pin, then its tile task, whose answer carries the pinned epoch
  let on := fun (t shard op : Nat) (prep : Bool) (q : Option (QueryVec × Bool)) (run : SearchRun) (f : Block → Nat → Shard → Nat → Block) =>
    match b.workShard t m shard prep q with
    | .error c => reply b c
    | .ok (b, x, e) =>
      let r := b.workStart domain dest t { m with pin := some e } op run
      f r.1 r.2 x e
  match m.body with
  | .drop shard =>
    let mine := b.ske.works.filter fun w => w.2.msg.module == m.module && w.2.msg.ctx == m.ctx && w.2.msg.body.shard == some shard
    let b := mine.foldl (fun (b : Block) w => b.dropWork w.1) b
    { b with ske := { b.ske with remote := b.ske.remote.filter fun r => !(r.1 == m.module && r.2.1 == m.ctx && r.2.2.1 == shard) } }
  | body =>
    if m.version ≠ b.sec.svn ∨ b.clk.stage ≠ .ready then reply b (if table then Codes.teamLost else Codes.shardUnreachable)
    else
      match b.workTenant domain m with
      | none => reply b Codes.shardAccess
      | some t =>
        match body with
        | .scan shard parts vector mask any k reference =>
          let q := queryOf vector
          if b.searchGone then reply b Codes.unitFenced
          else on t shard 6 false (some (q, true)) { SearchRun.new q with mask := mask, any := any, k := k, reference := reference }
            fun b n x e => b.serveScan n x e shard m.setIdx parts
        | .walk shard seeds vector mask any width hops prefetch =>
          let q := queryOf vector
          if b.kindGone 5 4 then reply b Codes.unitFenced
          else on t shard 7 false (some (q, true))
            { SearchRun.new q with mask := mask, any := any, k := width, maxHops := hops, prefetch := prefetch }
            fun b n x e => b.serveWalk n x e shard m.setIdx seeds
        | .probe shard vector =>
          let q := queryOf vector
          on t shard 5 false (some (q, true)) (SearchRun.new q) fun b n x e =>
            b.workResult n { b.resultOf { m with pin := some e } Codes.ok with ids := List.range x.parts, scores := b.probeShard x q.vec }
        | .tails shard ids vector =>
          let q := queryOf vector
          on t shard 8 true (if vector.isEmpty then none else some (q, false)) (SearchRun.new q) fun b n x e =>
            let ts := b.seenTails x e ids
            b.workResult n { b.resultOf { m with pin := some e } Codes.ok with
              ids := ts.map (·.1), tails := ts.map (·.2), scores := ts.map fun _ => 0, deaths := ts.map fun y => y.2.2 != noEpoch }
        | .records shard _ =>
          on t shard 8 true none (SearchRun.new ⟨0, 0, 0, [], []⟩) fun b n _ _ => b.driveWork n
        | .lookup obj _ => b.serveTable domain dest t m obj 1
        | .update obj _ _ => b.serveTable domain dest t m obj 2
        | .drop _ => b

/-- The works of a module that has gone are given up, with the pins of its requests (R300). -/
def Block.dropModule (b : Block) (module : Nat) : Block :=
  let b := (b.ske.works.filter fun w => w.2.msg.module == module).foldl (fun (b : Block) w => b.dropWork w.1) b
  { b with ske := { b.ske with remote := b.ske.remote.filter fun r => r.1 != module } }

/-- A record that was read from the strongbox comes to what asked for it (R269, R274, R299), which goes on. -/
def Block.recordRead (b : Block) (n id : Nat) (bytes : List Byte) : Block :=
  let b := b.recordCame n id bytes
  match b.work? n with
  | some _ => b.driveWork n
  | none => b.stepRecord n

/-- A record of a passage is lost (R507): the work, or the step that needs it, ends with SB_LOST. -/
def Block.recordLost (b : Block) (n id : Nat) : Block :=
  let c := b.cacheOf n
  let b := b.setCache n { c with fetching := c.fetching.erase id }
  match b.search? n with
  | none => b
  | some run =>
    let needs := (b.work? n).isSome || run.walks.any (fun w => w.seen.contains id) ||
      run.queries.any (fun q => q.survivors.any fun v => v.cand.id == id) || (run.fetching && (b.prepNeeds n run).contains id)
    if needs then b.searchFail n Codes.sbLost else b

end Sys2Proof.Machine
end

