-- ==== Sys2Proof/Machine/Link.lean ====
section
/-!
DEFINITION. Machine/Link.lean: the team ports (R545 to R556): words, acknowledgement, replay, relay paths, training; collective
and remote memory flits; team commits (R559); the loss of a member (R568 to R572).
-/
namespace Sys2Proof.Machine

/-! ### Replay (R553, R554) -/

/-- Send again from the flit `seq` on (R553). -/
def Block.replayFrom (b : Block) (port seq : Nat) : Block :=
  let p := b.port port
  match p.replay.findIdx? fun f => f.word.seq == seq with
  | none => b
  | some i =>
    let again := fun (f : SentFlit) => { f with
      word := { f.word with cycle := b.cb.linkCycle % 65536 }.sealed, cycle := b.cb.linkCycle }
    let b := b.modPort port fun p => { p with replay := p.replay.take i ++ (p.replay.drop i).map again }
    let b := { b with cb := { b.cb with replayCount := sat32 b.cb.replayCount 1 } }
    ((b.port port).replay.drop i).foldl (fun (b : Block) f => b.cbEmit (.word port f.word)) b

/-- A port goes DOWN (R553, R554): its flits not acknowledged are sent again over the relay path. -/
def Block.portDown (b : Block) (port : Nat) : Block :=
  let p := b.port port
  if p.state ≠ .up then b
  else
    let again := p.replay.map (·.word) ++ p.sendQ
    let b := b.modPort port fun p => { p with
      state := .down, downSince := b.cb.linkCycle, replay := [], sendQ := [], nakRun := 0, cycleFail := 0 }
    let b := b.log 0x08 1 Codes.ok (some ⟨13, port⟩) none ((p.partner).getD 0)
    let q := (partnerOf b.position port).1
    let path := b.pathTo q
    let b := b.modPort port fun p => { p with relaying := path.isSome }
    (again.foldl (fun (b : Block) w => b.sendFlits w.dst [w]) b).notePaths

/-! ### Receiving (R549, R552) -/

/-- The checks of R552: CRC, CYCLE and TYPE. -/
def Block.wordOk (b : Block) (w : LinkWord) : Bool :=
  w.crcOk && decide (w.type < 10) && w.cycle == (b.cb.linkCycle + 65536 * 64 - b.cb.l) % 65536

/-- A NAK for a flit (R553): replay, or DOWN after CB_RETRY_LIMIT in a row for one SEQ. -/
def Block.nakAt (b : Block) (port seq : Nat) : Block :=
  let p := b.port port
  if p.state ≠ .up then b
  else
    let run := if p.nakSeq = seq then p.nakRun + 1 else 1
    let b := b.modPort port fun p => { p with nakRun := run, nakSeq := seq }
    if b.cb.retryLimit ≤ run then b.portDown port else b.replayFrom port seq

/-- The trailer of a valid word (R549, R550, R553): credits, ACK or NAK. -/
def Block.trailer (b : Block) (port : Nat) (w : LinkWord) : Block :=
  let b := b.modPort port fun p => { p with
    credits := min 512 (p.credits + w.credit), lastValid := b.cb.linkCycle, cycleFail := 0 }
  if w.ack = 1 then
    match (b.port port).replay.findIdx? fun f => f.word.seq == w.ackSeq with
    | some i =>
      let b := b.modPort port fun p => { p with replay := p.replay.drop (i + 1), nakRun := 0 }
      b.pump port ((b.port port).sendQ.length)
    | none => b.modPort port fun p => { p with nakRun := 0 }
  else if w.ack = 2 then b.nakAt port w.ackSeq
  else b

/-- A failed word (R552, R553): NAK with the expected SEQ; 8 failed CYCLE checks in a row take the port DOWN. -/
def Block.failWord (b : Block) (port : Nat) (w : LinkWord) : Block :=
  let p := b.port port
  let bad := w.cycle != (b.cb.linkCycle + 65536 * 64 - b.cb.l) % 65536
  let n := if bad then p.cycleFail + 1 else 0
  let b := { b with cb := { b.cb with flitErr := sat32 b.cb.flitErr 1 } }
  let b := (b.modPort port fun p => { p with cycleFail := n }).cbEmit (.ackDecision port 2 p.rxSeq 0)
  if 8 ≤ n then b.portDown port else b

/-- A relayed flit that this module holds already (R554). -/
def Cb.holdsFlit (c : Cb) (w : LinkWord) : Bool := w.relay && c.recent.contains w.key

/-- A flit is taken. What a sender can send again is at most its replay buffer of 2L + 2 flits (R553): so many are remembered of each
position (DESIGN CHOICE, assumption 128). -/
def Block.noteFlit (b : Block) (w : LinkWord) : Block :=
  let mine := (w.key :: b.cb.recent.filter fun k => k.head? == some w.src).take (2 * b.cb.l + 2)
  { b with cb := { b.cb with recent := mine ++ b.cb.recent.filter fun k => k.head? != some w.src } }

/-- A word of a row's TYPE arrives on an UP port: it fails its checks, or its trailer acts; a flit is answered ACK when its SEQ is
the expected one and then taken by `f`, or forwarded when it is for another position; one with another SEQ is discarded and
answered NONE (R552, R554). The flit's buffer entry is returned with the answer (R550). -/
def Block.recvWord (b : Block) (port ty : Nat) (w : LinkWord) (f : Block → Block) : Block :=
  if !b.portUp port ∨ !b.cb.lockstep then b
  else if !b.wordOk w then b.failWord port w
  else if w.type ≠ ty then b
  else
    let exp := (b.port port).rxSeq
    let b := b.trailer port w
    if w.type ≤ 1 then f (b.cbEmit (.ackDecision port 0 0 0))
    else if w.seq ≠ exp then b.cbEmit (.ackDecision port 0 0 0)
    else
      let b := (b.modPort port fun p => { p with rxSeq := (exp + 1) % 256 }).cbEmit (.ackDecision port 1 w.seq 1)
      if w.dst = b.position then (if b.cb.holdsFlit w then b else f (b.noteFlit w))
      else
        let b := { b with cb := { b.cb with relayCount := sat32 b.cb.relayCount 1 } }
        match b.pathTo w.dst with
        | some (out, _) => b.queueFlits out [{ w with relay := true }] true
        | none => b

/-- IDLE (R550, R552, R555): the trailer alone acts, and the partner's REF_HOPS are noted. -/
def execIdleWord (port : Nat) (w : LinkWord) (refHops : Nat) (s : State) : Host.Outcome State Fault Refusal :=
  s.run fun b => b.recvWord port 0 w fun b => b.modPort port fun p => { p with refHops := min 3 refHops }

/-- FAILED_WORD (R552). -/
def execFailedWord (port : Nat) (w : LinkWord) (s : State) : Host.Outcome State Fault Refusal :=
  s.run fun b => if !b.portUp port ∨ !b.cb.lockstep ∨ b.wordOk w then b else b.failWord port w

/-- COLL (R561, R563): a flit of another member's contribution; `key` holds the fields of the sender's descriptor. A flit held
already is discarded (R554). -/
def execColl (port : Nat) (w : LinkWord) (key : List (BitVec 8)) (s : State) : Host.Outcome State Fault Refusal :=
  s.run fun b => b.recvWord port 2 w fun b =>
    let c := (b.coll? w.id (descMembers key)).getD (Coll.new w.id (descMembers key))
    let k := partKey w.src w.offset
    if (tabFind? k c.parts).isSome then b
    else b.setColl { c with
      parts := tabSet k w.payload c.parts, keys := if c.keys.contains (descKey key) then c.keys else c.keys ++ [descKey key] }

/-! ### Remote memory (R466, R566) -/

/-- The place that bits [48:0] name, when bits [51:49] name this module and the regions of R464 hold it. -/
def Block.remotePlace (b : Block) (addr n : Nat) : Option Nat :=
  let a := addr % 2 ^ 49
  let inside := fun (lo hi : Nat) => decide (lo ≤ a) && decide (a + n ≤ hi + 1)
  if bits addr 51 49 ≠ b.position then none
  else if inside 0x0100_0000_0000 0x0147_FFFF_FFFF || inside 0x0200_0000_0000 0x043F_FFFF_FFFF ||
      inside 0x1000_0000_0000 0x13FF_FFFF_FFFF || (inside 0 0x7FFF_FFFF && decide (a % 0x40_0000 + n ≤ 0x30_0000)) then some a
  else none

/-- MEM_RD (R464, R466, R566): `units` of 64 bytes from `addr` go back to the module that asked; an access that fails is answered
without bytes and logged. -/
def execMemRd (port : Nat) (w : LinkWord) (addr units : Nat) (s : State) : Host.Outcome State Fault Refusal :=
  s.run fun b => b.recvWord port 3 w fun b =>
    match b.remotePlace addr (64 * units) with
    | some a => b.cbEmit (.memRsp w.src w.id ((List.range (64 * units)).map fun i => b.byteAt (a + i)) (b.poisoned a (64 * units)))
    | none => (b.cbEmit (.memRsp w.src w.id [] false)).log 0x08 1 Codes.xlateFault none none addr

/-- MEM_WR (R466, R566). -/
def execMemWr (port : Nat) (w : LinkWord) (addr : Nat) (data : List (BitVec 8)) (s : State) : Host.Outcome State Fault Refusal :=
  s.run fun b => b.recvWord port 4 w fun b =>
    match b.remotePlace addr data.length with
    | some a => b.writeMem a data
    | none => b.log 0x08 1 Codes.xlateFault none none addr

/-- MEM_RSP (R466, R566): the firmware that asked has its bytes. -/
def execMemRsp (port : Nat) (w : LinkWord) (data : List (BitVec 8)) (s : State) : Host.Outcome State Fault Refusal :=
  s.run fun b => b.recvWord port 5 w fun b => { b with cb := { b.cb with memRsps := tabSet w.id data b.cb.memRsps } }

/-! ### Replay, DOWN, retraining (R553) -/

/-- NAK (R553). -/
def execNak (port seq : Nat) (s : State) : Host.Outcome State Fault Refusal := s.run fun b => b.nakAt port seq

/-- REPLAY_TIMEOUT (R553): the oldest flit unanswered for 2L + 1 link cycles, and all after it. -/
def execReplayTimeout (port : Nat) (s : State) : Host.Outcome State Fault Refusal :=
  s.run fun b =>
    match (b.port port).replay with
    | f :: _ => if b.portUp port ∧ f.cycle + 2 * b.cb.l + 1 ≤ b.cb.linkCycle then b.replayFrom port f.word.seq else b
    | [] => b

/-- PORT_DOWN (R553): no valid word for 64 link cycles. -/
def execPortDown (port : Nat) (s : State) : Host.Outcome State Fault Refusal :=
  s.run fun b =>
    if b.cb.lockstep ∧ b.portUp port ∧ (b.port port).lastValid + 64 ≤ b.cb.linkCycle then b.portDown port else b

/-- A trained port starts its sequence numbers and credits afresh. -/
def Port.fresh (p : Port) (cycle : Nat) : Port :=
  { p with state := .up, relaying := false, txSeq := 0, rxSeq := 0, credits := 512, replay := [], nakRun := 0, cycleFail := 0
           lastValid := cycle }

/-- PORT_RETRAIN (R551, R553): a DOWN port retrains every 65,536 link cycles; `ok` and `latency` say how. -/
def execPortRetrain (port : Nat) (ok : Bool) (latency : Nat) (s : State) : Host.Outcome State Fault Refusal :=
  s.run fun b =>
    let p := b.port port
    if p.state ≠ .down ∨ b.cb.linkCycle < p.downSince + 65536 then b
    else if !ok then b.modPort port fun p => { p with downSince := b.cb.linkCycle }
    else if b.cb.l < latency then b.modPort port fun p => { p with state := .misfit, latency := latency, relaying := false }
    else
      let b := b.modPort port fun p => { p.fresh b.cb.linkCycle with latency := latency }
      (b.pump port ((b.port port).sendQ.length)).notePaths

/-- TRAIN_WORD (R546, R551, R555 to R558): the partner's position, port, MODULE and REF_HOPS; at lockstep the lead's L and
expected positions, from which a member starts counting link cycles. -/
def execTrainWord (port : Nat) (t : TrainInfo) (s : State) : Host.Outcome State Fault Refusal :=
  s.run fun b =>
    let p := b.port port
    let known := b.cb.teamMods.any fun m => m.1 != t.pos && m.2 == t.module
    let miswire := fun (b : Block) (q : Nat) =>
      (b.modPort q fun x => { x with state := .miswired, partner := some t.pos }).log 0x08 1 Codes.ok (some ⟨13, q⟩) none t.pos
    let outside := match t.lockstep with
      | some (_, e) => t.pos == 0 && !bit e b.position
      | none => false
    if !b.clk.mainOn ∨ b.solo ∨ (p.state ≠ .training ∧ p.state ≠ .up) then b
    else if (t.pos, t.port) ≠ partnerOf b.position port ∨ known then miswire b port
    else if outside then (List.range 8).foldl (fun (b : Block) q => if (b.port q).state = .disabled then b else miswire b q) b
    else if 64 < t.latency ∨ (b.cb.lockstep ∧ b.cb.l < t.latency) then
      b.modPort port fun x => { x with state := .misfit, partner := some t.pos, latency := t.latency, refHops := min 3 t.refHops }
    else
      let b := b.modPort port fun x => { (if x.state = .training then x.fresh b.cb.linkCycle else x) with
        partner := some t.pos, latency := t.latency, refHops := min 3 t.refHops, lastValid := b.cb.linkCycle }
      let b := { b with cb := { b.cb with teamMods := tabSet t.pos t.module b.cb.teamMods } }
      match t.lockstep with
      | none => b
      | some (l, e) =>
        let b := if t.pos = 0 ∧ !b.cb.lockstep ∧ !b.isLead then
            { b with cb := { b.cb with
              lockstep := true, l := l, linkCycle := l, linkSub := 0, expected := BitVec.ofNat 8 e
              size := ((List.range 8).filter fun q => bit e q).length } }
          else b
        if b.cb.lockstep ∧ bit b.cb.expected.toNat t.pos then
          ({ b with cb := { b.cb with present := b.cb.present ||| BitVec.ofNat 8 (2 ^ t.pos) } }).notePaths
        else b

/-! ### Cages (R45, R46) -/

/-- CAGE_MODULE_PLUGGED (R46): more than 18 W holds the plugged module in low-power mode with its lanes disabled: its team port (cages
0 to 7) is DISABLED, its domain port (cages 8 to 11) passes nothing. A module within 18 W gets the port of such a cage trained. The
refusal is logged at severity WARNING with DATA cage × 256 + watts (DESIGN CHOICE, assumption 121). -/
def execCageModulePlugged (cage watts : Nat) (s : State) : Host.Outcome State Fault Refusal :=
  s.run fun b =>
    if b.clk.j1Up ∧ cage < 12 then
      let was := b.laneOff cage
      let low := decide (18 < watts)
      let b := { b with ost := { b.ost with cages := tabSet cage ⟨true, watts, low⟩ b.ost.cages } }
      if low then
        let b := if 8 ≤ cage then { b with cb := { b.cb with dports := tabErase (cage - 8) b.cb.dports } }
          else if (b.port cage).state = .disabled then b
          else (b.portDown cage).modPort cage fun p => { p with state := .disabled }
        b.log 0x0A 1 Codes.ok none none (cage * 256 + watts)
      else if was ∧ cage < 8 ∧ !b.solo ∧ !b.fenced 13 cage ∧ (b.clk.stage = .teamJoin ∨ b.clk.stage = .ready) then
        b.modPort cage fun p => { p with state := .training }
      else b
    else b

/-! ### Team commits (R559) -/

/-- Frames of a slice record go. -/
def Block.dropSliceFrames (b : Block) (fs : List Nat) : Block := fs.foldl Block.unrefFrame b

/-- Whole pages that the frames of a slice of `len` positions take beyond those it has. -/
def Block.sliceNeed (b : Block) (key tenant gen len : Nat) : Nat :=
  match b.generator tenant gen with
  | none => 0
  | some g =>
    let has := match tabFind? key b.store.slices with
      | some x => x.blocks.length
      | none => 0
    (ceilDiv len 64 - has) * framePages g

/-- Frames of a slice's new blocks, from block `i` on: this member's own kernels compute their bytes. -/
def Block.growSlice (b : Block) (tenant cm gen len : Nat) (g : GeneratorDecl) (i : Nat) : Nat → Block × List Nat
  | 0 => (b, [])
  | k + 1 =>
    match b.takePages tenant cm (framePages g) with
    | none => (b, [])
    | some (b, ps) =>
      let at_ := ps.headD 0 * 1024
      let slots := (List.range (min 64 (len - 64 * i))).map fun j =>
        let x := Config.sliceKv b.epoch (64 * i + j)
        ({ token := x.1, kv := x.2, dots := [] } : KvSlot)
      let f : Frame :=
        { refs := 1, tenant := tenant, adapterVer := 0, gen := gen, firstPos := 64 * i, slots := slots, pages := ps
          bytes := blockKv g, wide := kvBytes g.kvFmt == 2, row := g.kvHeads * g.headDim * kvBytes g.kvFmt }
      let b := { b.nextEpoch with store := { b.store with frames := tabSet at_ f b.store.frames } }
      let r := b.growSlice tenant cm gen len g (i + 1) k
      (r.1, at_ :: r.2)

/-- Pages of a slice that go into its swap image (R171). -/
def Block.sliceImage (b : Block) (x : Slice) : Nat :=
  imageSlots (imageBytes (x.blocks.filterMap b.frame))

def Block.setSlice (b : Block) (key : Nat) (x : Slice) : Block :=
  { b with store := { b.store with slices := tabSet key x b.store.slices } }

/-- Release a slice record with its frames and image (R409, R569). -/
def Block.dropSlice (b : Block) (key : Nat) : Block :=
  match tabFind? key b.store.slices with
  | none => b
  | some x =>
    let b := b.dropSliceFrames x.blocks
    let b := if x.coming then b.freePages (x.held.map fun f => f.pages).flatten else b
    { b with
      store := { b.store with slices := tabErase key b.store.slices }
      sb := { b.sb with chUsed := b.sb.chUsed - imageSpan x.image } }

/-- What a member does with its slice as the home module's swapping goes on (R171, R173, R174): its frames go once the image is
written; an abandoned swap-out leaves them and frees the slots; a swap-in takes pages for them, and puts them back unpacked; with
the home's image lost they are dropped for recompute. -/
def Block.swapSlice (b : Block) (key : Nat) (st : SwapStep) : Block :=
  match tabFind? key b.store.slices with
  | none => b
  | some x =>
    let free := fun (b : Block) => { b with sb := { b.sb with chUsed := b.sb.chUsed - imageSpan x.image } }
    match st with
    | .written =>
      (b.dropSliceFrames x.blocks).setSlice key { x with blocks := [], held := x.blocks.filterMap b.frame }
    | .kept => (free b).setSlice key { x with image := 0 }
    | .start =>
      match b.takeFrames x.tenant (coachman (key % 131072)) x.held with
      | some (b, fs) => b.setSlice key { x with held := fs, coming := true }
      | none => b
    | .back =>
      let place := fun (f : Frame) => f.pages.headD 0 * 1024
      let b := x.held.foldl (fun (b : Block) f =>
        { b with store := { b.store with frames := tabSet (place f) f.unpacked b.store.frames } }) (free b)
      b.setSlice key { x with blocks := x.blocks ++ x.held.map place, image := 0, held := [], coming := false }
    | .lost =>
      let b := if x.coming then b.freePages (x.held.map fun f => f.pages).flatten else b
      ((free b).dropSliceFrames x.blocks).setSlice key { x with blocks := [], image := 0, held := [], coming := false }

/-- Apply an order of a commit at the order port, at the rank of the lead (R559). -/
def Block.commitOrder (b : Block) (code : Nat) (o : OrderIn) : OrderEnd :=
  if code = 3 then b.tenantSet o else if code = 4 then b.tenantDisable o else if code = 8 then b.adapterSet o
  else b.ended Codes.badOrder

/-- What this member answers to a decision (R559 step 2): OK for YES. -/
def Block.commitCheck (b : Block) (m : CommitMsg) : Code :=
  match m.body with
  | .order code o => match (b.commitOrder code { o with issuer := .lead }).answer with
    | some (c, _) => c
    | none => Codes.ok
  | .blocks ctx tenant gen len =>
    let need := b.sliceNeed (m.coordinator * 131072 + ctx) tenant gen len
    if m.coordinator = b.position then Codes.ok
    else if (b.ten tenant).quota.pages < (b.use tenant).pages + need then Codes.mtQuotaPages
    else if (b.takePages tenant (coachman ctx) need).isNone then Codes.mtNoSpace
    else Codes.ok
  | .swapOut ctx drop =>
    if drop then Codes.ok
    else if m.coordinator = b.position then
      (if b.budgetTakes (b.ctx ctx).tenant (imageSlots (imageBytes ((b.ownFrames ctx).map (·.2)))) then Codes.ok else Codes.sbFull)
    else match tabFind? (m.coordinator * 131072 + ctx) b.store.slices with
      | some x => if b.budgetTakes x.tenant (b.sliceImage x) then Codes.ok else Codes.sbFull
      | none => Codes.ok
  | .swapStep ctx st =>
    let room := fun (t : Nat) (fs : List Frame) => if (b.takeFrames t (coachman ctx) fs).isSome then Codes.ok else Codes.mtNoSpace
    if st ≠ .start then Codes.ok
    else if m.coordinator = b.position then
      match (b.ctx ctx).swap with
      | .held fs _ => room (b.ctx ctx).tenant fs
      | _ => Codes.ok
    else
      match tabFind? (m.coordinator * 131072 + ctx) b.store.slices with
      | some x => room x.tenant x.held
      | none => Codes.ok

/-- Apply a decision on this member (R559 step 4): an order commit is presented at the order port at the rank of the lead, which an
order of the lead's own issuers carries too; a context decision acts as a turnpike decision. HUB_ORDER_APPLIED counts an order
that becomes a commit at its issuer's port and again at the commit (DESIGN CHOICE, assumption 117). -/
def Block.commitApply (b : Block) (c : Commit) : Block :=
  let m := c.msg
  match m.body with
  | .order code o =>
    let mine := fun (x : Commit) => x.own && x.msg.body == m.body
    let own := c.own || b.cb.commits.any mine
    let quiet := c.silent || b.cb.commits.any fun x => mine x && x.silent
    let b := { b with cb := { b.cb with commits := b.cb.commits.filter fun x => !mine x } }
    let (b, won) := b.arbitrate (rank .lead) (o.kind, o.target)
    let answer := fun (b : Block) (k : Code) (aux : Nat) => if own && !quiet then b.orderReply o.issuer o.tag k aux else b
    if !won then answer b Codes.conflict 0
    else
      let r := b.commitOrder code (if own then o else { o with issuer := .lead })
      match r.answer with
      | some (k, aux) => answer r.b k aux
      | none =>
        if own && quiet then r.b.modTen o.target fun e => { e with closing := e.closing.map fun c => { c with silent := true } }
        else r.b
  | .blocks ctx tenant gen len =>
    if m.coordinator = b.position then b
    else
      let key := m.coordinator * 131072 + ctx
      if len = 0 then b.dropSlice key
      else
        match b.generator tenant gen with
        | none => b.dropSlice key
        | some g =>
          let x := (tabFind? key b.store.slices).getD { tenant := tenant, gen := gen, kvLen := 0, blocks := [], image := 0 }
          let keep := ceilDiv len 64
          let b := b.dropSliceFrames (x.blocks.drop keep)
          let old := x.blocks.take keep
          -- the last frame kept takes its FILL (R421)
          let b := match old.getLast? with
            | some f => b.modFrame f fun y => { y with
                slots := (y.slots ++ (List.range 64).map fun j =>
                  let v := Config.sliceKv b.epoch (y.firstPos + j)
                  ({ token := v.1, kv := v.2, dots := [] } : KvSlot)).take (min 64 (len - y.firstPos)) }
            | none => b
          let r := b.growSlice tenant (coachman ctx) gen len g old.length (keep - old.length)
          r.1.setSlice key { x with gen := gen, kvLen := len, blocks := old ++ r.2 }
  | .swapOut ctx drop =>
    if m.coordinator = b.position then
      (if drop then b.dropVictim ctx else b.beginSwap ctx).retrySteps
    else
      let key := m.coordinator * 131072 + ctx
      match tabFind? key b.store.slices with
      | none => b
      | some x =>
        let k := b.sliceImage x
        if drop then (b.dropSliceFrames x.blocks).setSlice key { x with blocks := [] }
        else (b.takeImage x.tenant k).setSlice key { x with image := k }
  | .swapStep ctx st =>
    if m.coordinator ≠ b.position then b.swapSlice (m.coordinator * 131072 + ctx) st
    else if st = .start then b.beginSwapIn ctx
    else b

/-- A decision is given up on the module that made it (R559): the issuer of an order receives the code, a step whose slices found
no room ends with it, and a swap that a member's budget does not take becomes a drop (R174). -/
def Block.commitAborted (b : Block) (c : Commit) (code : Code) : Block :=
  match c.msg.body with
  | .order _ o => if c.own && !c.silent then b.orderReply o.issuer o.tag code 0 else b
  | .blocks ctx _ _ _ => if (b.ctx ctx).req.isSome then b.stopReq ctx code else b
  | .swapOut ctx drop => if drop ∨ code = Codes.teamLost then b else b.startCommit (.swapOut ctx true) true
  | .swapStep _ _ => b

/-- Drop a commit from the list. -/
def Block.forgetCommit (b : Block) (coord id : Nat) : Block :=
  { b with cb := { b.cb with commits := b.cb.commits.filter fun c => !(c.msg.coordinator == coord && c.msg.id == id) } }

/-- PREPARE (R559): this member answers YES or NO; an order that a member forwards to the lead begins its commit there. -/
def execPrepare (d : CommitMsg) (s : State) : Host.Outcome State Fault Refusal :=
  s.run fun b =>
    let isOrder : Bool := match d.body with
      | .order _ _ => true
      | _ => false
    if !b.inTeam ∨ !b.others.contains d.coordinator then b
    else if isOrder ∧ b.position = 0 then b.startCommit d.body false
    else
      let code := b.commitCheck d
      let b := if code = Codes.ok then { b with cb := { b.cb with commits := b.cb.commits ++ [⟨d, false, false, false⟩] } } else b
      b.cbEmit (.answer d.coordinator d.id code)

/-- COMMIT_DECISION (R559 step 3): APPLY if every member answered YES, else ABORT with the code of the first refusing member in
position order; a missing answer counts as TEAM_LOST. -/
def execCommitDecision (id : Nat) (answers : List (Nat × BitVec 16)) (s : State) : Host.Outcome State Fault Refusal :=
  s.run fun b =>
    let mine := b.cb.commits.find? fun c => c.msg.coordinator == b.position && c.msg.id == id && !c.applied &&
      decide (0 < c.msg.applyCycle)
    match mine with
    | none => b
    | some c =>
      let codes := ((List.range 8).filter fun p => bit b.cb.present.toNat p).map fun p =>
        if p = b.position then b.commitCheck c.msg else (answers.lookup p).getD Codes.teamLost
      match codes.find? fun x => x != Codes.ok with
      | none =>
        let b := { b with cb := { b.cb with commits := b.cb.commits.map fun x => if x == c then { x with applied := true } else x } }
        b.others.foldl (fun (b : Block) p => b.cbEmit (.decision p id true Codes.ok)) b
      | some code =>
        let b := b.others.foldl (fun (b : Block) p => b.cbEmit (.decision p id false code)) b
        (b.forgetCommit b.position id).commitAborted c code

/-- APPLY (R559): the decision is held for its apply cycle. -/
def execApply (coord id : Nat) (s : State) : Host.Outcome State Fault Refusal :=
  s.run fun b =>
    if coord = b.position then b
    else { b with cb := { b.cb with commits := b.cb.commits.map fun c =>
      if c.msg.coordinator = coord ∧ c.msg.id = id then { c with applied := true } else c } }

/-- ABORT (R559): nothing is applied; an order of this module that the lead coordinated is answered with the code. -/
def execAbort (coord id : Nat) (code : BitVec 16) (s : State) : Host.Outcome State Fault Refusal :=
  s.run fun b =>
    if coord = b.position then b
    else
      let held := b.cb.commits.find? fun c => c.msg.coordinator == coord && c.msg.id == id
      let b := b.forgetCommit coord id
      match held with
      | none => b
      | some c =>
        match b.cb.commits.find? fun x => x.own && x.msg.body == c.msg.body with
        | some x => (b.forgetCommit x.msg.coordinator x.msg.id).commitAborted x code
        | none => b

/-- COMMIT_APPLY_CYCLE (R559 step 4): every decision whose cycle A has come. -/
def execCommitApplyCycle (s : State) : Host.Outcome State Fault Refusal :=
  s.run fun b =>
    let due := b.cb.commits.filter fun c => c.applied && decide (c.msg.applyCycle ≤ b.cb.linkCycle)
    due.foldl (fun (b : Block) c => (b.forgetCommit c.msg.coordinator c.msg.id).commitApply c) b

/-! ### Losing a member (R568 to R572) -/

/-- The lead declares a position lost (R568): a notice with its apply cycle to every present member. -/
def Block.declareLost (b : Block) (q cause : Nat) : Block :=
  if !bit b.cb.present.toNat q ∨ b.cb.lostPending.any (fun x => x.1 == q) then b
  else
    let a := b.cb.linkCycle + 3 * b.cb.l + 16
    let b := { b with cb := { b.cb with lostPending := b.cb.lostPending ++ [(q, a)] } }
    let b := b.others.foldl (fun (b : Block) p => b.cbEmit (.lost p q cause a)) b
    b.log 0x08 2 Codes.teamLost none none (q + 16 * cause)

/-- A context's compute step waits for position q: rows of a table, or a shard of its module. -/
def Block.waitsOn (b : Block) (n q : Nat) : Bool :=
  (match (b.ctx n).step with
  | some st => match st.rerank with
    | some r => r.owed.any fun o => o.1 == q
    | none => false
  | none => false)

/-- A context's search still waits for module m. -/
def Block.searchOn (b : Block) (n m : Nat) : Bool :=
  match b.search? n with
  | some s =>
    s.queries.any (fun x => x.module == some m && !x.done) || s.walks.any fun w => w.module == some m && !w.done
  | none => false

/-- What every remaining member does when a position is lost (R569, R572). -/
def Block.loseMember (b : Block) (q : Nat) : Block :=
  if !bit b.cb.present.toNat q then b
  else
    let m := tabGet 0 q b.cb.teamMods
    let searching := (b.ctxs.filter fun c => b.searchOn c.1 m).map (·.1)
    let gone := b.cb.commits.filter fun c => !c.applied || decide (b.cb.linkCycle ≤ c.msg.applyCycle)
    let b := { b with
      cb := { b.cb with
        present := b.cb.present &&& ~~~BitVec.ofNat 8 (2 ^ q), broken := true, commits := []
        lostPending := b.cb.lostPending.filter fun x => x.1 != q
        ports := tabMap (fun k (p : Port) => if k = portTo b.position q then { p with relaying := false, replay := [], sendQ := [] } else p)
          b.cb.ports }
      }
    let b := (b.dropModule m).attnAll attnTeamChange
    let b := (b.cb.colls.filter fun c => bit c.members q).foldl (fun (b : Block) c => b.collEnd c Codes.teamLost) b
    -- LOOKUPs that need q
    let b := (List.range 4).foldl (fun (b : Block) k => match (b.gtuQ k).wait with
      | some w =>
        if w.owed.any fun o => o.1 == q then (b.modGtu k fun g => { g with wait := none }).gtuFail k w.cmd Codes.teamLost else b
      | none => b) b
    let b := gone.foldl (fun (b : Block) c =>
      if c.own || c.msg.coordinator == b.position then b.commitAborted c Codes.teamLost else b) b
    let b := (b.store.slices.filter fun x => x.1 / 131072 == q).foldl (fun (b : Block) x => b.dropSlice x.1) b
    let b := searching.foldl (fun (b : Block) n => b.unreachable n) b
    let halt := b.ctxs.filter fun c => match c.2.step with
      | some st => st.opcode == 0xA || st.opcode == 0xB || b.waitsOn c.1 q
      | none => false
    (halt.foldl (fun (b : Block) (c : Nat × Ctx) => b.stopReq c.1 Codes.teamLost) b).notePaths

/-- The team is complete again (R430, R571): every context takes RECOMPUTE and the frames on this member go. -/
def Block.teamAgain (b : Block) : Block :=
  let b := { b with cb := { b.cb with broken := false } }
  let b := b.store.slices.foldl (fun (b : Block) x => b.dropSlice x.1) b
  b.ctxs.foldl (fun (b : Block) (c : Nat × Ctx) =>
    ((b.dropImage c.1).dropBlocks c.1).modCtx c.1 fun x =>
      { x with state := if x.state = .swapped then x.prev else x.state, prev := if x.state = .swapped then .free else x.prev }) b

/-- READY (R70 step 5, R571): every expected member is in lockstep. -/
def execReady (s : State) : Host.Outcome State Fault Refusal :=
  s.run fun b =>
    if b.clk.mainOn ∧ b.cb.lockstep ∧ b.cb.present = b.cb.expected ∧
        (b.clk.stage = .teamJoin ∨ (b.clk.stage = .ready ∧ b.cb.broken)) then
      let b := if b.cb.broken then b.teamAgain else b
      (b.enterReady true).log 0x08 0 Codes.ok none none b.cb.present.toNat
    else b

/-- LEAVE (R568): the lead declares the member lost. -/
def execLeave (pos : Nat) (s : State) : Host.Outcome State Fault Refusal :=
  s.run fun b => if b.isLead ∧ b.inTeam ∧ b.others.contains pos then b.declareLost pos 1 else b

/-- LOST (R568): the lead's notice. -/
def execLost (pos cycle : Nat) (s : State) : Host.Outcome State Fault Refusal :=
  s.run fun b =>
    if b.inTeam ∧ bit b.cb.present.toNat pos ∧ pos ≠ b.position ∧ !b.cb.lostPending.any fun x => x.1 == pos then
      { b with cb := { b.cb with lostPending := b.cb.lostPending ++ [(pos, cycle)] } }
    else b

/-- LOST_APPLY (R569): the losses whose cycle A has come. -/
def execLostApply (s : State) : Host.Outcome State Fault Refusal :=
  s.run fun b =>
    let due := b.cb.lostPending.filter fun x => decide (x.2 ≤ b.cb.linkCycle)
    due.foldl (fun (b : Block) x => b.loseMember x.1) b

/-- A member acts on its own (R570): it loses every other position (R569), keeps only itself and returns to step 3 of R70. -/
def Block.actAlone (b : Block) : Block := (b.others.foldl Block.loseMember b).leaveTeam

/-- LOST_WAIT_EXPIRY (R554, R568, R570): no path for CB_LOST_WAIT link cycles, or `badPorts` of the member's ports to present
members are DOWN, MISWIRED or MISFIT: the lead declares it lost; a member without a path to the lead goes on alone. -/
def execLostWaitExpiry (pos badPorts : Nat) (s : State) : Host.Outcome State Fault Refusal :=
  s.run fun b =>
    let waited : Bool := match tabFind? pos b.cb.noPath with
      | some c => decide (c + b.cb.lostWait.toNat ≤ b.cb.linkCycle)
      | none => false
    if !b.inTeam ∨ !b.others.contains pos then b
    else if b.isLead then (if waited then b.declareLost pos 2 else if 2 ≤ badPorts then b.declareLost pos 3 else b)
    else if pos = 0 ∧ waited then b.actAlone
    else b

/-- REF_HOLDOVER_EXPIRY (R60): a member slews to J15 and leaves its team (R570); a lead or lone module takes a main reset with
cause REF_LOST and holds until the reference returns. A member's expiry is logged at severity SERVICE (DESIGN CHOICE,
assumption 114). -/
def execRefHoldoverExpiry (s : State) : Host.Outcome State Fault Refusal :=
  s.run fun b =>
    if !b.clk.holdover then b
    else if b.isLead then
      let b' := b.resetArrives .fundamental causeRefLost
      if b.resetTakes .fundamental then { b' with clk := { b'.clk with waitRef := true } } else b'
    else
      let b := { b with clk := { b.clk with holdover := false, slewing := true, refSrc := 0 } }
      b.actAlone.log 0x08 2 Codes.ok none none 0

end Sys2Proof.Machine
end

