-- ==== Sys2Proof/Machine/Fanout.lean ====
section
/-!
DEFINITION. Machine/Fanout.lean: the messages that carry work and its results (R298 to R300, R450, R567), the domain's
transport (R573 to R577) and its shard directory (R578, R579).
-/
namespace Sys2Proof.Machine

/-! ### Work from other modules -/

/-- WORK (R299, R567). -/
def execWork (port : Nat) (w : LinkWord) (m : WorkMsg) (s : State) : Host.Outcome State Fault Refusal :=
  s.run fun b => b.recvWord port 6 w fun b => b.serveWork false w.src m

/-! ### Results (R298, R450) -/

/-- Rows of other members reach the unit whose LOOKUP waits for them (R450). -/
def Block.lookupRows (b : Block) (q pos : Nat) (r : ResultMsg) : Block :=
  match (b.gtuQ q).wait with
  | none => b
  | some w =>
    match w.owed.lookup pos with
    | none => b
    | some ids =>
      if r.code ≠ Codes.ok then (b.modGtu q fun g => { g with wait := none }).gtuFail q w.cmd r.code
      else
        let w := { w with owed := w.owed.filter (fun o => o.1 != pos), got := w.got ++ ids.zip r.rows }
        if w.owed.isEmpty then
          let b := b.modGtu q fun g => { g with wait := none }
          match b.gtuCheck q w.cmd with
          | .error c => b.gtuFail q w.cmd c
          | .ok t =>
            match b.gtuKeys w.cmd t with
            | .error c => b.gtuFail q w.cmd c
            | .ok keys =>
              let remote := (w.got.filter fun g => b.ownerOf t g.1 != b.position).length
              b.lookupDone q w.cmd t keys w.got remote
        else b.modGtu q fun g => { g with wait := some w }

/-- Feedback rows of other members reach a RERANK (R343). -/
def Block.feedbackRows (b : Block) (n pos : Nat) (r : ResultMsg) : Block :=
  match (b.ctx n).step with
  | some st => match st.rerank with
    | some run => match run.owed.lookup pos with
      | some ids =>
        if r.code ≠ Codes.ok then (b.unblockCtx n).unitResult n (StepResult.ofCode r.code)
        else b.rerankRows n pos (ids.zip r.rows)
      | none => b
    | none => b
  | none => b

/-- A RESULT reaches what waits for it; `from_` is a team position, or a module of the domain. -/
def Block.takeResult (b : Block) (from_ : Nat) (r : ResultMsg) : Block :=
  if !r.gather then b.remoteAnswer r.ctx r
  else if r.setIdx < 4 then b.lookupRows r.setIdx from_ r
  else b.feedbackRows r.ctx from_ r

/-- RESULT (R298, R450). -/
def execResult (port : Nat) (w : LinkWord) (m : ResultMsg) (s : State) : Host.Outcome State Fault Refusal :=
  s.run fun b => b.recvWord port 7 w fun b => b.takeResult w.src m

/-! ### Domain frames (R573 to R576) -/

/-- The checks of R573 and R575. -/
def Block.frameOk (b : Block) (port : Nat) (f : DomFrame) : Bool :=
  !f.tagged && f.etype == b.cb.etype && f.fcsOk && f.dest == macAddress b.cb.oui b.cb.module port && f.ver == 1 &&
    decide (f.count ≤ 5) && f.rsvdClear && f.dst == b.cb.module

/-- A domain port that receives: enabled, not fenced, its cage's lanes not disabled (R46). -/
def Block.domPort (b : Block) (port : Nat) : Bool :=
  b.mainUp && b.cb.domEnable.getLsbD port && !b.fenced 14 port && !b.laneOff (8 + port)

/-- ACK_PSN of a frame moves the window (R576). When a module that was unreachable answers after that time, the domain lead is told of
every shard again (R578). -/
def Block.ackWindow (b : Block) (f : DomFrame) : Block :=
  let p := b.pair f.src
  let adv := (f.ackPsn - p.ackPsn).toNat
  let back := decide (0 < p.deadUntil) && decide (p.deadUntil ≤ b.clk.cclk)
  let b := b.modPair f.src fun p => { p with deadUntil := if back then 0 else p.deadUntil }
  let b := if 0 < adv ∧ adv ≤ (p.txPsn - p.ackPsn).toNat then
      b.modPair f.src fun p => { p with ackPsn := f.ackPsn, retries := 0, since := b.clk.cclk }
    else b
  if back ∧ f.src = b.cb.domLead then b.reportAll else b

/-- A frame of a row's KIND arrives: discarded and counted when it fails its checks; else its ACK_PSN acts, and a frame with content,
any KIND but ACK, is taken only when its PSN is the next one (R576). -/
def Block.recvFrame (b : Block) (port kind : Nat) (f : DomFrame) (g : Block → Block) : Block :=
  if !b.domPort port then b
  else if !b.frameOk port f then { b with cb := { b.cb with domDrop := sat32 b.cb.domDrop 1 } }
  else if f.kind ≠ kind then b
  else
    let b := b.ackWindow f
    if kind = 3 then b
    else if f.psn ≠ (b.pair f.src).rxPsn then b.cbEmit (.domAck f.src (b.pair f.src).rxPsn)
    else
      let b := b.modPair f.src fun p => { p with rxPsn := p.rxPsn + 1 }
      g (b.cbEmit (.domAck f.src (f.psn + 1)))

/-- DOM_WORK (R576, R577): the DTID of the frame names the tenant. -/
def execDomWork (port : Nat) (f : DomFrame) (m : WorkMsg) (s : State) : Host.Outcome State Fault Refusal :=
  s.run fun b => b.recvFrame port 1 f fun b => b.serveWork true f.src { m with dtid := f.dtid, module := f.src }

/-- DOM_RESULT (R576). -/
def execDomResult (port : Nat) (f : DomFrame) (m : ResultMsg) (s : State) : Host.Outcome State Fault Refusal :=
  s.run fun b => b.recvFrame port 2 f fun b => b.takeResult f.src { m with module := f.src }

/-- ACK (R576): it carries no content of its own. -/
def execAck (port : Nat) (f : DomFrame) (s : State) : Host.Outcome State Fault Refusal :=
  s.run fun b => b.recvFrame port 3 f id

/-- DISCARDED_FRAME (R573, R575). -/
def execDiscardedFrame (port : Nat) (f : DomFrame) (s : State) : Host.Outcome State Fault Refusal :=
  s.run fun b =>
    if b.domPort port ∧ !b.frameOk port f then { b with cb := { b.cb with domDrop := sat32 b.cb.domDrop 1 } } else b

/-- CCLK of CB_DOM_RTO × 1,024 NCLK: 4 NCLK last 3 CCLK. -/
def Block.rtoCclk (b : Block) : Nat := b.cb.domRto * 768

/-- DOMAIN_RTO (R300, R576): no progress for CB_DOM_RTO × 1,024 NCLK: retransmission from the oldest unacknowledged PSN; after 4
the port numbers move on, after 8 the module is unreachable and its messages fail. -/
def execDomainRto (module : Nat) (s : State) : Host.Outcome State Fault Refusal :=
  s.run fun b =>
    let p := b.pair module
    if p.ackPsn = p.txPsn ∨ b.clk.cclk < p.since + b.rtoCclk then b
    else if 8 ≤ p.retries then
      let b := b.modPair module fun p => { p with
        deadUntil := b.clk.cclk + 64 * b.rtoCclk, txPsn := p.ackPsn, retries := 0, since := b.clk.cclk }
      (((b.ctxs.filter fun c => b.searchOn c.1 module).map (·.1)).foldl (fun (b : Block) n => b.unreachable n) b).dropModule module
    else
      let off := if p.retries = 4 then (p.portOff + 1) % 4 else p.portOff
      (b.modPair module fun p => { p with retries := p.retries + 1, portOff := off, since := b.clk.cclk }).cbEmit
        (.retransmit module ((module + off) % 4) p.ackPsn)

/-! ### The shard directory (R578, R579) -/

/-- The module is the domain lead (R578). -/
def Block.isDomLead (b : Block) : Bool := b.cb.domLead == b.cb.module

/-- DIR_REPORT (R578). -/
def execDirReport (port : Nat) (f : DomFrame) (entry : DirEntry) (s : State) : Host.Outcome State Fault Refusal :=
  s.run fun b => b.recvFrame port 4 f fun b => if b.isDomLead then b.dirPut { entry with module := f.src } else b

/-- DIR_QUERY (R578): the domain lead answers. -/
def execDirQuery (port : Nat) (f : DomFrame) (module shard : Nat) (s : State) : Host.Outcome State Fault Refusal :=
  s.run fun b => b.recvFrame port 5 f fun b =>
    if b.isDomLead then b.domSend f.src (.dirAnswer f.src (tabFind? (module * 64 + shard) b.cb.directory)) else b

/-- CB_DIR_DATA0 to CB_DIR_DATA9 of an entry (R579). -/
def dirWords (e : DirEntry) : List W64 :=
  let rd := fun (i : Nat) => (e.readers.getD i 0).toNat
  BitVec.ofNat 64 (e.epoch * 2 ^ 32 + e.owner.toNat) :: BitVec.ofNat 64 (e.state * 2 ^ 8 + min 16 e.readers.length) ::
    (List.range 8).map fun i => BitVec.ofNat 64 (rd (2 * i + 1) * 2 ^ 32 + rd (2 * i))

/-- A query completes with an entry, or with none: VALID tells. -/
def Block.dirDone (b : Block) (e : Option DirEntry) : Block :=
  { b with cb := { b.cb with
      dirBusy := false, dirValid := e.isSome, dirCode := Codes.ok
      dirData := match e with
        | some e => dirWords e
        | none => List.replicate 10 0 } }

/-- DIR_ANSWER (R578, R579). -/
def execDirAnswer (port : Nat) (f : DomFrame) (entry : Option DirEntry) (s : State) : Host.Outcome State Fault Refusal :=
  s.run fun b => b.recvFrame port 6 f fun b =>
    if b.cb.dirBusy ∧ f.src = b.cb.domLead then b.dirDone entry else b

/-- CB_DIR_QUERY (R579): a write starts a directory query; the domain lead answers its own at once. One that runs goes on. -/
def execCbDirQuery (value : BitVec 64) (s : State) : Host.Outcome State Fault Refusal :=
  s.run fun b =>
    let m := bits value.toNat 48 32
    let sh := bits value.toNat 5 0
    if !b.mainUp ∨ b.clk.resetNow ∨ b.cb.dirBusy then b
    else
      let b := { b with cb := { b.cb with dirBusy := true, dirValid := false, dirCode := Codes.ok, dirSince := b.clk.cclk } }
      if b.isDomLead then b.dirDone (tabFind? (m * 64 + sh) b.cb.directory)
      else if b.cb.domEnable = 0 then b
      else b.domSend b.cb.domLead (.dirQuery b.cb.domLead m sh)

/-- DIR_QUERY_TIMEOUT (R579): 8 × CB_DOM_RTO × 1,024 NCLK without an answer. -/
def execDirQueryTimeout (s : State) : Host.Outcome State Fault Refusal :=
  s.run fun b =>
    if b.cb.dirBusy ∧ b.cb.dirSince + 8 * b.rtoCclk ≤ b.clk.cclk then
      { b with cb := { b.cb with dirBusy := false, dirValid := false, dirCode := Codes.cbDirDown } }
    else b

/-- CB_TEAM_CFG (R557): the team configuration record; a write whose EXPECTED lacks bit 0 is ignored. -/
def execCbTeamCfg (value : BitVec 64) (s : State) : Host.Outcome State Fault Refusal :=
  s.run fun b =>
    if !b.mainUp ∨ b.clk.resetNow ∨ !value.getLsbD 0 then b
    else { b with flash := { b.flash with
      teamModule := bits value.toNat 48 32, teamExpected := BitVec.ofNat 8 (bits value.toNat 7 0) } }

/-- DOMAIN_PCS_LOCK (R573, R579): CB_DPORTn follows the port's PCS and FEC. -/
def execDomainPcsLock (port : Nat) (pcs fec : Bool) (s : State) : Host.Outcome State Fault Refusal :=
  s.run fun b =>
    if !b.mainUp ∨ b.laneOff (8 + port) then b else { b with cb := { b.cb with dports := tabSet port ⟨pcs, fec⟩ b.cb.dports } }

end Sys2Proof.Machine
end

