-- ==== Sys2Proof/Machine/Registers.lean ====
section
/-!
DEFINITION. Machine/Registers.lean: the register maps as software sees them (R83 to R93 and the register tables of every
chapter): what each register reads, and REGISTER_WRITE, the write of a register that has no row of its own (R11).
-/
namespace Sys2Proof.Machine

/-- 1 for a set bit. -/
def b2n (x : Bool) : Nat := if x then 1 else 0

/-- A register's value from its fields: (low bit, value). -/
def packed (fields : List (Nat × Nat)) : Nat := natSum (fields.map fun f => f.2 * 2 ^ f.1)

/-- The number whose bit `lo + i` says whether unit i of a kind is fenced, for units [from0, from0 + n). -/
def Block.fenceBits (b : Block) (kind from0 n lo : Nat) : Nat :=
  natSum ((List.range n).map fun i => b2n (b.fenced kind (from0 + i)) * 2 ^ (lo + i))

/-! ### STATUS_WORD -/

/-- Stage code of R67, R76. -/
def Stage.code : Stage → Nat
  | .held => 0
  | .pllLock => 1
  | .fwLoad => 2
  | .train => 3
  | .selftest => 4
  | .mapLoad => 5
  | .localReady => 6
  | .teamJoin => 7
  | .ready => 8
  | .test => 9
  | .failed => 0xF

/-- TEAM_OK of R86: in lockstep with every expected member, or alone and READY. -/
def Block.teamOk (b : Block) : Bool :=
  if b.inTeam then b.cb.present == b.cb.expected && !b.cb.broken else b.clk.stage == .ready && !b.cb.broken

/-- ADMITTING of R86, R175, R623. -/
def Block.admitting (b : Block) : Bool :=
  b.clk.stage == .ready && decide (b.tp.floor ≤ b.liveCoaches) && !b.rel.memLost

/-- STATUS_WORD as the page with attention summary `attn` shows it (R85, R86). -/
def Block.statusWord (b : Block) (attn : Byte) : Nat :=
  if !b.mainUp then 0
  else packed [(24, attn.toNat), (14, if b.clk.selftestDone then b.liveCoaches else 0), (13, b2n b.teamOk),
    (12, b2n b.sb.readOnly), (11, b2n (decide (0 < max b.rel.sPower b.rel.sThermal))),
    (10, b2n (!b.rel.fenced.isEmpty)), (9, b2n b.admitting), (0, b.clk.stage.code)]

/-- Patterns of the attention LED (R51). -/
inductive Led
  | blink4Hz | steady | blink1Hz | off
deriving DecidableEq, Repr

/-- The LED shows the pattern of the highest priority (R49, R51, R511, R631, R640); without J1 power it is dark. -/
def Block.led (b : Block) : Led :=
  if !b.clk.j1Up then .off
  else if !b.clk.mainOn ∨ b.clk.stage = .failed then .blink4Hz
  else if !b.rel.fenced.isEmpty ∨ b.sb.readOnly ∨ (b.host.attnOf pf0Page).getLsbD attnMgmtEvent = true then .steady
  else if b.ost.locate then .blink1Hz
  else .off

/-! ### Doorbell pages (R89) -/

/-- What a register of a doorbell page or of the order page reads, by its offset (R83, R85, R89 to R93). -/
def Block.pageRead (b : Block) (p off : Nat) : Nat :=
  let g := b.page p
  if !b.clk.mainOn then 0
  else if off = 0 then b.statusWord (b.host.attnOf p)
  else if !b.pageOn p then 0
  else
    match off with
    | 0x08 => g.reqBase.toNat
    | 0x10 => g.reqSize.toNat
    | 0x18 => g.rplBase.toNat
    | 0x20 => g.rplSize.toNat
    | 0x28 => packed [(1, b2n g.active), (0, b2n g.enable)]
    | 0x38 => g.reqCi.toNat
    | 0x40 => g.rplPi.toNat
    | 0x50 => (b.host.attnOf p).toNat
    | 0x60 => g.err.toNat
    | _ => 0

/-! ### Hub register region: reads -/

/-- HUB_BRINGUP.ELAPSED (R76): milliseconds since the start of R66, saturating; 0 before that start. -/
def Block.elapsed (b : Block) : Nat :=
  match b.clk.startTick with
  | some t => min ((b.ost.tick - t) / 500000) 0xFFFFFF
  | none => 0

/-- Clock and reset block (R72 to R76). -/
def Block.clkReg (b : Block) (off : Nat) : Nat :=
  match off with
  | 0x00 => packed [(7, b2n b.clk.refLost), (6, b2n b.clk.slewing), (5, b2n b.clk.holdover), (4, b2n b.clk.locked),
      (0, b.clk.refSrc.toNat)]
  | 0x08 => b.clk.straps.toNat
  | 0x10 => b.clk.cause.toNat
  | 0x18 => packed [(30, b2n b.clk.rebuild), (29, b2n b.clk.joinLate), (28, b2n b.clk.journal),
      (4, b.elapsed), (0, b.clk.stage.code)]
  | _ => 0

/-- Turnpike (R176 to R179). -/
def Block.tpReg (b : Block) (off : Nat) : Nat :=
  match off with
  | 0x00 => b.tp.ceiling
  | 0x08 => b.tp.floor
  | 0x10 => b.tp.queueLimit.toNat
  | 0x18 => b.tp.queueAge.toNat
  | 0x20 => packed [(11, b.tp.window % 2 ^ 32), (0, b.tp.share)]
  | 0x28 => natSum (b.tp.queues.map fun q => q.2.length)
  | 0x30 => b.tp.admitCount.toNat
  | 0x38 => b.tp.denyCount.toNat
  | 0x40 => b.tp.preemptCount.toNat
  | 0x48 => b.tp.swapOutCount.toNat
  | 0x50 => b.tp.swapInCount.toNat
  | 0x58 => b.tp.dropCount.toNat
  | _ => 0

/-- SKE_SHARDs (R305). -/
def Block.skeShard (b : Block) (n : Nat) : Nat :=
  match tabFind? n b.ske.shards with
  | some x =>
    let st := match x.state with
      | .live => 1
      | .staging => 2
      | .closing => 3
    packed [(44, st), (32, x.owner), (0, x.epoch)]
  | none => 0

/-- Sketch engines (R303 to R305). -/
def Block.skeReg (b : Block) (off : Nat) : Nat :=
  match off with
  | 0x00 => b2n b.ske.shared
  | 0x08 => b.ske.turnLen
  | 0x10 => b.ske.remoteWait.toNat
  | 0x18 => b.ske.passCount.toNat
  | 0x20 => b.ske.rowCount.toNat
  | _ => if 0x100 ≤ off ∧ off < 0x300 ∧ off % 8 = 0 then b.skeShard ((off - 0x100) / 8) else 0

/-- BUSY and QUEUED of a unit whose queue's first command is the running one (R338, R402, R461, R543). -/
def busyQueued (n : Nat) : List (Nat × Nat) := [(14, b2n (decide (0 < n))), (0, n - 1)]

/-- Selection unit of quarter q (R337, R338). -/
def Block.sluReg (b : Block) (q off : Nat) : Nat :=
  let u := b.sluQ q
  match off with
  | 0x00 => packed (busyQueued u.queue.length)
  | 0x08 => u.cmdCount.toNat
  | 0x10 => u.elemCount.toNat
  | 0x18 => u.refuseCount.toNat
  | _ => 0

/-- Text unit (R401, R402): as many segmenter commands run as there are live lanes. -/
def Block.txuReg (b : Block) (off : Nat) : Nat :=
  let lanes := ((List.range 4).filter fun i => !b.fenced 10 i).length
  let seg := b.txu.segQ.length
  let det := b.txu.detokQ.length
  match off with
  | 0x00 => packed [(16, det - 1), (2, seg - lanes), (1, b2n (decide (0 < det))), (0, b2n (decide (0 < min seg lanes)))]
  | 0x08 => b.txu.hostBound.toNat
  | 0x10 => b.txu.segCount.toNat
  | 0x18 => b.txu.detokCount.toNat
  | _ => 0

/-- Reins unit of quarter q (R401, R402). -/
def Block.rnuReg (b : Block) (q off : Nat) : Nat :=
  let u := b.rnuQ q
  match off with
  | 0x00 => b2n u.shared
  | 0x08 => packed (busyQueued u.queue.length)
  | 0x10 => u.hit.toNat
  | 0x18 => u.miss.toNat
  | _ => 0

/-- Context store (R432, R433). -/
def Block.ctxReg (b : Block) (off : Nat) : Nat :=
  match off with
  | 0x00 =>
    let shared := b.store.frames.filter fun f => decide (1 < f.2.refs) || b.store.prefixes.any fun p => p.2.frame == f.1
    packed [(24, shared.length), (0, b.store.frames.length)]
  | 0x08 => b.store.hitCount.toNat
  | 0x10 => b.store.missCount.toNat
  | 0x18 => b.store.draftedCount.toNat
  | 0x20 => b.store.acceptedCount.toNat
  | 0x28 => b.store.rollbackCount.toNat
  | 0x30 => b.store.blocksRead.toNat
  | _ => 0

/-- Gather unit of quarter q (R460 to R462). -/
def Block.gtuReg (b : Block) (q off : Nat) : Nat :=
  let g := b.gtuQ q
  match off with
  | 0x00 =>
    packed ([(16, g.ledger.length), (15, b2n g.lane.isSome)] ++
      busyQueued (g.queue.length + b2n g.wait.isSome))
  | 0x08 => g.cmdCount.toNat
  | 0x10 => g.rowCount.toNat
  | 0x18 => g.hotSample.toNat
  | 0x20 => g.hotEvict.toNat
  | 0x28 => g.migrateCount.toNat
  | 0x30 => g.abandonCount.toNat
  | 0x38 => g.updFailCount.toNat
  | 0x40 => packed [(16, g.failTenant), (0, g.failCode.toNat)]
  | _ => 0

/-- Free pages of a tier's pool over the quarters, none within its hold time (R493). -/
def Block.poolFree (b : Block) (hbm : Bool) : Nat :=
  natSum ((List.range 4).map fun q =>
    b.poolPages hbm q - ((b.usedPages hbm q).filter fun p => decide (p < b.poolPages hbm q)).length)

/-- Eight bytes of a 64-byte command (R493, R516). -/
def cmdWord (c : List Byte) (off : Nat) : Nat := fieldAt c off 8

/-- Memory tiers (R493). -/
def Block.mtReg (b : Block) (off : Nat) : Nat :=
  let u := b.use b.mt.useSel.toNat
  match off with
  | 0x00 => b2n b.mt.shared
  | 0x08 => packed [(16, b.mt.poolHbm), (0, b.mt.poolDdr)]
  | 0x10 => packed [(24, b.mt.demote), (16, b.mt.promote), (0, b.mt.period)]
  | 0x18 => packed [(32, b.poolFree true), (0, b.poolFree false)]
  | 0x20 => b.mt.migrateCount.toNat
  | 0x28 => b.mt.abandonCount.toNat
  | 0x30 => b.mt.useSel.toNat
  | 0x38 => u.hbm
  | 0x40 => u.ddr
  | 0x48 => u.pages
  | 0x50 => u.slots
  | 0x60 => packed [(16, b2n b.mt.objBusy), (0, b.mt.objCode.toNat)]
  | _ => if 0x80 ≤ off ∧ off < 0xC0 then cmdWord b.mt.objCmd (off - 0x80) else 0

/-- Blocks of the module (R495). -/
def allBlocks : Nat := 2543616

/-- Strongbox (R516, R517). -/
def Block.sbReg (b : Block) (off : Nat) : Nat :=
  match off with
  | 0x00 => b2n b.sb.shared
  | 0x08 => packed [(32, b.sb.spare), (16, (b.rel.fenced.filter fun u => u.kind == 11).length), (2, b2n b.sb.ckpt),
      (1, b2n b.sb.rebuilding), (0, b2n b.sb.readOnly)]
  | 0x18 => packed [(32, b.sb.doneCount), (16, b2n b.sb.busy), (0, b.sb.code.toNat)]
  | 0x20 => b.sb.chSel.toNat
  | 0x28 => (b.ten b.sb.chSel.toNat).chBudget
  | 0x30 =>
    let ns := b.sb.erases.map (·.2)
    packed [(32, ns.foldl max 0), (16, natSum ns / allBlocks), (0, 3000)]
  | 0x38 => b.sb.slots.length
  | 0x40 => b.sb.readCount.toNat
  | 0x48 => b.sb.writeBytes.toNat
  | 0x50 => b.sb.rebuildCount.toNat
  | _ => if 0x80 ≤ off ∧ off < 0xC0 then cmdWord b.sb.cmd (off - 0x80) else 0

/-- Drays (R542, R543). -/
def Block.drReg (b : Block) (off : Nat) : Nat :=
  match off with
  | 0x00 => b.dr.hostBound.toNat
  | 0x08 => b.dr.descCount.toNat
  | 0x10 => b.dr.byteCount.toNat
  | 0x18 => b.dr.failCount.toNat
  | 0x20 => packed [(28, b.dr.failChan), (16, b.dr.failTenant), (0, b.dr.failCode.toNat)]
  | _ =>
    if 0x100 ≤ off ∧ off < 0x380 ∧ off % 8 = 0 then
      let c := (off - 0x100) / 8
      packed ((15, b2n (b.fenced 9 c)) :: busyQueued ((b.chan c).queue.length + b2n (b.ocMoves c)))
    else 0

/-- State code of a team port (R580). -/
def PortState.code : PortState → Nat
  | .disabled => 0
  | .training => 1
  | .up => 2
  | .down => 3
  | .miswired => 4
  | .misfit => 5

/-- CB_PORTn (R580). -/
def Port.reg (p : Port) : Nat :=
  packed [(16, p.state.code), (13, p.partner.getD 0), (12, b2n p.partner.isSome), (4, p.latency % 256),
    (2, min p.refHops 3), (1, b2n p.isRef), (0, b2n p.relaying)]

/-- Module number of a present position (R558), zero where none is present. -/
def Block.modAt (b : Block) (p : Nat) : Nat := if bit b.cb.present.toNat p then tabGet 0 p b.cb.teamMods else 0

/-- Cibin link (R579, R580). -/
def Block.cbReg (b : Block) (off : Nat) : Nat :=
  let c := b.cb
  match off with
  | 0x00 => packed [(24, c.present.toNat), (16, c.expected.toNat), (12, c.size), (11, b2n c.lockstep), (10, b2n c.lead),
      (7, b.position), (0, c.l)]
  | 0x08 => c.collTimeout.toNat
  | 0x10 => c.retryLimit
  | 0x18 => c.lostWait.toNat
  | 0x20 => c.flitErr.toNat
  | 0x28 => c.replayCount.toNat
  | 0x30 => c.relayCount.toNat
  | 0x38 => c.collCount.toNat
  | 0x40 => packed [(32, c.module), (0, c.domEnable.toNat)]
  | 0x48 => c.etype
  | 0x50 => c.oui
  | 0x58 => c.domLead
  | 0x60 => c.domRto
  | 0x68 => c.domDrop.toNat
  | 0x78 => packed [(17, b2n c.dirBusy), (16, b2n c.dirValid), (0, c.dirCode.toNat)]
  | 0xD0 => packed [(32, b.flash.teamModule), (0, b.flash.teamExpected.toNat)]
  | _ =>
    if 0x80 ≤ off ∧ off < 0xD0 ∧ off % 8 = 0 then (c.dirData.getD ((off - 0x80) / 8) 0).toNat
    else if 0xE0 ≤ off ∧ off < 0x100 ∧ off % 8 = 0 then
      let i := (off - 0xE0) / 8
      packed [(32, b.modAt (2 * i + 1)), (0, b.modAt (2 * i))]
    else if 0x100 ≤ off ∧ off < 0x140 ∧ off % 8 = 0 then (b.port ((off - 0x100) / 8)).reg
    else if 0x140 ≤ off ∧ off < 0x160 ∧ off % 8 = 0 then
      let d := tabGet DPort.new ((off - 0x140) / 8) c.dports
      packed [(1, b2n d.fec), (0, b2n d.pcs)]
    else 0

/-- Security logic (R608, R609). -/
def Block.secReg (b : Block) (off : Nat) : Nat :=
  let t := b.ten b.sec.tenantSel.toNat
  match off with
  | 0x00 => b2n b.sec.isolate
  | 0x08 => packed [(32, b.sec.svn.toNat), (16, b.sec.debug), (15, b2n b.sec.backup), (14, b2n b.sec.pufOk),
      (13, b2n b.sec.isolate), (0, (b.tenants.filter fun e => e.2.state != .off).length)]
  | 0x10 => b.sec.tenantSel.toNat
  | 0x18 =>
    let st := match t.state with
      | .off => 0
      | .on => 1
      | .closing => 2
    packed [(32, t.dtid.toNat), (30, st), (29, b2n t.hintOk), (28, b2n (tabFind? b.sec.tenantSel.toNat b.slotKeys).isSome)]
  | 0x20 => packed [(32, t.ctxBase), (0, t.ctxCount)]
  | 0x28 => b.sec.eventCount.toNat
  | 0x30 => packed [(16, b.sec.lastEvent), (0, b.sec.lastTenant)]
  | _ => 0

/-- HUB_FENCE_UNIT (R632). -/
def Block.fenceUnits (b : Block) : Nat :=
  b.fenceBits 4 0 8 0 + b.fenceBits 5 0 4 8 + b.fenceBits 6 0 4 12 + b.fenceBits 7 0 4 16 + b.fenceBits 8 0 4 20 +
  b.fenceBits 10 0 4 24 + b.fenceBits 13 0 8 28 + b.fenceBits 14 0 4 36

/-- Reliability and power (R632, R633). -/
def Block.relReg (b : Block) (off : Nat) : Nat :=
  let r := b.rel
  match off with
  | 0x40 => b.fenceBits 2 0 8 0 + b.fenceBits 3 0 24 8
  | 0x48 => b.fenceUnits
  | 0x50 => b.fenceBits 9 0 64 0
  | 0x58 => b.fenceBits 9 64 16 0
  | 0x60 => packed [(32, b.flash.pendUnfence.toNat), (0, b.flash.pendFence.toNat)]
  | 0x68 => packed [(16, r.ceLimitMem), (0, r.ceLimitCoach)]
  | 0x70 => packed [(32, r.errUncorr.toNat), (0, r.errCorr.toNat)]
  | 0x80 => packed [(12, b2n r.autoRestart), (0, r.capLimit)]
  | 0x88 => packed [(32, r.skip), (26, r.sThermal), (20, r.sPower), (19, b2n r.capFail), (18, b2n r.flowLow),
      (17, b2n r.leak), (16, b2n r.hot), (0, r.power.toNat)]
  | 0x90 => packed [(16, r.vin.toNat), (0, r.iin.toNat)]
  | 0x98 => r.sensorSel.toNat
  | 0xA0 => (tabGet 0 r.sensorSel.toNat r.sensors).toNat
  | 0xA8 => r.skipCount.toNat
  | 0xB0 => r.lastShutdown.toNat
  | _ => if off < 0x40 ∧ off % 8 = 0 then b.fenceBits 1 (8 * off) 64 0 else 0

/-- State code of R651. -/
def UpdState.code : UpdState → Nat
  | .idle => 0
  | .receiving => 1
  | .verifying => 2
  | .staged => 3
  | .activating => 4

/-- SEQ of a record, zero where there is none. -/
def seqOf (r : Option LogRec) : Nat :=
  match r with
  | some x => x.seq
  | none => 0

/-- Ostler (R650, R651). -/
def Block.ostReg (b : Block) (off : Nat) : Nat :=
  let o := b.ost
  match off with
  | 0x00 => (b.flash.log.filter fun r => decide (o.logAck.toNat < r.seq)).length
  | 0x08 => o.tick % 2 ^ 64
  | 0x10 => o.nowLink.toNat
  | 0x18 => o.nowProg.toNat
  | 0x20 => seqOf b.flash.log.getLast?
  | 0x28 => seqOf b.flash.log.head?
  | 0x30 => o.logAck.toNat
  | 0x38 => o.logSel.toNat
  | 0x40 => o.logLost.toNat
  | 0x50 => o.updAddr.toNat
  | 0x58 => o.updLen
  | 0x60 => packed [(16, o.updSvn.toNat), (8, o.updState.code), (0, o.updResult.toNat)]
  | 0x68 => packed [(32, o.calWithdraw), (16, o.calDeferMs), (0, o.calPeriod)]
  | 0x70 => o.deferCount.toNat
  | _ =>
    if 0x80 ≤ off ∧ off < 0xC0 then
      match b.flash.log.find? fun r => r.seq == o.logSel.toNat with
      | some r => fieldAt r.bytes (off - 0x80) 8
      | none => 0
    else 0

/-- Test block (R664, R665). -/
def Block.testReg (b : Block) (off : Nat) : Nat :=
  let o := b.ost
  match off with
  | 0x00 => o.lbCtrl.toNat
  | 0x08 => packed [(16, b2n o.lbRefused), (0, o.lbLock.toNat)]
  | 0x10 => o.lbErr.toNat
  | 0x18 => o.testLast.toNat
  | 0x20 => packed [(63, b2n o.scanBusy), (16, o.scanOp), (0, o.scanLen)]
  | 0x28 => o.scanData.toNat
  | _ => 0

/-- What a register of the hub region reads, by its offset (R81, R83). A read of an RC register also clears it, which is
its own row's effect. Without main power only what the Ostler keeps is there. -/
def Block.hubRead (b : Block) (off : Nat) : Nat :=
  let o := off % 0x1000
  if !b.clk.mainOn then (if off = 0x1008 ∨ off = 0x1010 then b.clkReg o else 0)
  else
    match off / 0x1000 with
    | 0x0 =>
      match o with
      | 0x00 => b.statusWord (b.host.attnOf pf0Page)
      | 0x08 => b.host.orderApplied.toNat
      | 0x10 => b.host.orderConflict.toNat
      | 0x18 => b.host.dmaErr.toNat
      | _ => 0
    | 0x1 => b.clkReg o
    | 0x2 => b.tpReg o
    | 0x3 => b.skeReg o
    | 0x4 => if o < 0x100 then b.sluReg (o / 0x40) (o % 0x40) else 0
    | 0x5 => if o < 0x100 then b.txuReg o else if o < 0x200 then b.rnuReg ((o - 0x100) / 0x40) (o % 0x40) else 0
    | 0x6 => b.ctxReg o
    | 0x7 => if o < 0x200 then b.gtuReg (o / 0x80) (o % 0x80) else 0
    | 0x8 => b.mtReg o
    | 0x9 => b.sbReg o
    | 0xA => b.drReg o
    | 0xB => b.cbReg o
    | 0xC => b.secReg o
    | 0xD => b.relReg o
    | 0xE => b.ostReg o
    | 0xF => b.testReg o
    | _ => 0

/-! ### Writes of RW and WO registers without a row of their own -/

/-- Turnpike (R176 to R178). -/
def Block.tpPut (b : Block) (off v : Nat) : Block :=
  match off with
  | 0x00 => if 50 ≤ v % 128 ∧ v % 128 ≤ 100 then { b with tp := { b.tp with ceiling := v % 128 } } else b
  | 0x08 => if 1 ≤ v % 1024 ∧ v % 1024 ≤ 512 then { b with tp := { b.tp with floor := v % 1024 } } else b
  | 0x10 => { b with tp := { b.tp with queueLimit := BitVec.ofNat 32 v } }
  | 0x18 => { b with tp := { b.tp with queueAge := BitVec.ofNat 32 v } }
  | _ => b

/-- Sketch engines (R303, R304): each engine takes mode and turn length at its next turn boundary. -/
def Block.skePut (b : Block) (off v : Nat) : Block :=
  match off with
  | 0x00 => if b.sec.isolate then b else { b with ske := { b.ske with shared := bit v 0 } }
  | 0x08 =>
    let n := v % 2 ^ 21
    if 1024 ≤ n ∧ n ≤ 1048575 then { b with ske := { b.ske with turnLen := n } } else b
  | 0x10 => { b with ske := { b.ske with remoteWait := BitVec.ofNat 32 v } }
  | _ => b

/-- Gather unit of quarter q (R460). -/
def Block.gtuPut (b : Block) (q off v : Nat) : Block :=
  match off with
  | 0x18 => if v % 65536 = 0 then b else b.modGtu q fun g => { g with hotSample := BitVec.ofNat 16 v }
  | 0x20 => b.modGtu q fun g => { g with hotEvict := BitVec.ofNat 16 v }
  | _ => b

/-- Memory tiers (R482, R493). -/
def Block.mtPut (b : Block) (off v : Nat) : Block :=
  match off with
  | 0x00 => if b.sec.isolate then b else { b with mt := { b.mt with shared := bit v 0 } }
  | 0x08 =>
    let h := bits v 27 16
    let d := bits v 11 0
    if h ≤ 286 ∧ d ≤ 2240 ∧ b.mt.map.isEmpty then { b with mt := { b.mt with poolHbm := h, poolDdr := d } } else b
  | 0x10 =>
    if 1 ≤ bits v 23 16 ∧ 1 ≤ bits v 15 0 then
      { b with mt := { b.mt with demote := bits v 31 24, promote := bits v 23 16, period := bits v 15 0 } }
    else b
  | 0x30 => { b with mt := { b.mt with useSel := BitVec.ofNat 12 v } }
  | 0x58 => if b.mt.objBusy then b else { b with mt := { b.mt with objBusy := true } }
  | _ =>
    if 0x80 ≤ off ∧ off < 0xC0 then { b with mt := { b.mt with objCmd := putField b.mt.objCmd (off - 0x80) 8 v } } else b

/-- Strongbox (R501, R516). -/
def Block.sbPut (b : Block) (off v : Nat) : Block :=
  match off with
  | 0x00 => if b.sec.isolate then b else { b with sb := { b.sb with shared := bit v 0 } }
  | 0x10 => if b.sb.busy then b else { b with sb := { b.sb with busy := true, doneCount := 0 } }
  | 0x20 => { b with sb := { b.sb with chSel := BitVec.ofNat 12 v } }
  | _ => if 0x80 ≤ off ∧ off < 0xC0 then { b with sb := { b.sb with cmd := putField b.sb.cmd (off - 0x80) 8 v } } else b

/-- CB_DOM_OUI names a locally administered unicast prefix (R574): bits 1 and 0 of its first byte. -/
def ouiOk (v : Nat) : Bool := bit v 17 && !bit v 16

/-- Cibin link (R574, R578 to R580). -/
def Block.cbPut (b : Block) (off v : Nat) : Block :=
  match off with
  | 0x08 => if 1024 ≤ v % 2 ^ 32 then { b with cb := { b.cb with collTimeout := BitVec.ofNat 32 v } } else b
  | 0x10 => if 1 ≤ v % 16 then { b with cb := { b.cb with retryLimit := v % 16 } } else b
  | 0x18 => if 256 ≤ v % 2 ^ 32 then { b with cb := { b.cb with lostWait := BitVec.ofNat 32 v } } else b
  | 0x40 =>
    let b' := { b with cb := { b.cb with domEnable := BitVec.ofNat 4 v } }
    (if b.cb.domEnable = 0 ∧ b'.cb.domEnable ≠ 0 then b'.reportAll else b').loopCheck
  | 0x48 => { b with cb := { b.cb with etype := v % 65536 } }
  | 0x50 => if ouiOk v then { b with cb := { b.cb with oui := v % 2 ^ 24 } } else b
  | 0x58 =>
    let b' := { b with cb := { b.cb with domLead := v % 2 ^ 17 } }
    if v % 2 ^ 17 = b.cb.domLead then b' else b'.reportAll
  | 0x60 => if 1 ≤ v % 65536 then { b with cb := { b.cb with domRto := v % 65536 } } else b
  | _ => b

/-- Reliability and power (R632, R633). -/
def Block.relPut (b : Block) (off v : Nat) : Block :=
  match off with
  | 0x68 =>
    if 1 ≤ bits v 31 16 ∧ 1 ≤ bits v 15 0 then
      { b with rel := { b.rel with ceLimitMem := bits v 31 16, ceLimitCoach := bits v 15 0 } }
    else b
  | 0x80 =>
    if 2000 ≤ bits v 11 0 ∧ bits v 11 0 ≤ 4000 then
      { b with rel := { b.rel with autoRestart := bit v 12, capLimit := bits v 11 0 } }
    else b
  | 0x98 => { b with rel := { b.rel with sensorSel := BitVec.ofNat 7 v } }
  | _ => b

/-- Ostler (R650, R651). -/
def Block.ostPut (b : Block) (off v : Nat) : Block :=
  match off with
  | 0x38 => { b with ost := { b.ost with logSel := BitVec.ofNat 64 v } }
  | 0x50 => if v % 4096 = 0 then { b with ost := { b.ost with updAddr := BitVec.ofNat 64 v } } else b
  | 0x58 =>
    let n := v % 2 ^ 27
    if 4096 ≤ n ∧ n ≤ 67108864 then { b with ost := { b.ost with updLen := n } } else b
  | 0x68 =>
    let w := bits v 34 32
    let d := bits v 31 16
    let p := bits v 15 0
    if 1 ≤ w ∧ 1 ≤ d ∧ 16 ≤ p then { b with ost := { b.ost with calWithdraw := w, calDeferMs := d, calPeriod := p } }
    else b
  | _ => b

/-- Boundary scan (R661 to R664): HUB_SCAN_CTRL starts an operation; outside test entry and while BUSY a write is ignored. -/
def Block.testPut (b : Block) (off v : Nat) : Block :=
  match off with
  | 0x20 =>
    if b.testEntry ∧ !b.ost.scanBusy ∧ 1 ≤ v % 128 ∧ v % 128 ≤ 64 then
      { b with ost := { b.ost with scanBusy := true, scanOp := bits v 17 16, scanLen := v % 128 } }
    else b
  | 0x28 => if b.testEntry ∧ !b.ost.scanBusy then { b with ost := { b.ost with scanData := BitVec.ofNat 64 v } } else b
  | _ => b

/-- The write of a 64-bit register of the hub region (R11): RO and RC registers ignore it, RSVD bits are ignored (R8), and
the registers that have rows of their own are written by those. -/
def Block.hubPut (b : Block) (off v : Nat) : Block :=
  let o := off % 0x1000
  match off / 0x1000 with
  | 0x2 => b.tpPut o v
  | 0x3 => b.skePut o v
  | 0x5 =>
    if o = 8 then { b with txu := { b.txu with hostBound := BitVec.ofNat 32 v } }
    else if 0x100 ≤ o ∧ o < 0x200 ∧ o % 0x40 = 0 ∧ !b.sec.isolate then
      b.modRnu ((o - 0x100) / 0x40) fun u => { u with shared := bit v 0 }
    else b
  | 0x7 => if o < 0x200 then b.gtuPut (o / 0x80) (o % 0x80) v else b
  | 0x8 => b.mtPut o v
  | 0x9 => b.sbPut o v
  | 0xA => if o = 0 then { b with dr := { b.dr with hostBound := BitVec.ofNat 32 v } } else b
  | 0xB => b.cbPut o v
  | 0xC => if o = 0x10 then { b with sec := { b.sec with tenantSel := BitVec.ofNat 12 v } } else b
  | 0xD => b.relPut o v
  | 0xE => b.ostPut o v
  | 0xF => b.testPut o v
  | _ => b

/-- The write of a ring register of a doorbell page (R89, R92): ignored with CFG_BAD while ACTIVE. -/
def Page.put (p : Page) (off v : Nat) : Page :=
  if off = 0x08 ∨ off = 0x10 ∨ off = 0x18 ∨ off = 0x20 then
    if p.active then p.setErr 2
    else
      match off with
      | 0x08 => { p with reqBase := BitVec.ofNat 64 v }
      | 0x10 => { p with reqSize := BitVec.ofNat 5 v }
      | 0x18 => { p with rplBase := BitVec.ofNat 64 v }
      | _ => { p with rplSize := BitVec.ofNat 5 v }
  else p

/-- What an access of `size` bytes at `off` reads of a register file (R83): aligned accesses of 64 bits read the register, of 32 bits
one of its halves; any other reads zero. -/
def sizedRead (read : Nat → Nat) (off size : Nat) : Nat :=
  if size = 8 ∧ off % 8 = 0 then read off
  else if size = 4 ∧ off % 4 = 0 then read (off / 8 * 8) / 2 ^ (8 * (off % 8)) % 2 ^ 32
  else 0

/-- What a host read returns (R81 to R83): of a doorbell page or the order page, or of the hub region. -/
def Block.hostRead (b : Block) (page : Option Nat) (off size : Nat) : Nat :=
  sizedRead (match page with
    | some p => b.pageRead p
    | none => b.hubRead) off size

/-! ### Configuration space (R77, R79, R81) -/

/-- A BAR of a function (R81): its number, its size in bytes; every BAR is 64-bit and non-prefetchable. -/
structure Bar where
  index : Nat
  size : Nat
deriving DecidableEq, Repr

/-- What identifies a function: 0 is PF0, 1 to 256 the virtual functions (R79, R81). -/
structure FnConfig where
  vendor : Nat
  device : Nat
  classCode : Nat
  bars : List Bar
  rid : Nat
deriving DecidableEq, Repr

/-- First VF Offset and VF Stride of the SR-IOV capability (R77). -/
def vfOffset : Nat := 1
def vfStride : Nat := 1

/-- Routing identifier of a function (R79): virtual function v has PF0 + v. -/
def Block.routingId (b : Block) (fn : Nat) : Nat :=
  if fn = 0 then b.host.pcie.rid else b.host.pcie.rid + vfOffset + (fn - 1) * vfStride

/-- The configuration of a function, none where there is no such function: virtual functions answer while VF Enable is set. -/
def Block.fnConfig (b : Block) (fn : Nat) : Option FnConfig :=
  if fn = 0 then
    some { vendor := Config.vendorId, device := 0x9420, classCode := 0x120000, bars := [⟨0, 33554432⟩, ⟨2, 65536⟩]
           rid := b.routingId 0 }
  else if fn ≤ 256 ∧ b.host.vfEnable then
    some { vendor := Config.vendorId, device := 0x9421, classCode := 0x120000, bars := [⟨0, 1048576⟩], rid := b.routingId fn }
  else none

/-- Capabilities of R77 that a function shows. -/
inductive PciCap
  | sriov | ari | readiness | doe | aer | flr | tenBitTags | fourteenBitTags
deriving DecidableEq, Repr

/-- AER and FLR on every function; one DOE mailbox, on PF0, carrying DOE Discovery and CMA-SPDM; 14-bit tags in Flit mode. -/
def Block.pciCaps (b : Block) (fn : Nat) : List PciCap :=
  (if fn = 0 then [.sriov, .doe] else []) ++ [.ari, .readiness, .aer, .flr, .tenBitTags] ++
  (if b.host.pcie.flit then [.fourteenBitTags] else [])

/-- The BAR and page that hold a tenant's doorbell page (R82): virtual function and offset in its VF BAR0. -/
def doorbellPlace (t : Nat) : Nat × Nat := (t / 16 + 1, t % 16 * 0x10000)

/-- A 32-bit half of a register replaced (R83): the half at `off` of the register's value `old`. -/
def mergeHalf (old off v : Nat) : Nat :=
  if off % 8 = 0 then old / 2 ^ 32 * 2 ^ 32 + v % 2 ^ 32 else old % 2 ^ 32 + v % 2 ^ 32 * 2 ^ 32

/-- REGISTER_WRITE (R11, R83, R93): aligned accesses of 32 or 64 bits act; any other is ignored. -/
def execRegisterWrite (w : RegWrite) (s : State) : Host.Outcome State Fault Refusal :=
  s.run fun b =>
    let ok := (w.size == 8 && w.offset % 8 == 0) || (w.size == 4 && w.offset % 4 == 0)
    let reg := w.offset / 8 * 8
    if !b.mainUp || b.clk.resetNow || !ok then b
    else
      match w.page with
      | some p =>
        let v := if w.size = 8 then w.value.toNat else mergeHalf (b.pageRead p reg) w.offset w.value.toNat
        b.onPage p fun g => g.put reg v
      | none =>
        let v := if w.size = 8 then w.value.toNat else mergeHalf (b.hubRead reg) w.offset w.value.toNat
        b.hubPut reg v

end Sys2Proof.Machine
end

