-- ==== Sys2Proof/Machine/Tiers.lean ====
section
/-!
DEFINITION. Machine/Tiers.lean: object commands (R476 to R481) and the page migration engines (R482 to R487).
-/
namespace Sys2Proof.Machine

/-! ### Object commands: checks (R479) -/

/-- The fields of the command, in the order of R479: set RSVD bits, then bad fields and missing objects, then the tenant. -/
def Block.ocCheck (b : Block) : Option Code :=
  let r := b.mt.objCmd
  let op := b.ocOp
  let moves := op = 2 ∨ op = 3
  let rsvd := decide (fieldAt r 4 4 < 4096) && zeroAt r 0x1C 36 &&
    (op == 1 || bits b.ocWord 19 8 == 0) && (moves || (b.ocHost == 0 && b.ocLen == 0)) && (op != 4 || b.ocSize == 0)
  let t := b.ocTenant
  let o := b.ocObj
  let size := b.ocSize
  let bad : Bool :=
    if op = 1 then
      o == 0 || b.ocKind == 0 || decide (10 < b.ocKind) || size % 65536 != 0 || decide (size < 65536) || decide (2 ^ 35 < size)
    else if op = 2 ∨ op = 3 ∨ op = 4 then
      match b.liveObj? t o with
      | none => true
      | some x => o == 0 || (op != 4 && (size % 64 != 0 || b.ocHost % 64 != 0 || b.ocLen % 64 != 0 || decide (b.ocLen < 64) ||
          decide (2 ^ 31 < b.ocLen) || decide (x.size < size + b.ocLen)))
    else true
  if !rsvd then some Codes.badRsvd
  else if bad then some Codes.objBad
  else if (b.ten t).state ≠ TenState.on ∨ b.host.flrNow.contains (t / 16 + 1) then some Codes.mtTenantOff
  else none

/-- Run an object command that was started and passes its checks, when `mine` says it is of the row's operation. -/
def Block.objCommand (b : Block) (mine : Nat → Bool) (f : Block → Block) : Block :=
  if !b.mt.objBusy || !mine b.ocOp then b
  else
    match b.ocCheck with
    | some code => b.ocEnd code
    | none => f b

/-! ### CREATE (R479) -/

/-- Free runs of [lo, hi) between objects: start and length, rising. -/
def freeRuns (lo hi : Nat) (objs : List (Nat × Nat)) : List (Nat × Nat) :=
  let os := sortBy (fun x y => decide (x.1 ≤ y.1)) objs
  let r := os.foldl (fun (st : Nat × List (Nat × Nat)) o =>
    (max st.1 (o.1 + o.2), if st.1 < o.1 then st.2 ++ [(st.1, o.1 - st.1)] else st.2)) (lo, [])
  if r.1 < hi then r.2 ++ [(r.1, hi - r.1)] else r.2

/-- Free runs for objects in a quarter's part of a tier (R482). -/
def Block.objRuns (b : Block) (hbm : Bool) (q : Nat) : List (Nat × Nat) :=
  let base := partBase hbm q
  freeRuns (base + b.poolPages hbm q * 65536) (base + (b.partSize hbm q - reservedPart hbm)) (b.objsIn hbm q)

/-- The longest free run of a quarter. -/
def Block.longestRun (b : Block) (hbm : Bool) (q : Nat) : Nat := ((b.objRuns hbm q).map (·.2)).foldl max 0

/-- The quarter with the longest free run (R478), the lowest where several are as long. -/
def Block.roomiest (b : Block) (hbm : Bool) : Nat :=
  (List.range 4).foldl (fun best q => if b.longestRun hbm best < b.longestRun hbm q then q else best) 0

/-- The place of a new object: the top of the highest run that holds it (a DESIGN CHOICE of the placement). -/
def Block.placeObj (b : Block) (hbm : Bool) (q size : Nat) : Option Nat :=
  ((b.objRuns hbm q).filter fun r => decide (size ≤ r.2)).getLast?.map fun r => r.1 + r.2 - size

/-- OBJ_CREATE (R479, R488, R490 to R492). An OP outside the table is refused by its check here. -/
def execObjCreate (s : State) : Host.Outcome State Fault Refusal :=
  s.run fun b => b.objCommand (fun op => op == 1 || op == 0 || decide (4 < op)) fun b =>
    let t := b.ocTenant
    let o := b.ocObj
    let size := b.ocSize
    let hbm := b.ocHbm
    let u := b.use t
    let q := (b.ten t).quota
    let quarter := if b.ocAnyq then b.roomiest hbm else b.ocQuarter
    if (b.obj? t o).isSome then b.ocEnd Codes.objInUse
    else if hbm ∧ q.hbm < u.hbm + size then b.ocEnd Codes.mtQuotaHbm
    else if !hbm ∧ q.ddr < u.ddr + size then b.ocEnd Codes.mtQuotaDdr
    else
      match b.placeObj hbm quarter size with
      | none => b.ocEnd Codes.mtNoSpace
      | some base =>
        let x : Obj :=
          { kind := b.ocKind, hbm := hbm, quarter := quarter, size := size, base := base, state := .live, forced := false
            decl := none }
        (b.withNear t fun b => { b.eraseMem base size with
          mt := { b.mt with objs := tabSet (t * 4096 + o) x b.mt.objs } }).ocEnd Codes.ok

/-! ### WRITE, READ, RELEASE (R479, R480) -/

/-- A WRITE or READ moves its bytes on DH.14 or DH.15, which count them as a descriptor's (R23, R519, R542); with both fenced it is
refused as a descriptor is (R538). -/
def Block.ocMove (b : Block) (f : Block → Block) : Block :=
  match b.ocChannel with
  | none => b.ocEnd Codes.drFenced
  | some _ => f { b with dr := { b.dr with descCount := sat32 b.dr.descCount 1 } }

/-- Bytes that an object command wrote. -/
def Block.ocWrote (b : Block) : Block := { b with dr := { b.dr with byteCount := sat32 b.dr.byteCount b.ocLen } }

/-- OBJ_WRITE (R479, R480): the host's bytes, and what they declare where they reach the declaration block (R477). -/
def execObjWrite (data : HostRead) (decl : Option ModelDecl) (s : State) : Host.Outcome State Fault Refusal :=
  s.run fun b => b.objCommand (· == 2) fun b =>
    let t := b.ocTenant
    let o := b.ocObj
    match b.obj? t o with
    | none => b
    | some x =>
      if b.objBound t o ∨ 0 < b.objHolds t o then b.ocEnd Codes.objInUse
      else b.ocMove fun b =>
        let a := x.base + b.ocSize
        let declares := decide (b.ocSize < 4096) && decide (4 ≤ x.kind ∧ x.kind ≤ 7)
        match data with
        | .fault =>
          ((b.dmaFailed.eraseMem a b.ocLen).modObj t o fun x => { x with
            decl := if declares then none else x.decl }).ocEnd Codes.dmaError
        | .ok bytes =>
          (((b.ocWrote.dropMasks t o).writeMem a (fitBytes b.ocLen bytes)).modObj t o fun x =>
            { x with decl := if declares then decl else x.decl }).ocEnd Codes.ok

/-- OBJ_READ (R479): poisoned bytes reach the host poisoned (R612). -/
def execObjRead (s : State) : Host.Outcome State Fault Refusal :=
  s.run fun b => b.objCommand (· == 3) fun b =>
    match b.obj? b.ocTenant b.ocObj with
    | none => b
    | some x => b.ocMove fun b =>
      let a := x.base + b.ocSize
      if b.poisoned a b.ocLen then (b.emit (.poisonedWrite b.ocHost)).ocEnd Codes.memPoison
      else (b.ocWrote.emit (.write b.ocHost (b.readMem a b.ocLen) false)).ocEnd Codes.ok

/-- OBJ_RELEASE (R479, R480). -/
def execObjRelease (s : State) : Host.Outcome State Fault Refusal :=
  s.run fun b => b.objCommand (· == 4) fun b =>
    let t := b.ocTenant
    let o := b.ocObj
    if b.objBound t o then b.ocEnd Codes.objInUse
    else ((b.dropMasks t o).modObj t o fun x => { x with state := .releasing }).ocEnd Codes.ok

/-- OBJECT_RELEASE_COMPLETE (R479, R480, R587): nothing holds the RELEASING object any more; a CLOSING tenant may close. -/
def execObjectReleaseComplete (tenant obj : Nat) (s : State) : Host.Outcome State Fault Refusal :=
  s.run fun b => (b.freeObj tenant obj).closeTenant tenant

/-! ### Page migration (R486, R487) -/

/-- 2,097,152 NCLK in CCLK (R12, R484): 4 NCLK last 3 CCLK. -/
def holdCclk : Nat := 1572864

/-- The HBM pool page that the engine demotes (R486 step 2): among the 16 after its hand, the first whose decayed HEAT is
below DEMOTE, that may move, and whose tenant is not pinned. -/
def Block.demotee (b : Block) (q hand : Nat) : Option (Nat × PageEnt) :=
  let size := b.poolPages true q
  let places := (List.range 16).map fun i => (hand + 1 + i) % max 1 size
  let here := fun (p : Nat) => b.mt.map.find? fun e => e.2.hbm && e.2.quarter == q && e.2.page == p
  let fit := fun (e : Nat × PageEnt) =>
    decide (e.2.decayed b.heatPeriod < b.mt.demote) && !e.2.noMove && !e.2.migrating && !(b.ten e.2.tenant).quota.pinHbm
  places.findSome? fun p => match here p with
    | some e => if fit e then some e else none
    | none => none

/-- A move begins (R487): MIGRATING set, DIRTY clear. -/
def Block.beginMove (b : Block) (q page : Nat) (toHbm : Bool) (newPage : Nat) (promote : Option Nat) : Block :=
  match tabFind? page b.mt.map with
  | none => b
  | some e =>
    let m : PageMove := { page := page, toHbm := toHbm, newPage := newPage, freed := false, since := b.clk.cclk, promoteNext := promote }
    { b with mt := { b.mt with
        map := tabSet page { e with migrating := true, dirty := false } b.mt.map
        moves := tabSet q m b.mt.moves } }

/-- PAGE_MOVE (R486, R487): the engine of a quarter takes its candidate page. -/
def execPageMove (quarter page : Nat) (s : State) : Host.Outcome State Fault Refusal :=
  s.run fun b =>
    if tabFind? quarter b.mt.candidate ≠ some page ∨ (tabFind? quarter b.mt.moves).isSome ∨ b.fenced 8 quarter then b
    else
      let b := { b with mt := { b.mt with candidate := tabErase quarter b.mt.candidate } }
      match b.freePoolPage true quarter with
      | some p => b.beginMove quarter page true p none
      | none =>
        let hand := tabGet 0 quarter b.mt.hand
        let b' := { b with mt := { b.mt with hand := tabSet quarter ((hand + 16) % max 1 (b.poolPages true quarter)) b.mt.hand } }
        match b.demotee quarter hand, b.freePoolPage false quarter with
        | some e, some p =>
          { b.beginMove quarter e.1 false p (some page) with
            mt := { (b.beginMove quarter e.1 false p (some page)).mt with hand := tabSet quarter e.2.page b.mt.hand } }
        | _, _ => b'

/-- PAGE_MOVE_COMMIT (R486, R487): after the hold time the copy commits, or is abandoned when a write came between; a
demotion's page then takes the page to be promoted. -/
def execPageMoveCommit (quarter : Nat) (s : State) : Host.Outcome State Fault Refusal :=
  s.run fun b =>
    match tabFind? quarter b.mt.moves with
    | none => b
    | some m =>
      match tabFind? m.page b.mt.map with
      | none => b
      | some e =>
        if b.clk.cclk < m.since + holdCclk then b
        else
          let b := { b with mt := { b.mt with moves := tabErase quarter b.mt.moves } }
          if e.dirty then
            { b with mt := { b.mt with
                map := tabSet m.page { e with migrating := false } b.mt.map
                held := b.mt.held ++ [⟨m.toHbm, quarter, m.newPage, b.clk.cclk⟩]
                abandonCount := sat32 b.mt.abandonCount 1 } }
          else
            let b := { b with mt := { b.mt with
                map := tabSet m.page { e with migrating := false, hbm := m.toHbm, page := m.newPage } b.mt.map
                migrateCount := sat32 b.mt.migrateCount 1 } }
            let next := match m.promoteNext with
              | none => none
              | some p => match tabFind? p b.mt.map with
                | some x => if x.hbm || x.migrating || x.noMove then none else some p
                | none => none
            match next with
            | some p => b.beginMove quarter p true e.page none
            | none => { b with mt := { b.mt with held := b.mt.held ++ [⟨e.hbm, quarter, e.page, b.clk.cclk⟩] } }

/-- PAGE_HOLD_EXPIRY (R170, R484): pool pages of that number whose hold time has passed return to their pool, and steps that
wait for pages try again. -/
def execPageHoldExpiry (page : Nat) (s : State) : Host.Outcome State Fault Refusal :=
  s.run fun b =>
    ({ b with mt := { b.mt with
        held := b.mt.held.filter fun h => !(h.page == page && decide (h.since + holdCclk ≤ b.clk.cclk)) } }).retrySteps

end Sys2Proof.Machine
end

