-- ==== Sys2Proof/Machine/Strongbox.lean ====
section
/-!
DEFINITION. Machine/Strongbox.lean: the strongbox (R495 to R515): slot commands, the write buffer, read turns and program
turns of the dies, recovery, garbage collection, the map checkpoint.
-/
namespace Sys2Proof.Machine

/-! ### Dies, stripes and places (R495, R496) -/

/-- The numbering of dies: 16 × channel + position on it (a DESIGN CHOICE). -/
def dieChannel (d : Nat) : Nat := d / 16

/-- Page `page` of block `block` on die `d` is its stripe's parity page (R496). -/
def parityPage (d block page : Nat) : Bool := (block + page) % 16 == dieChannel d % 16

/-- The plane of a block (a DESIGN CHOICE: blocks rotate over the four planes). -/
def planeOf (block : Nat) : Nat := block % 4

/-- The die or its channel is fenced (R508). -/
def Block.dieFenced (b : Block) (d : Nat) : Bool := b.fenced 11 d || b.fenced 12 (dieChannel d)

/-- The other 15 dies of a die's set (R496): the same position on the other channels of its half. -/
def setMates (d : Nat) : List Nat :=
  ((List.range 16).map fun i => 16 * (16 * (dieChannel d / 16) + i) + d % 16).filter (· != d)

/-- A rebuild of what lies on a die meets a second lost member of its stripe (R507, R508). -/
def Block.mateFenced (b : Block) (d : Nat) : Bool := (setMates d).any fun m => b.dieFenced m

def blockKey (d block : Nat) : Nat := d * 8192 + block

/-- Held slots that lie in a block. -/
def Block.slotsIn (b : Block) (d block : Nat) : List (Nat × SbSlot) :=
  b.sb.slots.filter fun x => match x.2.place with
    | some p => p.die == d && p.block == block
    | none => false

/-! ### Commands (R500, R501) -/

/-- A slot command as the controller sees it: the kernel's command or none for the command path, its tenant and fields. -/
structure SlotCmd where
  cmd : Option UnitCmd
  tenant : Nat
  bytes : List Byte
deriving DecidableEq, Repr

def SlotCmd.op (c : SlotCmd) : Nat := fieldAt c.bytes 0 1
def SlotCmd.count (c : SlotCmd) : Nat := fieldAt c.bytes 4 4
def SlotCmd.slot (c : SlotCmd) : Nat := fieldAt c.bytes 8 5
def SlotCmd.addr (c : SlotCmd) : Nat := fieldAt c.bytes 0x10 8

/-- The part of the write buffer and the owner of read turns: the coachman of the kernel's context, 8 the command path
(R503, R505). -/
def SlotCmd.owner (c : SlotCmd) : Nat := match c.cmd with
  | some k => coachman k.ctx
  | none => 8

/-- The command that a source gives now: SB_CMD0 to SB_CMD7 while BUSY, or the head of STATION 0xA. -/
def Block.slotCmd (b : Block) (src : SlotSource) : Option SlotCmd :=
  match src with
  | .cmdPath =>
    -- a READ, WRITE or TO_OBJ that has begun is a job or a write of its own
    if b.sb.busy && !b.sb.jobs.any (fun j => j.cmd.isNone) && !(tabGet [] 8 b.sb.writes).any (fun w => w.cmd.isNone) then
      some ⟨none, fieldAt b.sb.cmd 0 4 / 2 ^ 20, b.sb.cmd⟩
    else none
  | .kernel => b.sb.queue.head?.map fun c => ⟨some c, c.tenant, c.bytes⟩

/-- The command ends: its record, or SB_CMD_STATUS (R500, R516). -/
def Block.slotEnd (b : Block) (cmd : Option UnitCmd) (done : Nat) (code : Code) : Block :=
  match cmd with
  | some c => b.cmdCode c code
  | none => { b with sb := { b.sb with busy := false, code := code, doneCount := done } }

/-- Held slots of a range. -/
def Block.heldIn (b : Block) (t slot n : Nat) : Nat :=
  (b.sb.slots.filter fun x => decide (slotKey t slot ≤ x.1) && decide (x.1 < slotKey t slot + n)).length

/-- A tenant is not enabled or its function is in FLR (R501 check 3). -/
def Block.tenantOff (b : Block) (t : Nat) : Bool :=
  (b.ten t).state != TenState.on || b.host.flrNow.contains (t / 16 + 1)

/-- The target of TO_OBJ (R501 check 9): its whole range in a LIVE object that R480 does not protect. -/
def Block.toObjBad (b : Block) (c : SlotCmd) : Option Code :=
  let n := 4096 * c.count
  let o := c.addr / 2 ^ 35
  let outside : Bool := match c.cmd with
    | some k => !inRanges k.ranges c.addr n
    | none => false
  if 2 ^ 47 ≤ c.addr ∨ (b.xlate c.tenant c.addr n).isNone ∨ outside then some Codes.objBad
  else if b.objBound c.tenant o ∨ 0 < b.objHolds c.tenant o then some Codes.objInUse
  else none

/-- The first check of R501 that a command fails. The command has left its queue: it does not hold its own object. -/
def Block.slotCheck (b : Block) (c : SlotCmd) : Option Code :=
  let fresh := c.count - b.heldIn c.tenant c.slot c.count
  let u := (b.use c.tenant).slots
  let kernelBad : Bool := match c.cmd with
    | some k =>
      -- a target outside the task's output ranges or a source that does not translate (R185, R474)
      (c.op == 1 && (!inRanges k.ranges c.addr (4096 * c.count) || (b.xlate c.tenant c.addr (4096 * c.count)).isNone)) ||
      (c.op == 2 && (b.xlate c.tenant c.addr (4096 * c.count)).isNone)
    | none => false
  if bits (fieldAt c.bytes 0 4) 19 8 ≠ 0 ∨ !zeroAt c.bytes 0xD 3 ∨ !zeroAt c.bytes 0x18 40 ∨
      (c.cmd.isSome ∧ fieldAt c.bytes 0 4 / 2 ^ 20 ≠ 0) then some Codes.badRsvd
  else if c.op = 0 ∨ 4 < c.op ∨ c.count = 0 ∨ (c.op ≠ 3 ∧ 65536 < c.count) ∨ c.addr % 4096 ≠ 0 ∨
      (c.op = 3 ∧ c.addr ≠ 0) ∨ 2 ^ 40 < c.slot + c.count ∨ kernelBad then some Codes.sbOperand
  else if b.tenantOff c.tenant then some Codes.mtTenantOff
  else if (c.op = 2 ∨ c.op = 3) ∧ passageBase < c.slot + c.count then some Codes.sbSlotRange
  else if c.op = 2 ∧ b.sb.readOnly then some Codes.sbRo
  else if c.op = 2 ∧ (b.ten c.tenant).quota.slots < u + fresh ∧ 0 < fresh then some Codes.mtQuotaSlots
  else if c.op = 2 ∧ slotLimit < b.sb.slots.length + fresh ∧ 0 < fresh then some Codes.sbFull
  else if c.op = 2 ∧ chunkLimit < chunksOf b.sb.slots + b.newChunks (slotKey c.tenant c.slot) c.count ∧
      0 < b.newChunks (slotKey c.tenant c.slot) c.count then some Codes.sbMapFull
  else if c.op = 4 then b.toObjBad c
  else none

/-- Run a source's slot command through `f` when it is of operation `op`, or is one that fails its checks: the first
failure ends it. -/
def Block.onSlot (b : Block) (src : SlotSource) (op : Nat) (f : SlotCmd → Block → Block) : Block :=
  match b.slotCmd src with
  | none => b
  | some c =>
    let b' := match src with
      | .kernel => { b with sb := { b.sb with queue := b.sb.queue.drop 1 } }
      | .cmdPath => b
    -- the command does not stand among the holders while it is checked
    match b'.slotCheck c with
    | some code => if c.op = op ∨ c.op = 0 ∨ 4 < c.op then b'.slotEnd c.cmd 0 code else b
    | none => if c.op = op then f c b' else b

/-! ### DISCARD (R501) -/

/-- SLOT_DISCARD (R501, R502): the held slots of the range are held no more. -/
def execSlotDiscard (src : SlotSource) (s : State) : Host.Outcome State Fault Refusal :=
  s.run fun b => b.onSlot src 3 fun c b =>
    let lo := slotKey c.tenant c.slot
    (b.dropSlots fun k _ => decide (lo ≤ k) && decide (k < lo + c.count)).slotEnd c.cmd c.count Codes.ok

/-! ### WRITE (R501 to R503) -/

/-- Slots of a part of the write buffer that have not been programmed (R503). -/
def Block.inBuffer (b : Block) (part : Nat) : Nat :=
  (b.sb.slots.filter fun x => x.2.part == part && x.2.place.isNone).length

/-- Slots that a part of 4 MiB holds (R503). -/
def partSlots : Nat := 1024

/-- Accept the slots of one write while its part has room (R502, R503). -/
def Block.acceptOne (b : Block) (part : Nat) (w : SbWrite) : List (Nat × List Byte) → Block × SbWrite
  | [] => (b, { w with rest := [] })
  | x :: rest =>
    if partSlots ≤ b.inBuffer part then (b, { w with rest := x :: rest })
    else
      let b := b.checkPlace
      if b.sb.readOnly then (b, { w with rest := [], code := Codes.sbRo })
      else
        let b := b.withNear w.tenant fun b => b.putSlot part w.tenant x.1 none x.2
        b.acceptOne part { w with rest := rest, done := w.done + 1 } rest

/-- Accept what a part has room for, the oldest write first. -/
def Block.acceptPart (b : Block) (part : Nat) : Block :=
  let r := (tabGet [] part b.sb.writes).foldl (fun (st : Block × List SbWrite) w =>
    if st.2.any fun v => !v.rest.isEmpty then (st.1, st.2 ++ [w])
    else
      let a := st.1.acceptOne part w w.rest
      (a.1, st.2 ++ [a.2])) (b, [])
  { r.1 with sb := { r.1.sb with writes := tabSet part r.2 r.1.sb.writes } }

/-- The slots that a source's bytes reach: the whole slots before the first failure, and the failure's code (R501). -/
def Block.writeSource (b : Block) (c : SlotCmd) (data : HostRead) : List (List Byte) × Code :=
  match c.cmd with
  | none =>
    match data with
    | .fault => ([], Codes.dmaError)
    | .ok bytes =>
      let n := min c.count (bytes.length / 4096)
      ((List.range n).map fun i => (bytes.drop (4096 * i)).take 4096, if n < c.count then Codes.dmaError else Codes.ok)
  | some k =>
    (List.range c.count).foldl (fun (st : List (List Byte) × Code) i =>
      if st.2 ≠ Codes.ok then st
      else
        match b.fetchTask k Codes.sbOperand (c.addr + 4096 * i) 4096 with
        | .ok x => (st.1 ++ [x], Codes.ok)
        | .error e => (st.1, e)) ([], Codes.ok)

/-- SLOT_WRITE (R501 to R503): the slots whose bytes arrive go to the part of the write buffer, as far as it has room. Host
bytes that end early are a host read that fails there. -/
def execSlotWrite (src : SlotSource) (data : HostRead) (s : State) : Host.Outcome State Fault Refusal :=
  s.run fun b => b.onSlot src 2 fun c b =>
    let r := b.writeSource c data
    let b := if r.2 = Codes.dmaError then b.dmaFailed else b
    let w : SbWrite :=
      { tenant := c.tenant, cmd := c.cmd, rest := r.1.zipIdx.map fun x => (c.slot + x.2, x.1), done := 0, code := r.2 }
    let b := { b with sb := { b.sb with writes := tabSet c.owner (tabGet [] c.owner b.sb.writes ++ [w]) b.sb.writes } }
    b.acceptPart c.owner

/-- WRITE_COMPLETION (R503): the oldest write of a part, all of whose slots and map entries are in the buffer, is reported. -/
def execWriteCompletion (part : Nat) (s : State) : Host.Outcome State Fault Refusal :=
  s.run fun b =>
    match tabGet [] part b.sb.writes with
    | w :: ws =>
      if !w.rest.isEmpty then b
      else
        let b := { b with sb := { b.sb with writes := tabSet part ws b.sb.writes } }
        b.slotEnd w.cmd w.done w.code
    | [] => b

/-! ### READ and TO_OBJ (R501, R502, R507) -/

/-- The job of a number. -/
def Block.job (b : Block) (id : Nat) : Option SbJob := b.sb.jobs.find? fun j => j.id == id

def Block.dropJob (b : Block) (id : Nat) : Block :=
  { b with sb := { b.sb with
      jobs := b.sb.jobs.filter fun j => j.id != id
      reads := tabMap (fun _ rs => rs.filter fun r => r.job != id) b.sb.reads } }

/-- One slot's bytes reach the destination of a job; none where the target no longer translates. -/
def Block.deliverSlot (b : Block) (j : SbJob) (i : Nat) (bytes : List Byte) : Option Block :=
  let a := j.addr + 4096 * i
  match j.cmd with
  | some k => b.writeTask k a bytes
  | none => if j.op = 1 then some (b.emit (.write a bytes false)) else b.writeV j.tenant a bytes

/-- TO_OBJ that reached the declaration block of a model object leaves the fields it declares (R477). -/
def Block.toObjDecl (b : Block) (j : SbJob) : Block :=
  let o := j.addr / 2 ^ 35
  match b.obj? j.tenant o with
  | some x =>
    let b := b.dropMasks j.tenant o
    if j.addr % 2 ^ 35 < 4096 ∧ 4 ≤ x.kind ∧ x.kind ≤ 7 then b.modObj j.tenant o fun x => { x with decl := j.decl } else b
  | none => b

/-- Deliver a job's slots in order as far as they have come; `fuel` bounds how many. -/
def Block.deliver (b : Block) (j : SbJob) : Nat → Block × SbJob × Option Code
  | 0 => (b, j, none)
  | fuel + 1 =>
    match tabFind? j.next j.buf with
    | none => (b, j, none)
    | some bytes =>
      match b.deliverSlot j j.next bytes with
      | none => (b, j, some (if j.op = 4 then Codes.objBad else Codes.sbOperand))
      | some b => b.deliver { j with next := j.next + 1, buf := tabErase j.next j.buf } fuel

/-- A job goes on after slots of it were read: delivered, and ended after its last slot. -/
def Block.jobStep (b : Block) (id : Nat) : Block :=
  match b.job id with
  | none => b
  | some j =>
    let r := b.deliver j j.buf.length
    let b := { r.1 with sb := { r.1.sb with jobs := r.1.sb.jobs.map fun x => if x.id = id then r.2.1 else x } }
    match r.2.2 with
    | some code => (b.dropJob id).slotEnd j.cmd r.2.1.next code
    | none =>
      if r.2.1.next = j.count then
        let b := if j.op = 4 then b.toObjDecl j else b
        (b.dropJob id).slotEnd j.cmd j.count j.code
      else b

/-- A slot of a job was read. -/
def Block.gotSlot (b : Block) (id i : Nat) (bytes : List Byte) : Block :=
  { b with sb := { b.sb with jobs := b.sb.jobs.map fun j =>
      if j.id = id then { j with buf := tabSet i bytes j.buf } else j } }

/-- A slot of a job is lost: the command ends with SB_LOST after the slots that came before it (R507). -/
def Block.slotLost (b : Block) (id : Nat) : Block :=
  let b := b.jobStep id
  match b.job id with
  | none => b
  | some j => (b.dropJob id).slotEnd j.cmd j.next Codes.sbLost

/-- Look one slot up in the map for a job (R502): bytes in the write buffer come at once, bytes on a die by a read turn, a slot
not held as undefined bytes. -/
def Block.lookSlot (b : Block) (id owner admitAt tenant slot i : Nat) : Block :=
  let count := fun (b : Block) => { b with sb := { b.sb with readCount := sat32 b.sb.readCount 1 } }
  match b.slot? tenant slot with
  | none =>
    let bytes := (List.range 4096).map fun k => Config.freeByte b.epoch (slotKey tenant slot * 4096 + k)
    let b := (b.gotSlot id i bytes).nextEpoch
    { b with sb := { b.sb with jobs := b.sb.jobs.map fun j => if j.id = id then { j with code := Codes.sbNotHeld } else j } }
  | some x =>
    if x.lost then (count b).slotLost id
    else
      match x.place with
      | none => (count b).gotSlot id i x.data
      | some p =>
        let r : SbRead :=
          { owner := owner, job := id, index := i, tenant := tenant, slot := slot, data := x.data, place := p
            recovery := false, admitAt := admitAt, seq := b.sb.nextSeq }
        { b with sb := { b.sb with
            nextSeq := b.sb.nextSeq + 1, reads := tabSet p.die (tabGet [] p.die b.sb.reads ++ [r]) b.sb.reads } }

/-- A READ or TO_OBJ begins: its slots are looked up in order (R501, R502). -/
def Block.startJob (b : Block) (c : SlotCmd) (decl : Option ModelDecl) : Block :=
  let id := b.sb.nextSeq
  let j : SbJob :=
    { id := id, cmd := c.cmd, op := c.op, tenant := c.tenant, addr := c.addr, count := c.count, next := 0, buf := []
      code := Codes.ok, decl := decl }
  let admitAt := match c.cmd with
    | some k => (b.ctx k.ctx).admitAt
    | none => 0
  let b := { b with sb := { b.sb with jobs := b.sb.jobs ++ [j], nextSeq := id + 1 } }
  let b := (List.range c.count).foldl (fun (b : Block) i =>
    if (b.job id).isNone then b else b.lookSlot id c.owner admitAt c.tenant (c.slot + i) i) b
  b.jobStep id

/-- SLOT_READ (R501, R502). -/
def execSlotRead (src : SlotSource) (s : State) : Host.Outcome State Fault Refusal :=
  s.run fun b => b.onSlot src 1 fun c b => b.startJob c none

/-- TO_OBJ (R501): the slots become bytes of an object; `decl` is what they declare where they reach its declaration block
(R477). -/
def execToObj (src : SlotSource) (decl : Option ModelDecl) (s : State) : Host.Outcome State Fault Refusal :=
  s.run fun b => b.onSlot src 4 fun c b => b.startJob c decl

/-! ### Read turns (R505, R507) -/

/-- Reads of an owner on a die, in the order in which its turn takes them (R505). -/
def Block.ownerReads (b : Block) (d owner : Nat) : List SbRead :=
  let before := fun (x y : SbRead) =>
    let k := fun (r : SbRead) => [if r.recovery then 0 else 1, r.admitAt, r.seq]
    decide (List.Lex (· < ·) (k x) (k y)) || k x == k y
  sortBy before ((tabGet [] d b.sb.reads).filter fun r => r.owner == owner)

/-- Up to three reads on distinct planes, in order (R505). -/
def pickPlanes : List SbRead → List SbRead → List SbRead
  | acc, [] => acc
  | acc, r :: rest =>
    if acc.length < 3 ∧ !acc.any (fun x => planeOf x.place.block == planeOf r.place.block) then pickPlanes (acc ++ [r]) rest
    else pickPlanes acc rest

/-- The owner that a read turn serves (R505): its own; in shared mode, where that has nothing waiting, the next in rotation
that has. -/
def Block.turnOwner (b : Block) (d : Nat) : Nat :=
  let own := (tabGet 0 d b.sb.turns / 2 + d) % 9
  if b.sb.shared then
    (((List.range 9).map fun i => (own + i) % 9).find? fun o => !(b.ownerReads d o).isEmpty).getD own
  else own

/-- What rebuilt or lost bytes do to the slot that was read, if it still lies there (R507). -/
def Block.modSlotAt (b : Block) (r : SbRead) (f : SbSlot → SbSlot) : Block :=
  match b.slot? r.tenant r.slot with
  | some x =>
    if x.place = some r.place then
      { b with sb := { b.sb with slots := tabSet (slotKey r.tenant r.slot) (f x) b.sb.slots } }
    else b
  | none => b

/-- The bytes of a slot read come to its command, or to the step or work that fetches the record (R269, R274). A fetch that has been
given up ends with no one to take its bytes. -/
def Block.came (b : Block) (r : SbRead) : Block :=
  match r.fetch with
  | some (n, id) => b.recordRead n id r.data
  | none => (b.gotSlot r.job r.index r.data).jobStep r.job

/-- One slot read of a turn ends (R507, R508): a read on a fenced die is served by the rebuild, which fails where another die of the set
is fenced too. -/
def Block.endRead (b : Block) (r : SbRead) (res : ReadResult) : Block :=
  let d := r.place.die
  let out := fun (b : Block) =>
    { b with sb := { b.sb with
        reads := tabSet d ((tabGet [] d b.sb.reads).filter fun x => x.seq != r.seq) b.sb.reads
        readCount := sat32 b.sb.readCount 1 } }
  let rebuilt := fun (b : Block) =>
    let b := (out b).modSlotAt r fun x => { x with place := none }
    let b := { b with sb := { b.sb with rebuildCount := sat32 b.sb.rebuildCount 1 } }
    b.came r
  let rebuilds : Bool := match res with
    | .good => b.dieFenced d
    | .retry => r.recovery || b.dieFenced d
    | .rebuilt => true
    | .lost => false
  match if rebuilds && b.mateFenced d then .lost else res with
  | .lost =>
    let b := ((out b).modSlotAt r fun x => { x with lost := true }).log 0x09 2 Codes.sbLost none (some r.tenant) r.slot
    match r.fetch with
    | some (n, id) => b.recordLost n id
    | none => b.slotLost r.job
  | .rebuilt => rebuilt b
  | .retry =>
    if r.recovery || b.dieFenced d then rebuilt b
    else
      { b with sb := { b.sb with reads := tabSet d ((tabGet [] d b.sb.reads).map fun x =>
          if x.seq = r.seq then { x with recovery := true } else x) b.sb.reads } }
  | .good => if b.dieFenced d then rebuilt b else (out b).came r

/-- The turn after this one (R505). -/
def Block.nextTurn (b : Block) (d : Nat) : Block :=
  { b with sb := { b.sb with turns := tabSet d ((tabGet 0 d b.sb.turns + 1) % 18) b.sb.turns } }

/-- READ_TURN (R505 to R508): an even turn of die `die` takes up to three reads of its owner; `results` says how they end. -/
def execReadTurn (die : Nat) (results : List ReadResult) (s : State) : Host.Outcome State Fault Refusal :=
  s.run fun b =>
    if tabGet 0 die b.sb.turns % 2 = 1 then b
    else
      let rs := pickPlanes [] (b.ownerReads die (b.turnOwner die))
      let b := rs.zipIdx.foldl (fun (b : Block) x =>
        -- a command that an earlier read of the turn ended has taken its reads back
        if (tabGet [] die b.sb.reads).any fun y => y.seq == x.1.seq then b.endRead x.1 (results.getD x.2 .good) else b) b
      (b.nextTurn die).driveWorks

/-! ### Program turns (R505, R508 to R511) -/

/-- The next page to program in a block; none: the block is full or retired. An erased block has page 0. -/
def Block.openPage (b : Block) (d block : Nat) : Option Nat :=
  let k := blockKey d block
  let p := tabGet 0 k b.sb.blocks
  if 4968 ≤ block ∨ b.sb.retired.contains k ∨ 1536 ≤ p then none else some p

/-- A page of a block can be programmed now: it is the block's next one, and a first page finds an erased or a spare block;
none left makes the strongbox READ_ONLY (R511). -/
def Block.takePage (b : Block) (d block page : Nat) : Option Block :=
  let k := blockKey d block
  if b.openPage d block ≠ some page ∨ b.dieFenced d then none
  else if page ≠ 0 then some { b with sb := { b.sb with blocks := tabSet k (page + 1) b.sb.blocks } }
  else if 0 < b.sb.erased then
    some { b with sb := { b.sb with blocks := tabSet k 1 b.sb.blocks, erased := b.sb.erased - 1 } }
  else if 0 < b.sb.spare then
    some { b with sb := { b.sb with blocks := tabSet k 1 b.sb.blocks, spare := b.sb.spare - 1 } }
  else none

/-- A block is retired and replaced from the spare blocks (R509). -/
def Block.retireBlock (b : Block) (d block : Nat) : Block :=
  { b with sb := { b.sb with
      retired := blockKey d block :: b.sb.retired.filter (· != blockKey d block), spare := b.sb.spare - 1 } }

/-- Bytes of a page (R495), counted in SB_WRITE_BYTES with parity. -/
def pageBytes : Nat := 16384

/-- Give slots their places in a programmed page. -/
def Block.placeSlots (b : Block) (d block page : Nat) (keys : List Nat) : Block :=
  { b with sb := { b.sb with
      writeBytes := sat32 b.sb.writeBytes pageBytes
      slots := keys.zipIdx.foldl (fun t k => match tabFind? k.1 t with
        | some x => tabSet k.1 { x with place := some ⟨d, block, page, k.2⟩ } t
        | none => t) b.sb.slots } }

/-- The slots that a program of a part takes (R503, R508): the oldest in its buffer, else while the copy of R508 is in progress
those that lie on fenced dies. -/
def Block.toProgram (b : Block) (part : Nat) : List Nat :=
  let older := fun (x y : Nat × SbSlot) => decide (x.2.wseq ≤ y.2.wseq)
  let buf := b.sb.slots.filter fun x => x.2.part == part && x.2.place.isNone
  let gone := b.sb.slots.filter fun x => !x.2.lost && match x.2.place with
    | some p => b.dieFenced p.die
    | none => false
  let l := if buf.isEmpty then (if b.sb.rebuilding then gone else []) else buf
  ((sortBy older l).take 4).map (·.1)

/-- Erase count of a block. -/
def Block.eraseCount (b : Block) (k : Nat) : Nat := tabGet 0 k b.sb.erases

/-- The victim of R510 on a die: a closed block with the fewest held slots; or, where erase counts differ by more than 200, the
least-erased block. -/
def Block.victimOk (b : Block) (d block : Nat) : Bool :=
  let k := blockKey d block
  let closed := b.sb.blocks.filter fun x => x.1 / 8192 == d && decide (1536 ≤ x.2) && !b.sb.retired.contains x.1
  let n := (b.slotsIn d block).length
  closed.any (fun x => x.1 == k) &&
  (closed.all (fun x => decide (n ≤ (b.slotsIn d (x.1 % 8192)).length)) ||
   (b.sb.erases.any (fun x => decide (b.eraseCount k + 200 < x.2)) &&
    closed.all fun x => decide (b.eraseCount k ≤ b.eraseCount x.1)))

/-- No waiting read keeps a block from erasure (R502). -/
def Block.readHolds (b : Block) (d block : Nat) : Bool := (tabGet [] d b.sb.reads).any fun r => r.place.block == block

/-- What a program turn does (R505, R508 to R510). Work that the die's state does not allow is dropped. -/
def Block.programWork (b : Block) (d : Nat) : ProgramWork → Block
  | .program part block page ok =>
    match b.takePage d block page with
    | none => if (b.toProgram part).isEmpty then b else b.checkPlace
    | some b' =>
      if !ok then b'.retireBlock d block
      else
        (b'.placeSlots d block page (if parityPage d block page then [] else b'.toProgram part)).acceptPart part
  | .erase block ok =>
    let k := blockKey d block
    if tabFind? k b.sb.blocks = none ∨ b.sb.retired.contains k ∨ !(b.slotsIn d block).isEmpty ∨ b.readHolds d block then b
    else if !ok then ({ b with sb := { b.sb with blocks := tabErase k b.sb.blocks } }).retireBlock d block
    else { b with sb := { b.sb with
      blocks := tabErase k b.sb.blocks, erased := b.sb.erased + 1, erases := tabSet k (b.eraseCount k + 1) b.sb.erases } }
  | .collect block toBlock toPage ok =>
    if !b.victimOk d block ∨ block = toBlock then b
    else
      match b.takePage d toBlock toPage with
      | none => b
      | some b' =>
        if !ok then b'.retireBlock d toBlock
        else
          let keys := ((b'.slotsIn d block).filter fun x => !x.2.lost).map (·.1)
          b'.placeSlots d toBlock toPage (if parityPage d toBlock toPage then [] else keys.take 4)
  | .rebuildDone =>
    let left := b.sb.slots.any fun x => !x.2.lost && match x.2.place with
      | some p => b.dieFenced p.die
      | none => false
    if left then b else { b with sb := { b.sb with rebuilding := false } }

/-- A checkpoint under way is written with the next program turn (R512): the changes journaled before it began are in it. -/
def Block.endCheckpoint (b : Block) : Block :=
  if b.sb.ckpt then { b with sb := { b.sb with ckpt := false, journal := b.sb.journal - b.sb.ckptFrom, ckptFrom := 0 } } else b

/-- PROGRAM_TURN (R505, R508 to R512): an odd turn of die `die`. -/
def execProgramTurn (die : Nat) (work : ProgramWork) (s : State) : Host.Outcome State Fault Refusal :=
  s.run fun b => if tabGet 0 die b.sb.turns % 2 = 0 then b else ((b.programWork die work).endCheckpoint).nextTurn die

/-- MAP_CHECKPOINT (R512, R517): a checkpoint of the map begins, which takes in every change journaled so far; it is being written until
the next program turn (DESIGN CHOICE, assumption 127). -/
def execMapCheckpoint (s : State) : Host.Outcome State Fault Refusal :=
  s.run fun b => { b with sb := { b.sb with ckpt := true, ckptFrom := b.sb.journal } }

end Sys2Proof.Machine
end

