-- ==== Sys2Proof/Machine/Dispatch.lean ====
section
/-!
DEFINITION. Machine/Dispatch.lean: one arm for each constructor of Instr, each one direct call of its meaning.
-/
namespace Sys2Proof.Machine

def exec (i : Instr) (s : State) : Host.Outcome State Fault Refusal :=
  match i with
  | .aoPowerOn straps => Sys2Proof.Machine.execAoPowerOn straps s
  | .mainPowerOn pufOk => Sys2Proof.Machine.execMainPowerOn pufOk s
  | .mainConversionStop cause => Sys2Proof.Machine.execMainConversionStop cause s
  | .perstN => Sys2Proof.Machine.execPerstN s
  | .bringupStart => Sys2Proof.Machine.execBringupStart s
  | .pllLock => Sys2Proof.Machine.execPllLock s
  | .fwLoad => Sys2Proof.Machine.execFwLoad s
  | .train failed => Sys2Proof.Machine.execTrain failed s
  | .bringupSelftest failed => Sys2Proof.Machine.execBringupSelftest failed s
  | .mapLoad checkpointOk journalOk => Sys2Proof.Machine.execMapLoad checkpointOk journalOk s
  | .localReady => Sys2Proof.Machine.execLocalReady s
  | .teamJoin reports => Sys2Proof.Machine.execTeamJoin reports s
  | .joinLate => Sys2Proof.Machine.execJoinLate s
  | .ready => Sys2Proof.Machine.execReady s
  | .deviceReadinessStatus => Sys2Proof.Machine.execDeviceReadinessStatus s
  | .vfEnable => Sys2Proof.Machine.execVfEnable s
  | .refLost => Sys2Proof.Machine.execRefLost s
  | .refHoldoverExpiry => Sys2Proof.Machine.execRefHoldoverExpiry s
  | .refReturn src => Sys2Proof.Machine.execRefReturn src s
  | .flr vf => Sys2Proof.Machine.execFlr vf s
  | .flrPf0 => Sys2Proof.Machine.execFlrPf0 s
  | .tdbCtrl page value => Sys2Proof.Machine.execTdbCtrl page value s
  | .tdbReqPi page value => Sys2Proof.Machine.execTdbReqPi page value s
  | .tdbRplCi page value => Sys2Proof.Machine.execTdbRplCi page value s
  | .tdbAttnAck page value => Sys2Proof.Machine.execTdbAttnAck page value s
  | .tdbErr page value => Sys2Proof.Machine.execTdbErr page value s
  | .requestRecord page data => Sys2Proof.Machine.execRequestRecord page data s
  | .replySlotTaken page => Sys2Proof.Machine.execReplySlotTaken page s
  | .warmReset o => Sys2Proof.Machine.execWarmReset o s
  | .updateActivate o => Sys2Proof.Machine.execUpdateActivate o s
  | .tenantSet o => Sys2Proof.Machine.execTenantSet o s
  | .tenantDisable o => Sys2Proof.Machine.execTenantDisable o s
  | .quotaSet o => Sys2Proof.Machine.execQuotaSet o s
  | .chRefill o => Sys2Proof.Machine.execChRefill o s
  | .routeLoad o image => Sys2Proof.Machine.execRouteLoad o image s
  | .adapterSet o => Sys2Proof.Machine.execAdapterSet o s
  | .contextAlloc o => Sys2Proof.Machine.execContextAlloc o s
  | .contextFree o => Sys2Proof.Machine.execContextFree o s
  | .teardownComplete ctx => Sys2Proof.Machine.execTeardownComplete ctx s
  | .shardCreate o => Sys2Proof.Machine.execShardCreate o s
  | .shardStage o list data => Sys2Proof.Machine.execShardStage o list data s
  | .shardShare o => Sys2Proof.Machine.execShardShare o s
  | .shardDrop o => Sys2Proof.Machine.execShardDrop o s
  | .shardDropComplete shard => Sys2Proof.Machine.execShardDropComplete shard s
  | .fence o => Sys2Proof.Machine.execFence o s
  | .unfence o => Sys2Proof.Machine.execUnfence o s
  | .selftest o => Sys2Proof.Machine.execSelftest o s
  | .selftestComplete unit pass => Sys2Proof.Machine.execSelftestComplete unit pass s
  | .locate o => Sys2Proof.Machine.execLocate o s
  | .routeAdmission ctx => Sys2Proof.Machine.execRouteAdmission ctx s
  | .queueRetest cm => Sys2Proof.Machine.execQueueRetest cm s
  | .queueTimeout ctx => Sys2Proof.Machine.execQueueTimeout ctx s
  | .budgetSpent ctx => Sys2Proof.Machine.execBudgetSpent ctx s
  | .decodeWindow => Sys2Proof.Machine.execDecodeWindow s
  | .segment ctx input => Sys2Proof.Machine.execSegment ctx input s
  | .embed ctx vector sketch => Sys2Proof.Machine.execEmbed ctx vector sketch s
  | .gather ctx => Sys2Proof.Machine.execGather ctx s
  | .update ctx => Sys2Proof.Machine.execUpdate ctx s
  | .probe ctx => Sys2Proof.Machine.execProbe ctx s
  | .scan ctx => Sys2Proof.Machine.execScan ctx s
  | .walk ctx => Sys2Proof.Machine.execWalk ctx s
  | .hop ctx shard => Sys2Proof.Machine.execHop ctx shard s
  | .remoteWaitExpiry ctx => Sys2Proof.Machine.execRemoteWaitExpiry ctx s
  | .rerank ctx cross => Sys2Proof.Machine.execRerank ctx cross s
  | .pack ctx => Sys2Proof.Machine.execPack ctx s
  | .prefill ctx kv next => Sys2Proof.Machine.execPrefill ctx kv next s
  | .decode ctx => Sys2Proof.Machine.execDecode ctx s
  | .decodeRound ctx r => Sys2Proof.Machine.execDecodeRound ctx r s
  | .spec ctx => Sys2Proof.Machine.execSpec ctx s
  | .mask ctx => Sys2Proof.Machine.execMask ctx s
  | .stops ctx => Sys2Proof.Machine.execStops ctx s
  | .detok ctx => Sys2Proof.Machine.execDetok ctx s
  | .branch ctx => Sys2Proof.Machine.execBranch ctx s
  | .reply ctx => Sys2Proof.Machine.execReply ctx s
  | .yield ctx => Sys2Proof.Machine.execYield ctx s
  | .endRoute ctx => Sys2Proof.Machine.execEndRoute ctx s
  | .dispatch cm => Sys2Proof.Machine.execDispatch cm s
  | .dispatchArrival coach => Sys2Proof.Machine.execDispatchArrival coach s
  | .restoreComplete coach => Sys2Proof.Machine.execRestoreComplete coach s
  | .preemptionDecision cm => Sys2Proof.Machine.execPreemptionDecision cm s
  | .preemptionRequestArrival coach => Sys2Proof.Machine.execPreemptionRequestArrival coach s
  | .saveComplete coach => Sys2Proof.Machine.execSaveComplete coach s
  | .completionNotice coach => Sys2Proof.Machine.execCompletionNotice coach s
  | .swapOut cm => Sys2Proof.Machine.execSwapOut cm s
  | .swapOutComplete ctx => Sys2Proof.Machine.execSwapOutComplete ctx s
  | .swapIn ctx => Sys2Proof.Machine.execSwapIn ctx s
  | .swapInComplete ctx lost => Sys2Proof.Machine.execSwapInComplete ctx lost s
  | .add k d a b => Sys2Proof.Machine.execAdd k d a b s
  | .sub k d a b => Sys2Proof.Machine.execSub k d a b s
  | .and k d a b => Sys2Proof.Machine.execAnd k d a b s
  | .or k d a b => Sys2Proof.Machine.execOr k d a b s
  | .xor k d a b => Sys2Proof.Machine.execXor k d a b s
  | .shift k d a b fn => Sys2Proof.Machine.execShift k d a b fn s
  | .mul k d a b => Sys2Proof.Machine.execMul k d a b s
  | .addi k d a imm => Sys2Proof.Machine.execAddi k d a imm s
  | .li k d imm => Sys2Proof.Machine.execLi k d imm s
  | .lui k d imm => Sys2Proof.Machine.execLui k d imm s
  | .cmp k d a b fn => Sys2Proof.Machine.execCmp k d a b fn s
  | .plog k d a b fn => Sys2Proof.Machine.execPlog k d a b fn s
  | .aadd k d a b => Sys2Proof.Machine.execAadd k d a b s
  | .aaddi k d a imm => Sys2Proof.Machine.execAaddi k d a imm s
  | .aset k d a b => Sys2Proof.Machine.execAset k d a b s
  | .aget k d a fn => Sys2Proof.Machine.execAget k d a fn s
  | .br k rel => Sys2Proof.Machine.execBr k rel s
  | .loop k a len => Sys2Proof.Machine.execLoop k a len s
  | .wait k tags => Sys2Proof.Machine.execWait k tags s
  | .relay k final id => Sys2Proof.Machine.execRelay k final id s
  | .relayOverdue coach => Sys2Proof.Machine.execRelayOverdue coach s
  | .tend k sr => Sys2Proof.Machine.execTend k sr s
  | .csrr k sr csr => Sys2Proof.Machine.execCsrr k sr csr s
  | .csrw k sr csr => Sys2Proof.Machine.execCsrw k sr csr s
  | .vld k v an post off => Sys2Proof.Machine.execVld k v an post off s
  | .vst k v an post off => Sys2Proof.Machine.execVst k v an post off s
  | .sld k sr an off => Sys2Proof.Machine.execSld k sr an off s
  | .sst k sr an off => Sys2Proof.Machine.execSst k sr an off s
  | .accst k acc an conv => Sys2Proof.Machine.execAccst k acc an conv s
  | .accld k acc an conv => Sys2Proof.Machine.execAccld k acc an conv s
  | .vext k sr v lane => Sys2Proof.Machine.execVext k sr v lane s
  | .vins k v sr lane bc => Sys2Proof.Machine.execVins k v sr lane bc s
  | .move k tag an ab sl out => Sys2Proof.Machine.execMove k tag an ab sl out s
  | .moveCompletion coach tag => Sys2Proof.Machine.execMoveCompletion coach tag s
  | .ucmd k tag an station quarter defer => Sys2Proof.Machine.execUcmd k tag an station quarter defer s
  | .send k tag an => Sys2Proof.Machine.execSend k tag an s
  | .recv k tag an => Sys2Proof.Machine.execRecv k tag an s
  | .vadd k vd va vb ty => Sys2Proof.Machine.execVadd k vd va vb ty s
  | .vsub k vd va vb ty => Sys2Proof.Machine.execVsub k vd va vb ty s
  | .vmul k vd va vb ty => Sys2Proof.Machine.execVmul k vd va vb ty s
  | .vfma k vd va vb => Sys2Proof.Machine.execVfma k vd va vb s
  | .vmax k vd va vb ty => Sys2Proof.Machine.execVmax k vd va vb ty s
  | .vmin k vd va vb ty => Sys2Proof.Machine.execVmin k vd va vb ty s
  | .vlogic k vd va vb fn => Sys2Proof.Machine.execVlogic k vd va vb fn s
  | .vshift k vd va vb fn => Sys2Proof.Machine.execVshift k vd va vb fn s
  | .vpopc k vd va vb => Sys2Proof.Machine.execVpopc k vd va vb s
  | .vcmp k pd va vb ty cond => Sys2Proof.Machine.execVcmp k pd va vb ty cond s
  | .vsel k vd va vb p => Sys2Proof.Machine.execVsel k vd va vb p s
  | .vcvt k vd va fn => Sys2Proof.Machine.execVcvt k vd va fn s
  | .vfunc k vd va fn => Sys2Proof.Machine.execVfunc k vd va fn s
  | .vred k vd va ty mode addTo => Sys2Proof.Machine.execVred k vd va ty mode addTo s
  | .vperm k vd va vb => Sys2Proof.Machine.execVperm k vd va vb s
  | .vmov k vd va => Sys2Proof.Machine.execVmov k vd va s
  | .mldw k ma an fmt => Sys2Proof.Machine.execMldw k ma an fmt s
  | .mpass k ma an acc sn ch addTo quad swap agen => Sys2Proof.Machine.execMpass k ma an acc sn ch addTo quad swap agen s
  | .mzero k tiles => Sys2Proof.Machine.execMzero k tiles s
  | .maccv k acc j v => Sys2Proof.Machine.execMaccv k acc j v s
  | .mvacc k acc j v => Sys2Proof.Machine.execMvacc k acc j v s
  | .turnBoundary engine => Sys2Proof.Machine.execTurnBoundary engine s
  | .passComplete engine => Sys2Proof.Machine.execPassComplete engine s
  | .select quarter => Sys2Proof.Machine.execSelect quarter s
  | .merge quarter => Sys2Proof.Machine.execMerge quarter s
  | .openRow quarter => Sys2Proof.Machine.execOpenRow quarter s
  | .hist quarter => Sys2Proof.Machine.execHist quarter s
  | .thresh quarter => Sys2Proof.Machine.execThresh quarter s
  | .emit quarter => Sys2Proof.Machine.execEmit quarter s
  | .closeRow quarter => Sys2Proof.Machine.execCloseRow quarter s
  | .segmenterCommand lane => Sys2Proof.Machine.execSegmenterCommand lane s
  | .detokCommand => Sys2Proof.Machine.execDetokCommand s
  | .reinsStart quarter => Sys2Proof.Machine.execReinsStart quarter s
  | .reinsStep quarter => Sys2Proof.Machine.execReinsStep quarter s
  | .reinsQuery quarter => Sys2Proof.Machine.execReinsQuery quarter s
  | .reinsCommit quarter => Sys2Proof.Machine.execReinsCommit quarter s
  | .reinsRollback quarter => Sys2Proof.Machine.execReinsRollback quarter s
  | .lookup quarter => Sys2Proof.Machine.execLookup quarter s
  | .gtuUpdate quarter => Sys2Proof.Machine.execGtuUpdate quarter s
  | .keys quarter => Sys2Proof.Machine.execKeys quarter s
  | .hotRowMigration quarter => Sys2Proof.Machine.execHotRowMigration quarter s
  | .migrationCommit quarter => Sys2Proof.Machine.execMigrationCommit quarter s
  | .objCreate => Sys2Proof.Machine.execObjCreate s
  | .objWrite data decl => Sys2Proof.Machine.execObjWrite data decl s
  | .objRead => Sys2Proof.Machine.execObjRead s
  | .objRelease => Sys2Proof.Machine.execObjRelease s
  | .objectReleaseComplete tenant obj => Sys2Proof.Machine.execObjectReleaseComplete tenant obj s
  | .pageMove quarter page => Sys2Proof.Machine.execPageMove quarter page s
  | .pageMoveCommit quarter => Sys2Proof.Machine.execPageMoveCommit quarter s
  | .pageHoldExpiry page => Sys2Proof.Machine.execPageHoldExpiry page s
  | .slotRead src => Sys2Proof.Machine.execSlotRead src s
  | .slotWrite src data => Sys2Proof.Machine.execSlotWrite src data s
  | .writeCompletion part => Sys2Proof.Machine.execWriteCompletion part s
  | .slotDiscard src => Sys2Proof.Machine.execSlotDiscard src s
  | .toObj src decl => Sys2Proof.Machine.execToObj src decl s
  | .readTurn die results => Sys2Proof.Machine.execReadTurn die results s
  | .programTurn die work => Sys2Proof.Machine.execProgramTurn die work s
  | .mapCheckpoint => Sys2Proof.Machine.execMapCheckpoint s
  | .copy chan data => Sys2Proof.Machine.execCopy chan data s
  | .deint chan data => Sys2Proof.Machine.execDeint chan data s
  | .int chan data => Sys2Proof.Machine.execInt chan data s
  | .planeSplit chan data => Sys2Proof.Machine.execPlaneSplit chan data s
  | .planeJoin chan data => Sys2Proof.Machine.execPlaneJoin chan data s
  | .drayReadback chan fail => Sys2Proof.Machine.execDrayReadback chan fail s
  | .idleWord port w refHops => Sys2Proof.Machine.execIdleWord port w refHops s
  | .coll port w key => Sys2Proof.Machine.execColl port w key s
  | .memRd port w addr units => Sys2Proof.Machine.execMemRd port w addr units s
  | .memWr port w addr data => Sys2Proof.Machine.execMemWr port w addr data s
  | .memRsp port w data => Sys2Proof.Machine.execMemRsp port w data s
  | .work port w m => Sys2Proof.Machine.execWork port w m s
  | .result port w m => Sys2Proof.Machine.execResult port w m s
  | .nak port seq => Sys2Proof.Machine.execNak port seq s
  | .replayTimeout port => Sys2Proof.Machine.execReplayTimeout port s
  | .portRetrain port ok latency => Sys2Proof.Machine.execPortRetrain port ok latency s
  | .prepare d => Sys2Proof.Machine.execPrepare d s
  | .commitDecision id answers => Sys2Proof.Machine.execCommitDecision id answers s
  | .apply coord id => Sys2Proof.Machine.execApply coord id s
  | .abort coord id code => Sys2Proof.Machine.execAbort coord id code s
  | .commitApplyCycle => Sys2Proof.Machine.execCommitApplyCycle s
  | .leave pos => Sys2Proof.Machine.execLeave pos s
  | .lost pos cycle => Sys2Proof.Machine.execLost pos cycle s
  | .lostApply => Sys2Proof.Machine.execLostApply s
  | .lostWaitExpiry pos badPorts => Sys2Proof.Machine.execLostWaitExpiry pos badPorts s
  | .cbTimeout coach tag => Sys2Proof.Machine.execCbTimeout coach tag s
  | .allReduce cid members => Sys2Proof.Machine.execAllReduce cid members s
  | .reduceScatter cid members => Sys2Proof.Machine.execReduceScatter cid members s
  | .allGather cid members => Sys2Proof.Machine.execAllGather cid members s
  | .broadcast cid members => Sys2Proof.Machine.execBroadcast cid members s
  | .point cid members => Sys2Proof.Machine.execPoint cid members s
  | .domWork port f m => Sys2Proof.Machine.execDomWork port f m s
  | .domResult port f m => Sys2Proof.Machine.execDomResult port f m s
  | .ack port f => Sys2Proof.Machine.execAck port f s
  | .domainRto module => Sys2Proof.Machine.execDomainRto module s
  | .dirReport port f entry => Sys2Proof.Machine.execDirReport port f entry s
  | .dirQuery port f module shard => Sys2Proof.Machine.execDirQuery port f module shard s
  | .dirAnswer port f entry => Sys2Proof.Machine.execDirAnswer port f entry s
  | .cbDirQuery value => Sys2Proof.Machine.execCbDirQuery value s
  | .dirQueryTimeout => Sys2Proof.Machine.execDirQueryTimeout s
  | .cbTeamCfg value => Sys2Proof.Machine.execCbTeamCfg value s
  | .getVersion => Sys2Proof.Machine.execGetVersion s
  | .getCapabilities => Sys2Proof.Machine.execGetCapabilities s
  | .negotiateAlgorithms asym hash => Sys2Proof.Machine.execNegotiateAlgorithms asym hash s
  | .getDigests => Sys2Proof.Machine.execGetDigests s
  | .getCertificate slot => Sys2Proof.Machine.execGetCertificate slot s
  | .challenge slot => Sys2Proof.Machine.execChallenge slot s
  | .getMeasurements index => Sys2Proof.Machine.execGetMeasurements index s
  | .debugChallenge level => Sys2Proof.Machine.execDebugChallenge level s
  | .debugResponse r => Sys2Proof.Machine.execDebugResponse r s
  | .secLock value => Sys2Proof.Machine.execSecLock value s
  | .scrub corrected uncorrectable => Sys2Proof.Machine.execScrub corrected uncorrectable s
  | .cePeriod => Sys2Proof.Machine.execCePeriod s
  | .coachFault coach => Sys2Proof.Machine.execCoachFault coach s
  | .powerInterval vin iin watts => Sys2Proof.Machine.execPowerInterval vin iin watts s
  | .thermalInterval => Sys2Proof.Machine.execThermalInterval s
  | .shutdown cause => Sys2Proof.Machine.execShutdown cause s
  | .autoRestart => Sys2Proof.Machine.execAutoRestart s
  | .sensorSample readings => Sys2Proof.Machine.execSensorSample readings s
  | .leakSense => Sys2Proof.Machine.execLeakSense s
  | .logRecord => Sys2Proof.Machine.execLogRecord s
  | .ostLogAck value => Sys2Proof.Machine.execOstLogAck value s
  | .ostNow => Sys2Proof.Machine.execOstNow s
  | .cageModulePlugged cage watts => Sys2Proof.Machine.execCageModulePlugged cage watts s
  | .order record => Sys2Proof.Machine.execOrder record s
  | .logRead seq count => Sys2Proof.Machine.execLogRead seq count s
  | .fetch => Sys2Proof.Machine.execFetch s
  | .discard => Sys2Proof.Machine.execDiscard s
  | .transferComplete data => Sys2Proof.Machine.execTransferComplete data s
  | .verificationComplete => Sys2Proof.Machine.execVerificationComplete s
  | .activateFirmware => Sys2Proof.Machine.execActivateFirmware s
  | .cancelUpdate => Sys2Proof.Machine.execCancelUpdate s
  | .calibrationStep hbm chan slots => Sys2Proof.Machine.execCalibrationStep hbm chan slots s
  | .maintenanceWithdrawal coach dueTick => Sys2Proof.Machine.execMaintenanceWithdrawal coach dueTick s
  | .withdrawalEnd coach => Sys2Proof.Machine.execWithdrawalEnd coach s
  | .hubLbCtrl byOstler value => Sys2Proof.Machine.execHubLbCtrl byOstler value s
  | .hubLbStatus value => Sys2Proof.Machine.execHubLbStatus value s
  | .hubClkStatus value => Sys2Proof.Machine.execHubClkStatus value s
  | .scanReset => Sys2Proof.Machine.execScanReset s
  | .shiftIr => Sys2Proof.Machine.execShiftIr s
  | .shiftDr => Sys2Proof.Machine.execShiftDr s
  | .runIdle => Sys2Proof.Machine.execRunIdle s
  | .hubOrderApplied => Sys2Proof.Machine.execHubOrderApplied s
  | .hubOrderConflict => Sys2Proof.Machine.execHubOrderConflict s
  | .hubDmaErr => Sys2Proof.Machine.execHubDmaErr s
  | .tpAdmitCount => Sys2Proof.Machine.execTpAdmitCount s
  | .tpDenyCount => Sys2Proof.Machine.execTpDenyCount s
  | .tpPreemptCount => Sys2Proof.Machine.execTpPreemptCount s
  | .tpSwapOutCount => Sys2Proof.Machine.execTpSwapOutCount s
  | .tpSwapInCount => Sys2Proof.Machine.execTpSwapInCount s
  | .tpDropCount => Sys2Proof.Machine.execTpDropCount s
  | .skePassCount => Sys2Proof.Machine.execSkePassCount s
  | .skeRowCount => Sys2Proof.Machine.execSkeRowCount s
  | .sluCmdCount quarter => Sys2Proof.Machine.execSluCmdCount quarter s
  | .sluElemCount quarter => Sys2Proof.Machine.execSluElemCount quarter s
  | .sluRefuseCount quarter => Sys2Proof.Machine.execSluRefuseCount quarter s
  | .txuSegCount => Sys2Proof.Machine.execTxuSegCount s
  | .txuDetokCount => Sys2Proof.Machine.execTxuDetokCount s
  | .rnuHitCount quarter => Sys2Proof.Machine.execRnuHitCount quarter s
  | .rnuMissCount quarter => Sys2Proof.Machine.execRnuMissCount quarter s
  | .ctxPrefixHitCount => Sys2Proof.Machine.execCtxPrefixHitCount s
  | .ctxPrefixMissCount => Sys2Proof.Machine.execCtxPrefixMissCount s
  | .ctxDraftedCount => Sys2Proof.Machine.execCtxDraftedCount s
  | .ctxAcceptedCount => Sys2Proof.Machine.execCtxAcceptedCount s
  | .ctxRollbackCount => Sys2Proof.Machine.execCtxRollbackCount s
  | .ctxBlocksRead => Sys2Proof.Machine.execCtxBlocksRead s
  | .gtuCmdCount quarter => Sys2Proof.Machine.execGtuCmdCount quarter s
  | .gtuRowCount quarter => Sys2Proof.Machine.execGtuRowCount quarter s
  | .gtuMigrateCount quarter => Sys2Proof.Machine.execGtuMigrateCount quarter s
  | .gtuAbandonCount quarter => Sys2Proof.Machine.execGtuAbandonCount quarter s
  | .gtuUpdFailCount quarter => Sys2Proof.Machine.execGtuUpdFailCount quarter s
  | .mtMigrateCount => Sys2Proof.Machine.execMtMigrateCount s
  | .mtAbandonCount => Sys2Proof.Machine.execMtAbandonCount s
  | .sbReadCount => Sys2Proof.Machine.execSbReadCount s
  | .sbWriteBytes => Sys2Proof.Machine.execSbWriteBytes s
  | .sbRebuildCount => Sys2Proof.Machine.execSbRebuildCount s
  | .drDescCount => Sys2Proof.Machine.execDrDescCount s
  | .drByteCount => Sys2Proof.Machine.execDrByteCount s
  | .drFailCount => Sys2Proof.Machine.execDrFailCount s
  | .cbFlitErrCount => Sys2Proof.Machine.execCbFlitErrCount s
  | .cbReplayCount => Sys2Proof.Machine.execCbReplayCount s
  | .cbRelayCount => Sys2Proof.Machine.execCbRelayCount s
  | .cbCollCount => Sys2Proof.Machine.execCbCollCount s
  | .cbDomDropCount => Sys2Proof.Machine.execCbDomDropCount s
  | .secEventCount => Sys2Proof.Machine.execSecEventCount s
  | .hubErrCount => Sys2Proof.Machine.execHubErrCount s
  | .pwrSkipCount => Sys2Proof.Machine.execPwrSkipCount s
  | .ostLogLost => Sys2Proof.Machine.execOstLogLost s
  | .ostDeferCount => Sys2Proof.Machine.execOstDeferCount s
  | .hubLbErr => Sys2Proof.Machine.execHubLbErr s
  | .registerWrite w => Sys2Proof.Machine.execRegisterWrite w s
  | .portDown port => Sys2Proof.Machine.execPortDown port s
  | .failedWord port w => Sys2Proof.Machine.execFailedWord port w s
  | .trainWord port t => Sys2Proof.Machine.execTrainWord port t s
  | .slewComplete => Sys2Proof.Machine.execSlewComplete s
  | .discardedFrame port f => Sys2Proof.Machine.execDiscardedFrame port f s
  | .pldmTransfer => Sys2Proof.Machine.execPldmTransfer s
  | .loopbackFollower on => Sys2Proof.Machine.execLoopbackFollower on s
  | .loopbackLaneLock lane locked errors => Sys2Proof.Machine.execLoopbackLaneLock lane locked errors s
  | .domainPcsLock port pcs fec => Sys2Proof.Machine.execDomainPcsLock port pcs fec s

end Sys2Proof.Machine
end

