-- ==== Sys2Proof/Safety.lean ====
section
/-!
DEFINITION. Safety.lean: what a completed command, a safe run and canonical memory are, in the terms that the statements use.
-/
namespace Sys2Proof

/-- The memory keeps its canonical form: addresses strictly rising. -/
def Machine.Memory.wf (m : List Host.Cell) : Bool := Machine.tabWf m

/-- `c` completes at `s`: exec answers a next state, with the queue that it found, whose block meets `P`. -/
def Machine.Completes (c : Instr) (s : Machine.State) (P : Machine.Block → Prop) : Prop :=
  ∃ t, Machine.exec c s = .next t ∧ t.pending = s.pending ∧ P t.b

/-- Reads of the RC register `c` at offset `off` of the hub region (R11): the read answers the count `get` and clears it, and nothing
else changes. `b` is the block that it reads: with an event of the same CCLK counted before it, the read is one of the next CCLK. -/
def Machine.ReadsAndClears (c : Instr) (s : Machine.State) (off : Nat) (get : Machine.Block → W32) (clear : Machine.Block → Machine.Block) :
    Prop :=
  ∀ b : Machine.Block, b = (if get s.b = s.b.rcOld off then s.b else s.b.tick) → Machine.exec c s = .next { s with b := { clear b with
    host := { (clear b).host with readData := (get b).setWidth 64, rcBase := Machine.tabErase off (clear b).host.rcBase } } }

/-- The state after `n` steps, as long as each answers a next state. -/
def Machine.stepMany : Nat → Machine.State → Option Machine.State
  | 0, s => some s
  | n + 1, s =>
    match Machine.step s with
    | .next t => stepMany n t
    | _ => none

/-! ### Frames -/

/-- Only the page `pg` changed, and holds `p` now. -/
def Machine.PageBecomes (s : Machine.State) (pg : Nat) (p : Machine.Page) (b : Machine.Block) : Prop :=
  b.page pg = p ∧ (∀ q, q ≠ pg → b.page q = s.b.page q) ∧
  b = { s.b with host := { s.b.host with pages := b.host.pages } }

/-- Every context but `n` is as it was. -/
def Machine.OtherContexts (s : Machine.State) (n : Nat) (b : Machine.Block) : Prop := ∀ m, m ≠ n → b.ctx m = s.b.ctx m

/-- Every coach but `k` is as it was. -/
def Machine.OtherCoaches (s : Machine.State) (k : Nat) (b : Machine.Block) : Prop := ∀ j, j ≠ k → b.coach j = s.b.coach j

/-- Slot `k` alone makes a bundle that may issue (R189, R190): its coach runs a task, no slot of an earlier bundle waits, no
RELAY is due and the stretch is within its limit. -/
def Machine.BundleReady (b : Machine.Block) (k : Slot) : Prop :=
  k.more = false ∧ (b.coach k.coach).live = true ∧ (b.coach k.coach).slots = [] ∧
  (b.coach k.coach).bundle = [] ∧ (b.coach k.coach).bundleExn = [] ∧
  (b.coach k.coach).bundleRelay = false ∧ (b.coach k.coach).relayDue = false ∧ (b.coach k.coach).remoteFrom = none ∧
  (b.coach k.coach).stretch b.clk.delivered ≤ 65536

/-- `c` completes where the bundle at the coach's PC spells it in slot number `no` (R189): where the kernel's bundles are known, the
slot's word decodes to it, and else any slot may. -/
def Machine.SlotDoes (no : Nat) (k : Slot) (c : Instr) (s : Machine.State) (P : Machine.Block → Prop) : Prop :=
  (s.b.coach k.coach).issues no k c = true → Machine.Completes c s P

/-- A RELAY (R200), which meets the relay point that its bundle may owe. -/
def Instr.isRelay (i : Instr) : Bool :=
  match i with
  | .relay _ _ _ => true
  | _ => false

/-- Slot number `no`, spelt `i`, has joined the bundle of coach `k` with its results and its exception (R190). -/
def Machine.Block.joins (b : Machine.Block) (k no : Nat) (i : Instr) (ws : List Machine.SlotWr) (e : Option Code) :
    Machine.Block :=
  b.modCoach k fun c => { c with
    slots := c.slots ++ [no], bundle := c.bundle ++ ws, bundleRelay := c.bundleRelay || i.isRelay
    bundleExn := c.bundleExn ++ (e.map fun x => (⟨no, x⟩ : Machine.Exn)).toList }

/-- A result that writes registers of the coach alone: S, A, V, P, a row of an accumulator tile, or flags. -/
def Machine.SlotWr.register : Machine.SlotWr → Bool
  | .s _ _ => true
  | .a _ _ => true
  | .v _ _ => true
  | .p _ _ => true
  | .accRow _ _ _ _ => true
  | .flags _ => true
  | _ => false

/-- Coach `k` at the end of a bundle, its results aside (R190, R192, R223): it goes on at `next`, the next bundle issues `cost`
delivered CCLK later, and streams whose rows are all read are over. -/
def Machine.Block.bundleEnd (b : Machine.Block) (k cost : Nat) (next : Nat × List Machine.LoopLevel) : Machine.Coach :=
  { b.coach k with
    pc := next.1 % 4096, loops := next.2, ready := b.bundleCclk (b.coach k) + cost
    streams := (b.coach k).streams.filter fun x => x.openAt (b.bundleCclk (b.coach k)) }

/-- The coach past the bundles without any operation that follow (R189, R192). -/
def Machine.Coach.pastEmpty (c : Machine.Coach) : Machine.Coach :=
  match c.kernel with
  | none => c
  | some x =>
    let r := x.skip 65537 c.pc c.loops
    { c with pc := r.1, loops := r.2.1, ready := c.ready + r.2.2 }

/-- Coach `k` after a bundle that does not branch, its results aside (R192, R196). -/
def Machine.Block.nextCoach (b : Machine.Block) (k : Nat) : Machine.Coach :=
  (b.bundleEnd k 1 (Machine.loopNext (b.coach k).pc (b.coach k).loops)).pastEmpty

/-- Coach `k` is now `c`, and nothing else changed. -/
def Machine.CoachBecomes (s : Machine.State) (k : Nat) (c : Machine.Coach) (b : Machine.Block) : Prop :=
  b.coach k = c ∧ OtherCoaches s k b ∧ b = { s.b with coaches := b.coaches }

/-- S[D] holds `v`; S0 stays 0 (R182). -/
def Machine.Coach.setS (c : Machine.Coach) (d : Nat) (v : W32) : Machine.Coach :=
  { c with s := if d = 0 then c.s else Machine.tabSet d v c.s }

/-- A[D] holds `v`. -/
def Machine.Coach.setA (c : Machine.Coach) (d : Nat) (v : W48) : Machine.Coach :=
  { c with a := Machine.tabSet d v c.a }

/-- P[D] holds `v`; P0 stays all ones (R182). -/
def Machine.Coach.setP (c : Machine.Coach) (d : Nat) (v : W64) : Machine.Coach :=
  { c with p := if d = 0 then c.p else Machine.tabSet d v c.p }

/-- A V slot ends its bundle (R194, R204, R251): lane l of V[D] holds `f l` where its predicate bit is 1 and its old value
elsewhere, the flags `fl l` of the lanes written join CO_FPFLAGS, and every other V register and all else stay. -/
def Machine.LaneResult (s : Machine.State) (k : Slot) (vd : Nat) (f : Nat → W32) (fl : Nat → BitVec 3) (b : Machine.Block) :
    Prop :=
  ∃ c' : Machine.Coach, CoachBecomes s k.coach c' b ∧
    c' = { s.b.nextCoach k.coach with v := c'.v, vTag := c'.vTag, fpflags := c'.fpflags } ∧
    (∀ l, l < 64 → (c'.vReg vd).getD l 0 =
      if ((s.b.coach k.coach).mask k).getLsbD l then f l else ((s.b.coach k.coach).vReg vd).getD l 0) ∧
    (∀ i, i ≠ vd → c'.vReg i = (s.b.coach k.coach).vReg i) ∧
    (∀ n, n < 3 → c'.fpflags.getLsbD n = ((s.b.coach k.coach).fpflags.getLsbD n ||
      (List.range 64).any fun l => ((s.b.coach k.coach).mask k).getLsbD l && (fl l).getLsbD n))

/-- A V slot whose result is the whole of V[D] ends its bundle: the lanes meet `P`, and all else but CO_FPFLAGS stays. -/
def Machine.RegisterResult (s : Machine.State) (k : Slot) (vd : Nat) (P : List W32 → BitVec 3 → Prop) (b : Machine.Block) :
    Prop :=
  ∃ c' : Machine.Coach, CoachBecomes s k.coach c' b ∧
    c' = { s.b.nextCoach k.coach with v := c'.v, vTag := c'.vTag, fpflags := c'.fpflags } ∧
    (∀ i, i ≠ vd → c'.vReg i = (s.b.coach k.coach).vReg i) ∧ P (c'.vReg vd) c'.fpflags

/-- Lane l of V[i] of the coach of slot `k`. -/
def Machine.State.lane (s : Machine.State) (k : Slot) (i l : Nat) : W32 := ((s.b.coach k.coach).vReg i).getD l 0

/-- Lane l takes part in the slot (R194). -/
def Machine.State.takes (s : Machine.State) (k : Slot) (l : Nat) : Prop :=
  l < 64 ∧ ((s.b.coach k.coach).mask k).getLsbD l = true

/-- The bundle ends with rows of accumulator tiles, weight buffers, flags and streams written, and nothing else of the coach or of
the block. -/
def Machine.MatrixResult (s : Machine.State) (k : Slot) (P : Machine.Coach → Prop) (b : Machine.Block) : Prop :=
  ∃ c' : Machine.Coach, CoachBecomes s k.coach c' b ∧
    c' = { s.b.nextCoach k.coach with
      acc := c'.acc, accTag := c'.accTag, wa := c'.wa, ws := c'.ws, waTag := c'.waTag, wsTag := c'.wsTag
      fpflags := c'.fpflags, streams := c'.streams } ∧ P c'

/-- An exception of slot number `no` ends the task with `code` at its bundle (R215): AUX names the bundle and the slot, no
register is written, and no other coach and no memory changes. -/
def Machine.EndsTask (s : Machine.State) (k : Slot) (no : Nat) (code : Code) (b : Machine.Block) : Prop :=
  (b.coach k.coach).st = .ending ∧ (b.coach k.coach).endCode = code ∧
  (b.coach k.coach).endAux = (s.b.coach k.coach).pc % 4096 + 2 ^ 22 * no ∧
  (b.coach k.coach).s = (s.b.coach k.coach).s ∧ (b.coach k.coach).a = (s.b.coach k.coach).a ∧
  (b.coach k.coach).v = (s.b.coach k.coach).v ∧ (b.coach k.coach).acc = (s.b.coach k.coach).acc ∧
  (b.coach k.coach).tags = (s.b.coach k.coach).tags ∧ OtherCoaches s k.coach b ∧ b.mem = s.b.mem

/-- `c` is a unit command of the task that still runs on coach `k`, for its tenant (R199, R594). -/
def Machine.OfTask (s : Machine.State) (k : Nat) (c : Machine.UnitCmd) : Prop :=
  c.coach = some k ∧ s.b.cmdLive c = true ∧ c.deferred = false ∧ c.tenant = (s.b.coach k).tenant ∧ c.forwarded = none

/-- Command `c` of coach `k` is complete (R199): its record stands at A[AN] + 64, its tag is idle, the coach's registers and
every other coach are as they were. -/
def Machine.CommandDone (s : Machine.State) (k : Nat) (c : Machine.UnitCmd) (fields : List Byte) (b : Machine.Block) : Prop :=
  b.readSram k (c.desc + 64) 64 = Machine.record fields ∧ Machine.tabFind? c.tag (b.coach k).tags = none ∧
  (b.coach k).s = (s.b.coach k).s ∧ (b.coach k).a = (s.b.coach k).a ∧ (b.coach k).v = (s.b.coach k).v ∧
  (b.coach k).acc = (s.b.coach k).acc ∧ (b.coach k).pc = (s.b.coach k).pc ∧ (b.coach k).st = (s.b.coach k).st ∧
  OtherCoaches s k b

/-- The task's uncommitted writes hold `bs` from device address `a` on, and elsewhere what they held (R185). -/
def Machine.TaskWrote (s : Machine.State) (k a : Nat) (bs : List Byte) (b : Machine.Block) : Prop :=
  (∀ i, i < bs.length → Machine.tabFind? (a + i) (b.coach k).overlay = bs[i]?) ∧
  (∀ i, ¬(a ≤ i ∧ i < a + bs.length) → Machine.tabFind? i (b.coach k).overlay = Machine.tabFind? i (s.b.coach k).overlay)

/-- A compute step of context `n` stands begun by instruction `i` (R32, R132): its step, opcode and one tile task, which waits
in the ready set of its coachman. -/
def Machine.StepBegun (s : Machine.State) (n : Nat) (i : Machine.RInstr) (st : Machine.StepRun) (b : Machine.Block) : Prop :=
  (b.ctx n).step = some st ∧ st.step = (s.b.ctx n).pc ∧ st.opcode = i.op ∧ st.tasks = 1 ∧ (b.ctx n).pc = (s.b.ctx n).pc ∧
  ∃ t ∈ Machine.tabGet [] (Machine.coachman n) b.tp.ready, t.ctx = n ∧ t.id = s.b.tp.nextTask

/-- The instruction at a context's PC is `i` of opcode `op`, and the context may start it (R132, R145). -/
def Machine.Block.starts (b : Machine.Block) (n op : Nat) (i : Machine.RInstr) : Prop :=
  b.instrAt n = some i ∧ b.ready n = true ∧ i.op = op

/-! ### The links -/

/-- A flit of TYPE `ty` for this module that port `port` takes (R549 to R554): the port is UP, the word passes its checks, its SEQ is
the one expected, and it is no relayed flit that this module holds already. -/
def Machine.Block.takesFlit (b : Block) (port ty : Nat) (w : LinkWord) : Prop :=
  b.portUp port = true ∧ b.cb.lockstep = true ∧ b.wordOk w = true ∧ w.type = ty ∧ 2 ≤ ty ∧ w.seq = (b.port port).rxSeq ∧
  w.dst = b.position ∧ b.cb.holdsFlit w = false

/-- The block once such a flit has arrived: its trailer has acted, the next SEQ is expected, ACK is answered, its buffer entry is
returned, and the flit is noted (R550, R552 to R554). -/
def Machine.Block.received (b : Block) (port : Nat) (w : LinkWord) : Block :=
  (((b.trailer port w).modPort port fun p => { p with rxSeq := ((b.port port).rxSeq + 1) % 256 }).cbEmit
    (.ackDecision port 1 w.seq 1)).noteFlit w

/-- A frame with content, of a KIND, that port `port` of the domain takes (R573 to R576): it passes its checks and its PSN is the next. -/
def Machine.Block.takesFrame (b : Block) (port kind : Nat) (f : DomFrame) : Prop :=
  b.domPort port = true ∧ b.frameOk port f = true ∧ f.kind = kind ∧ f.psn = (b.pair f.src).rxPsn

/-- The block once such a frame has arrived: its ACK_PSN has acted and it is acknowledged (R576). -/
def Machine.Block.receivedFrame (b : Block) (f : DomFrame) : Block :=
  ((b.ackWindow f).modPair f.src fun p => { p with rxPsn := p.rxPsn + 1 }).cbEmit (.domAck f.src (f.psn + 1))

/-! ### The team -/

/-- No context runs and no collective, commit, slice, lookup or work waits for another member. -/
def Machine.Block.teamQuiet (b : Block) : Prop :=
  b.ctxs = [] ∧ b.cb.colls = [] ∧ b.cb.commits = [] ∧ b.store.slices = [] ∧ b.ske.works = [] ∧ ∀ k, k < 4 → (b.gtuQ k).wait = none

/-- Tag `t` of coach `k` completed with `code` (R199, R202): its record stands at A[AN] + 64 and the tag is idle. -/
def Machine.TagEnds (s : Machine.State) (k t : Nat) (code : Code) (b : Machine.Block) : Prop :=
  b.readSram k (((s.b.coach k).tag t).desc + 64) 64 = Machine.record (le 4 code.toNat) ∧
  Machine.tabFind? t (b.coach k).tags = none

/-- Position `q` stands declared lost for `cause` by the lead (R568): a notice with its apply cycle goes to every present member
and the cause to the log. -/
def Machine.DeclaredLost (s : Machine.State) (q cause : Nat) (b : Machine.Block) : Prop :=
  b = ({ s.b with cb := { s.b.cb with
      lostPending := s.b.cb.lostPending ++ [(q, s.b.cb.linkCycle + 3 * s.b.cb.l + 16)]
      out := s.b.cb.out ++ s.b.others.map fun p => Machine.CbOut.lost p q cause (s.b.cb.linkCycle + 3 * s.b.cb.l + 16) } }).log
    0x08 2 Codes.teamLost none none (q + 16 * cause)

/-! ### Orders -/

/-- An order passes the checks and the arbitration of the order port (R111 to R118): the main domain is up, R112 finds nothing
against it, what was presented in this CCLK is of higher rank and none of it that was applied conflicts with the order, neither its
issuer's function nor its target is in FLR, its ring was not dropped by one and, for the Ostler, no order of a team commit is due
(R559). -/
def Machine.Block.orderPasses (b : Machine.Block) (code : Nat) (o : OrderIn) : Prop :=
  b.mainUp = true ∧ b.orderCheck code o = none ∧ (∀ r, b.host.rankNow = some r → r < Machine.rank o.issuer) ∧
  (∀ x ∈ b.host.appliedNow, b.conflicts (o.kind, o.target) x = false) ∧ b.inFlr (o.kind, o.target) = false ∧
  b.issuerFlr o.issuer = false ∧ b.host.dropped.contains ⟨code, o⟩ = false ∧ (o.issuer = .ostler → b.commitDue = false)

/-- An order was applied with `code` and AUX `aux`: it counts as applied (R115), and its answer was the last thing done, to a block
that meets `P`. -/
def Machine.Answered (b : Machine.Block) (o : OrderIn) (s : Machine.State) (code : Code) (aux : Nat)
    (P : Machine.Block → Prop) : Prop :=
  ∃ b0 : Machine.Block, b = { b0.orderReply o.issuer o.tag code aux with mem := b.mem } ∧
    b0.host.orderApplied = Machine.sat32 s.b.host.orderApplied 1 ∧ P b0

/-- The order completes: exec answers a next state in which it was applied with `code` and `aux`. -/
def Machine.AnswersOrder (c : Instr) (o : OrderIn) (s : Machine.State) (code : Code) (aux : Nat)
    (P : Machine.Block → Prop) : Prop :=
  Completes c s fun b => Answered b o s code aux P

end Sys2Proof
end

