-- ==== Sys2Proof/WellFormed.lean ====
section
/-!
DEFINITION. WellFormed.lean: which commands are well formed: every operand within the range that the spec gives it. A
command outside it names something that the FX-9420 does not have.
-/
namespace Sys2Proof

/-- Register and field numbers of a coach bundle (R182, R189, R195, R197, R204, R206). -/
def okS (n : Nat) : Bool := decide (n < 64)
def okA (n : Nat) : Bool := decide (n < 16)
def okV (n : Nat) : Bool := decide (n < 32)
def okP (n : Nat) : Bool := decide (n < 8)
def okTile (n : Nat) : Bool := decide (n < 8)
def okMa (n : Nat) : Bool := decide (n < 4)
def okTag (n : Nat) : Bool := decide (n < 16)
def okVLane (n : Nat) : Bool := decide (n < 64)
def okFmt (n : Nat) : Bool := decide (n < 16)
def okTwo (n : Nat) : Bool := decide (n < 4)
def okThree (n : Nat) : Bool := decide (n < 8)
def okRowPair (n : Nat) : Bool := decide (n < 16)
def okFnC (n : Nat) : Bool := decide (n < 16)
def okFnV (n : Nat) : Bool := decide (n < 128)
def okStation (n : Nat) : Bool := decide (n < 16)
def okEnd (n : Nat) : Bool := decide (n < 4096)
def okByte (n : Nat) : Bool := decide (n < 256)
def okHalf (n : Nat) : Bool := decide (n < 65536)

/-- Numbered things of the module: contexts (R140), coaches, coachmen and quarters (R17), sketch engines (R288), shards
(R275), tenants and their pages (R81, R82), objects (R476), dray channels (R519), dies (R495), parts of the write buffer
(R503), context pages (R464), virtual functions (R81). -/
def okCtx (n : Nat) : Bool := decide (n < 131072)
def okCoach (n : Nat) : Bool := decide (n < 512)
def okCoachman (n : Nat) : Bool := decide (n < 8)
def okQuarter (n : Nat) : Bool := decide (n < 4)
def okEngine (n : Nat) : Bool := decide (n < 8)
def okShard (n : Nat) : Bool := decide (n < 64)
def okTenant (n : Nat) : Bool := decide (n < 4096)
def okDoorbell (n : Nat) : Bool := decide (n ≤ 4096)
def okObject (n : Nat) : Bool := decide (n < 4096)
def okDray (n : Nat) : Bool := decide (n < 80)
def okDie (n : Nat) : Bool := decide (n < 512)
def okPart (n : Nat) : Bool := decide (n < 9)
def okCtxPage (n : Nat) : Bool := decide (n < 67108864)
def okVf (n : Nat) : Bool := decide (1 ≤ n) && decide (n ≤ 256)
/-- HBM stacks and DDR channels (R618). -/
def okMemChan (hbm : Bool) (n : Nat) : Bool := decide (n < if hbm then 8 else 24)
/-- Segmenter lanes (R374). -/
def okSegLane (n : Nat) : Bool := decide (n < 4)
/-- Loopback lanes (R665), cages J3 to J14 (R36), certificate slots (R602). -/
def okLbLane (n : Nat) : Bool := decide (n < 16)
def okCage (n : Nat) : Bool := decide (n < 12)
def okCert (n : Nat) : Bool := decide (n < 8)
/-- Team and domain ports (R545, R572), team positions (R49), module numbers (R557), collective identifiers (R548), a
reference source as HUB_CLK_STATUS shows it (R73). -/
def okTeamPort (n : Nat) : Bool := decide (n < 8)
def okDomPort (n : Nat) : Bool := decide (n < 4)
def okPos (n : Nat) : Bool := decide (n < 8)
def okModule (n : Nat) : Bool := decide (n < 131072)
def okCid (n : Nat) : Bool := decide (n < 65536)
def okRefSrc (n : Nat) : Bool := n == 0 || (decide (8 ≤ n) && decide (n < 16))
/-- A remote access on the link (R565): a line's address, and a length in lines. -/
def okLine (n : Nat) : Bool := decide (n < 562949953421312)
def okUnits (n : Nat) : Bool := decide (n < 8192)

/-- A slot of a bundle (R189). -/
def Slot.wf (k : Slot) : Bool := okCoach k.coach && okP k.ps

/-- A unit: kind and index fit their fields (R618). -/
def UnitId.wf (u : UnitId) : Bool := okByte u.kind && okHalf u.index

/-- An order: TARGET_KIND, TARGET_ID and 96 operand bytes (R101). -/
def OrderIn.wf (o : OrderIn) : Bool :=
  okByte o.kind && decide (o.target < 2 ^ 56) && o.ops.length == 96 &&
  match o.issuer with
  | .tenant t => okTenant t
  | _ => true

/-- A word of a team port (R548, R549). -/
def LinkWord.wf (w : LinkWord) : Bool :=
  decide (w.type < 16) && okPos w.src && okPos w.dst && okByte w.seq && okCid w.id && decide (w.offset < 8192) &&
  decide (w.payload.length ≤ 256) && okByte w.ackSeq && decide (w.ack < 4) && decide (w.credit < 64) && okHalf w.cycle

/-- The parts of a TRAIN word (R546, R558). -/
def TrainInfo.wf (t : TrainInfo) : Bool := okPos t.pos && okTeamPort t.port && okModule t.module

/-- A domain frame's fields fit (R575). -/
def DomFrame.wf (f : DomFrame) : Bool :=
  okHalf f.etype && decide (f.dest < 2 ^ 48) && decide (f.kind < 16) && decide (f.ver < 16) && okByte f.count && okModule f.src &&
    okModule f.dst && okHalf f.offset && okHalf f.rsvd02 && decide (f.rsvd04 < 2 ^ 15) && decide (f.rsvd08 < 2 ^ 15) && okHalf f.rsvd18

/-- A directory entry (R578, R579). -/
def DirEntry.wf (e : DirEntry) : Bool :=
  okModule e.module && okShard e.shard && decide (e.state < 4) && decide (e.readers.length ≤ 16)

/-- A team commit (R559). -/
def CommitMsg.wf (d : CommitMsg) : Bool := okPos d.coordinator

/-- What a die's program turn names (R495, R503). -/
def ProgramWork.wf : ProgramWork → Bool
  | .program part block page _ => okPart part && decide (block < 4968) && decide (page < 1536)
  | .erase block _ => decide (block < 4968)
  | .collect block toBlock toPage _ => decide (block < 4968) && decide (toBlock < 4968) && decide (toPage < 1536)
  | .rebuildDone => true

/-- A register write (R83): a size of a memory write, and a doorbell page that exists. -/
def RegWrite.wf (w : RegWrite) : Bool :=
  decide (1 ≤ w.size) && decide (w.size ≤ 8) && decide (w.offset < 33554432) &&
  match w.page with
  | some p => okDoorbell p && decide (w.offset < 65536)
  | none => true

/-- A command is well formed. -/
def Instr.wf : Instr → Bool
  | .aoPowerOn _ => true
  | .mainPowerOn _ => true
  | .mainConversionStop _ => true
  | .perstN => true
  | .bringupStart => true
  | .pllLock => true
  | .fwLoad => true
  | .train failed => failed.all UnitId.wf
  | .bringupSelftest failed => failed.all UnitId.wf
  | .mapLoad _ _ => true
  | .localReady => true
  | .teamJoin reports => (reports.all fun m => okPos m.pos && okModule m.module)
  | .joinLate => true
  | .ready => true
  | .deviceReadinessStatus => true
  | .vfEnable => true
  | .refLost => true
  | .refHoldoverExpiry => true
  | .refReturn src => okRefSrc src
  | .flr vf => okVf vf
  | .flrPf0 => true
  | .tdbCtrl page _ => okDoorbell page
  | .tdbReqPi page _ => okDoorbell page
  | .tdbRplCi page _ => okDoorbell page
  | .tdbAttnAck page _ => okDoorbell page
  | .tdbErr page _ => okDoorbell page
  | .requestRecord page _ => okDoorbell page
  | .replySlotTaken page => okDoorbell page
  | .warmReset o => o.wf
  | .updateActivate o => o.wf
  | .tenantSet o => o.wf
  | .tenantDisable o => o.wf
  | .quotaSet o => o.wf
  | .chRefill o => o.wf
  | .routeLoad o _ => o.wf
  | .adapterSet o => o.wf
  | .contextAlloc o => o.wf
  | .contextFree o => o.wf
  | .teardownComplete ctx => okCtx ctx
  | .shardCreate o => o.wf
  | .shardStage o _ _ => o.wf
  | .shardShare o => o.wf
  | .shardDrop o => o.wf
  | .shardDropComplete shard => okShard shard
  | .fence o => o.wf
  | .unfence o => o.wf
  | .selftest o => o.wf
  | .selftestComplete unit _ => unit.wf
  | .locate o => o.wf
  | .routeAdmission ctx => okCtx ctx
  | .queueRetest cm => okCoachman cm
  | .queueTimeout ctx => okCtx ctx
  | .budgetSpent ctx => okCtx ctx
  | .decodeWindow => true
  | .segment ctx _ => okCtx ctx
  | .embed ctx _ _ => okCtx ctx
  | .gather ctx => okCtx ctx
  | .update ctx => okCtx ctx
  | .probe ctx => okCtx ctx
  | .scan ctx => okCtx ctx
  | .walk ctx => okCtx ctx
  | .hop ctx shard => okCtx ctx && okShard shard
  | .remoteWaitExpiry ctx => okCtx ctx
  | .rerank ctx _ => okCtx ctx
  | .pack ctx => okCtx ctx
  | .prefill ctx _ _ => okCtx ctx
  | .decode ctx => okCtx ctx
  | .decodeRound ctx _ => okCtx ctx
  | .spec ctx => okCtx ctx
  | .mask ctx => okCtx ctx
  | .stops ctx => okCtx ctx
  | .detok ctx => okCtx ctx
  | .branch ctx => okCtx ctx
  | .reply ctx => okCtx ctx
  | .yield ctx => okCtx ctx
  | .endRoute ctx => okCtx ctx
  | .dispatch cm => okCoachman cm
  | .dispatchArrival coach => okCoach coach
  | .restoreComplete coach => okCoach coach
  | .preemptionDecision cm => okCoachman cm
  | .preemptionRequestArrival coach => okCoach coach
  | .saveComplete coach => okCoach coach
  | .completionNotice coach => okCoach coach
  | .swapOut cm => okCoachman cm
  | .swapOutComplete ctx => okCtx ctx
  | .swapIn ctx => okCtx ctx
  | .swapInComplete ctx _ => okCtx ctx
  | .add k d a b => k.wf && okS d && okS a && okS b
  | .sub k d a b => k.wf && okS d && okS a && okS b
  | .and k d a b => k.wf && okS d && okS a && okS b
  | .or k d a b => k.wf && okS d && okS a && okS b
  | .xor k d a b => k.wf && okS d && okS a && okS b
  | .shift k d a b fn => k.wf && okS d && okS a && okS b && okFnC fn
  | .mul k d a b => k.wf && okS d && okS a && okS b
  | .addi k d a _ => k.wf && okS d && okS a
  | .li k d _ => k.wf && okS d
  | .lui k d _ => k.wf && okS d
  | .cmp k d a b fn => k.wf && okP d && okS a && okS b && okFnC fn
  | .plog k d a b fn => k.wf && okP d && okP a && okP b && okFnC fn
  | .aadd k d a b => k.wf && okA d && okA a && okS b
  | .aaddi k d a _ => k.wf && okA d && okA a
  | .aset k d a b => k.wf && okA d && okS a && okS b
  | .aget k d a fn => k.wf && okS d && okA a && okFnC fn
  | .br k _ => k.wf
  | .loop k a len => k.wf && okS a && okEnd len
  | .wait k _ => k.wf
  | .relay k _ id => k.wf && okByte id
  | .relayOverdue coach => okCoach coach
  | .tend k s => k.wf && okS s
  | .csrr k s csr => k.wf && okS s && okByte csr
  | .csrw k s csr => k.wf && okS s && okByte csr
  | .vld k v an _ _ => k.wf && okV v && okA an
  | .vst k v an _ _ => k.wf && okV v && okA an
  | .sld k s an _ => k.wf && okS s && okA an
  | .sst k s an _ => k.wf && okS s && okA an
  | .accst k acc an conv => k.wf && okTile acc && okA an && okTwo conv
  | .accld k acc an conv => k.wf && okTile acc && okA an && okTwo conv
  | .vext k s v lane => k.wf && okS s && okV v && okVLane lane
  | .vins k v s lane _ => k.wf && okV v && okS s && okVLane lane
  | .move k tag an ab sl _ => k.wf && okTag tag && okA an && okA ab && okS sl
  | .moveCompletion coach tag => okCoach coach && okTag tag
  | .ucmd k tag an station quarter _ => k.wf && okTag tag && okA an && okStation station && okQuarter quarter
  | .send k tag an => k.wf && okTag tag && okA an
  | .recv k tag an => k.wf && okTag tag && okA an
  | .vadd k vd va vb ty => k.wf && okV vd && okV va && okV vb && okTwo ty
  | .vsub k vd va vb ty => k.wf && okV vd && okV va && okV vb && okTwo ty
  | .vmul k vd va vb ty => k.wf && okV vd && okV va && okV vb && okTwo ty
  | .vfma k vd va vb => k.wf && okV vd && okV va && okV vb
  | .vmax k vd va vb ty => k.wf && okV vd && okV va && okV vb && okTwo ty
  | .vmin k vd va vb ty => k.wf && okV vd && okV va && okV vb && okTwo ty
  | .vlogic k vd va vb fn => k.wf && okV vd && okV va && okV vb && okFnV fn
  | .vshift k vd va vb fn => k.wf && okV vd && okV va && okV vb && okFnV fn
  | .vpopc k vd va vb => k.wf && okV vd && okV va && okV vb
  | .vcmp k pd va vb ty cond => k.wf && okP pd && okV va && okV vb && okTwo ty && okThree cond
  | .vsel k vd va vb p => k.wf && okV vd && okV va && okV vb && okP p
  | .vcvt k vd va fn => k.wf && okV vd && okV va && okFnV fn
  | .vfunc k vd va fn => k.wf && okV vd && okV va && okFnV fn
  | .vred k vd va ty mode _ => k.wf && okV vd && okV va && okTwo ty && okTwo mode
  | .vperm k vd va vb => k.wf && okV vd && okV va && okV vb
  | .vmov k vd va => k.wf && okV vd && okV va
  | .mldw k ma an fmt => k.wf && okMa ma && okA an && okFmt fmt
  | .mpass k ma an acc sn ch _ _ _ _ => k.wf && okMa ma && okA an && okTile acc && okS sn && okTwo ch
  | .mzero k _ => k.wf
  | .maccv k acc j v => k.wf && okTile acc && okRowPair j && okV v
  | .mvacc k acc j v => k.wf && okTile acc && okRowPair j && okV v
  | .turnBoundary engine => okEngine engine
  | .passComplete engine => okEngine engine
  | .select quarter => okQuarter quarter
  | .merge quarter => okQuarter quarter
  | .openRow quarter => okQuarter quarter
  | .hist quarter => okQuarter quarter
  | .thresh quarter => okQuarter quarter
  | .emit quarter => okQuarter quarter
  | .closeRow quarter => okQuarter quarter
  | .segmenterCommand lane => okSegLane lane
  | .detokCommand => true
  | .reinsStart quarter => okQuarter quarter
  | .reinsStep quarter => okQuarter quarter
  | .reinsQuery quarter => okQuarter quarter
  | .reinsCommit quarter => okQuarter quarter
  | .reinsRollback quarter => okQuarter quarter
  | .lookup quarter => okQuarter quarter
  | .gtuUpdate quarter => okQuarter quarter
  | .keys quarter => okQuarter quarter
  | .hotRowMigration quarter => okQuarter quarter
  | .migrationCommit quarter => okQuarter quarter
  | .objCreate => true
  | .objWrite _ _ => true
  | .objRead => true
  | .objRelease => true
  | .objectReleaseComplete tenant obj => okTenant tenant && okObject obj
  | .pageMove quarter page => okQuarter quarter && okCtxPage page
  | .pageMoveCommit quarter => okQuarter quarter
  | .pageHoldExpiry page => okCtxPage page
  | .slotRead _ => true
  | .slotWrite _ _ => true
  | .writeCompletion part => okPart part
  | .slotDiscard _ => true
  | .toObj _ _ => true
  | .readTurn die _ => okDie die
  | .programTurn die x => okDie die && x.wf
  | .mapCheckpoint => true
  | .copy chan _ => okDray chan
  | .deint chan _ => okDray chan
  | .int chan _ => okDray chan
  | .planeSplit chan _ => okDray chan
  | .planeJoin chan _ => okDray chan
  | .drayReadback chan _ => okDray chan
  | .idleWord port w refHops => okTeamPort port && w.wf && okByte refHops
  | .coll port w _ => okTeamPort port && w.wf
  | .memRd port w addr units => okTeamPort port && w.wf && okLine addr && okUnits units
  | .memWr port w addr _ => okTeamPort port && w.wf && okLine addr
  | .memRsp port w _ => okTeamPort port && w.wf
  | .work port w m => okTeamPort port && w.wf && okModule m.module && okCtx m.ctx
  | .result port w m => okTeamPort port && w.wf && okModule m.module && okCtx m.ctx
  | .nak port seq => okTeamPort port && okByte seq
  | .replayTimeout port => okTeamPort port
  | .portRetrain port _ _ => okTeamPort port
  | .prepare d => d.wf
  | .commitDecision _ _ => true
  | .apply coord _ => okPos coord
  | .abort coord _ _ => okPos coord
  | .commitApplyCycle => true
  | .leave pos => okPos pos
  | .lost pos _ => okPos pos
  | .lostApply => true
  | .lostWaitExpiry pos badPorts => okPos pos && okByte badPorts
  | .cbTimeout coach tag => okCoach coach && okTag tag
  | .allReduce cid members => okCid cid && okByte members
  | .reduceScatter cid members => okCid cid && okByte members
  | .allGather cid members => okCid cid && okByte members
  | .broadcast cid members => okCid cid && okByte members
  | .point cid members => okCid cid && okByte members
  | .domWork port f m => okDomPort port && f.wf && okModule m.module && okCtx m.ctx
  | .domResult port f m => okDomPort port && f.wf && okModule m.module && okCtx m.ctx
  | .ack port f => okDomPort port && f.wf
  | .domainRto module => okModule module
  | .dirReport port f entry => okDomPort port && f.wf && entry.wf
  | .dirQuery port f module shard => okDomPort port && f.wf && okModule module && okShard shard
  | .dirAnswer port f entry => okDomPort port && f.wf && entry.all DirEntry.wf
  | .cbDirQuery _ => true
  | .dirQueryTimeout => true
  | .cbTeamCfg _ => true
  | .getVersion => true
  | .getCapabilities => true
  | .negotiateAlgorithms _ _ => true
  | .getDigests => true
  | .getCertificate slot => okCert slot
  | .challenge slot => okCert slot
  | .getMeasurements index => okByte index
  | .debugChallenge level => okByte level
  | .debugResponse _ => true
  | .secLock _ => true
  | .scrub _ _ => true
  | .cePeriod => true
  | .coachFault coach => okCoach coach
  | .powerInterval vin iin watts => okHalf vin && okHalf iin && okHalf watts
  | .thermalInterval => true
  | .shutdown cause => okByte cause
  | .autoRestart => true
  | .sensorSample _ => true
  | .leakSense => true
  | .logRecord => true
  | .ostLogAck _ => true
  | .ostNow => true
  | .cageModulePlugged cage _ => okCage cage
  | .order _ => true
  | .logRead _ _ => true
  | .fetch => true
  | .discard => true
  | .transferComplete _ => true
  | .verificationComplete => true
  | .activateFirmware => true
  | .cancelUpdate => true
  | .calibrationStep hbm chan _ => okMemChan hbm chan
  | .maintenanceWithdrawal coach _ => okCoach coach
  | .withdrawalEnd coach => okCoach coach
  | .hubLbCtrl _ _ => true
  | .hubLbStatus _ => true
  | .hubClkStatus _ => true
  | .scanReset => true
  | .shiftIr => true
  | .shiftDr => true
  | .runIdle => true
  | .hubOrderApplied => true
  | .hubOrderConflict => true
  | .hubDmaErr => true
  | .tpAdmitCount => true
  | .tpDenyCount => true
  | .tpPreemptCount => true
  | .tpSwapOutCount => true
  | .tpSwapInCount => true
  | .tpDropCount => true
  | .skePassCount => true
  | .skeRowCount => true
  | .sluCmdCount quarter => okQuarter quarter
  | .sluElemCount quarter => okQuarter quarter
  | .sluRefuseCount quarter => okQuarter quarter
  | .txuSegCount => true
  | .txuDetokCount => true
  | .rnuHitCount quarter => okQuarter quarter
  | .rnuMissCount quarter => okQuarter quarter
  | .ctxPrefixHitCount => true
  | .ctxPrefixMissCount => true
  | .ctxDraftedCount => true
  | .ctxAcceptedCount => true
  | .ctxRollbackCount => true
  | .ctxBlocksRead => true
  | .gtuCmdCount quarter => okQuarter quarter
  | .gtuRowCount quarter => okQuarter quarter
  | .gtuMigrateCount quarter => okQuarter quarter
  | .gtuAbandonCount quarter => okQuarter quarter
  | .gtuUpdFailCount quarter => okQuarter quarter
  | .mtMigrateCount => true
  | .mtAbandonCount => true
  | .sbReadCount => true
  | .sbWriteBytes => true
  | .sbRebuildCount => true
  | .drDescCount => true
  | .drByteCount => true
  | .drFailCount => true
  | .cbFlitErrCount => true
  | .cbReplayCount => true
  | .cbRelayCount => true
  | .cbCollCount => true
  | .cbDomDropCount => true
  | .secEventCount => true
  | .hubErrCount => true
  | .pwrSkipCount => true
  | .ostLogLost => true
  | .ostDeferCount => true
  | .hubLbErr => true
  | .registerWrite w => w.wf
  | .portDown port => okTeamPort port
  | .failedWord port w => okTeamPort port && w.wf
  | .trainWord port t => okTeamPort port && t.wf
  | .slewComplete => true
  | .discardedFrame port f => okDomPort port && f.wf
  | .pldmTransfer => true
  | .loopbackFollower _ => true
  | .loopbackLaneLock lane _ _ => okLbLane lane
  | .domainPcsLock port _ _ => okDomPort port

end Sys2Proof
end

