-- ==== Sys2Proof/Certificates/Slice0/Obligations.lean ====
section
/-!
DEFINITION. Certificates/Slice0/Obligations.lean: the statements for the provers. `Completes` (Safety.lean) says that a
command answers a next state with the queue it found; an equation of the block after it says what the command writes and
that it writes nothing else.
-/
open Sys2Proof Sys2Proof.Machine

/-- A step of a state whose queue has a command in front is exec of that command, with the rest of the queue. -/
def Obligations.StepRunsFrontCommand : Prop :=
  ∀ (c : Instr) (s : State), step { s with pending := c :: s.pending } = exec c s

/-- With an empty queue one ungated CCLK passes (DESIGN CHOICE, assumption 1): once the PLL is locked the CCLK count rises by
one, the delivered count unless R626 swallows this CCLK, and TICK by two fifths of an OCLK period per CCLK (R10, R637). -/
def Obligations.EmptyQueuePassesOneCclk : Prop :=
  ∀ (s : State), s.pending = [] → s.b.clk.j1Up = true → s.b.clk.locked = true →
    ∃ t, step s = .next t ∧ t.pending = [] ∧
      t.b.clk.cclk = s.b.clk.cclk + 1 ∧
      t.b.clk.delivered = s.b.clk.delivered + (if swallowed t.b.rel.skip (s.b.clk.cclk % 64) then 0 else 1) ∧
      t.b.rel.skip = (if s.b.clk.cclk % 64 = 0 then max s.b.rel.sPower s.b.rel.sThermal else s.b.rel.skip) ∧
      5 * t.b.ost.tick + t.b.ost.tickSub = 5 * s.b.ost.tick + s.b.ost.tickSub + 2 ∧
      t.b.mem = s.b.mem ∧ t.b.ctxs = s.b.ctxs ∧ t.b.coaches = s.b.coaches ∧ t.b.tenants = s.b.tenants

/-- Skip level S swallows, of the first n CCLK, n × S / 64 rounded down, so S of each period of 64 (R626). -/
def Obligations.SkipLevelSwallowsItsShare : Prop :=
  ∀ (S n : Nat), S ≤ 64 → (List.range n).countP (swallowed S) = n * S / 64

/-- Every command of the table answers a next state and leaves the queue of waiting commands alone. -/
def Obligations.EveryCommandAnswersNext : Prop :=
  ∀ (c : Instr) (s : State), ∃ t, exec c s = .next t ∧ t.pending = s.pending

/-- As many steps as commands wait take every command, in their order, and leave the queue empty. -/
def Obligations.QueueDrainsInOrder : Prop :=
  (∀ (s : State), ∃ t, stepMany s.pending.length s = some t ∧ t.pending = []) ∧
  ∀ (s t : State) (c : Instr) (rest : List Instr), s.pending = c :: rest → step s = .next t → t.pending = rest

/-- Whatever a step does, memory stays in its canonical form. -/
def Obligations.EveryStepKeepsMemoryCanonical : Prop :=
  ∀ (s t : State), Memory.wf s.b.mem = true → step s = .next t → Memory.wf t.b.mem = true

/-- The memory after reset lists nothing and is in canonical form. -/
def Obligations.ResetMemoryCanonical : Prop :=
  Memory.wf State.reset.b.mem = true ∧ State.reset.b.mem = [] ∧ State.reset.pending = []

/-- What reset leaves (R61, R72, R75, R76): bring-up stage HELD, reset cause 0x01, main conversion off, no PLL lock, no tenant, no
context, no coach at work, and the register values that R84, R176 to R179, R302, R493 and R579 state. -/
def Obligations.ResetLeavesStatedValues : Prop :=
  State.reset.b.clk.stage = .held ∧ State.reset.b.clk.cause = 0x01 ∧ State.reset.b.clk.mainOn = false ∧
  State.reset.b.clk.locked = false ∧ State.reset.b.tenants = [] ∧ State.reset.b.ctxs = [] ∧
  State.reset.b.tp.ceiling = 0x58 ∧ State.reset.b.tp.floor = 0x1C0 ∧ State.reset.b.tp.queueLimit = 0x2FAF ∧
  State.reset.b.tp.queueAge = 0x989 ∧ State.reset.b.ske.turnLen = 0x4000 ∧ State.reset.b.mt.poolHbm = 0x80 ∧
  State.reset.b.mt.poolDdr = 0x400 ∧ State.reset.b.mt.demote = 2 ∧ State.reset.b.mt.promote = 8 ∧
  State.reset.b.cb.collTimeout = 0x40000 ∧ State.reset.b.cb.retryLimit = 4 ∧ State.reset.b.cb.etype = 0x88B5 ∧
  State.reset.b.rel.autoRestart = true ∧ State.reset.b.rel.capLimit = 4000

/-- Device memory (R9, R464): a written byte is read back and the others stay; bytes whose context page is freed are undefined and the
others read as before; the canonical form changes no byte that is read. -/
def Obligations.MemoryOperations : Prop :=
  (∀ (b : Block) (a i : Nat) (xs : List Byte),
    (∀ h : a ≤ i ∧ i < a + xs.length, (b.writeMem a xs).readByte i = xs[i - a]'(by omega)) ∧
    (¬ (a ≤ i ∧ i < a + xs.length) → (b.writeMem a xs).readByte i = b.readByte i)) ∧
  (∀ (b : Block) (a n i : Nat),
    (a ≤ i ∧ i < a + n → tabFind? i (b.eraseMem a n).mem = none) ∧
    (¬ (a ≤ i ∧ i < a + n) → (b.eraseMem a n).readByte i = b.readByte i)) ∧
  (∀ (m : List Host.Cell) (i : Nat), tabFind? i (tabCanon m) = tabFind? i m ∧ Memory.wf (tabCanon m) = true)

/-- The layout of a reply record (R104), field by field, every reserved bit 0; `now` is the CCLK in which the reply takes its
slot; STATUS is attention, class and code as R106 places them. -/
def Obligations.ReplyRecordLayout : Prop :=
  ∀ (r : Reply) (attn : Byte) (now : Nat) (phase : Bool),
    r.cls < 2 ^ 8 → r.ctx < 2 ^ 17 → r.step < 2 ^ 6 → r.aux < 2 ^ 24 → r.payload.length ≤ 32 →
    (r.bytes attn now phase).length = 64 ∧
    fieldAt (r.bytes attn now phase) 0x00 4 = attn.toNat * 2 ^ 24 + r.cls * 2 ^ 16 + r.code.toNat ∧
    fieldAt (r.bytes attn now phase) 0x04 4 =
      (if r.outbuf then 2 ^ 25 else 0) + (if r.last then 2 ^ 24 else 0) + r.ctx ∧
    fieldAt (r.bytes attn now phase) 0x08 8 = r.tag.toNat ∧
    fieldAt (r.bytes attn now phase) 0x10 4 = r.step * 2 ^ 16 + r.seq % 2 ^ 16 ∧
    fieldAt (r.bytes attn now phase) 0x14 4 = r.aux * 2 ^ 8 + r.payload.length ∧
    ((r.bytes attn now phase).drop 0x18).take r.payload.length = r.payload ∧
    fieldAt (r.bytes attn now phase) 0x38 4 =
      (match r.admitAt with
       | some a => min ((now - a) / 1024) 0xFFFFFFFF
       | none => 0) ∧
    fieldAt (r.bytes attn now phase) 0x3C 4 = (if phase then 2 ^ 31 else 0)

/-- Reads of the RC registers of the host interface and the turnpike (R84, R115, R176): the read answers the count, and the count
is 0 afterwards; nothing else changes (`ReadsAndClears`). -/
def Obligations.RcHostAndTurnpikeReads : Prop :=
  ∀ (s : State), s.b.mainUp = true →
  ReadsAndClears .hubOrderApplied s 0x0008 (fun b => b.host.orderApplied) (fun b => { b with host := { b.host with orderApplied := 0 } }) ∧
  ReadsAndClears .hubOrderConflict s 0x0010 (fun b => b.host.orderConflict) (fun b => { b with host := { b.host with orderConflict := 0 } }) ∧
  ReadsAndClears .hubDmaErr s 0x0018 (fun b => b.host.dmaErr) (fun b => { b with host := { b.host with dmaErr := 0 } }) ∧
  ReadsAndClears .tpAdmitCount s 0x2030 (fun b => b.tp.admitCount) (fun b => { b with tp := { b.tp with admitCount := 0 } }) ∧
  ReadsAndClears .tpDenyCount s 0x2038 (fun b => b.tp.denyCount) (fun b => { b with tp := { b.tp with denyCount := 0 } }) ∧
  ReadsAndClears .tpPreemptCount s 0x2040 (fun b => b.tp.preemptCount) (fun b => { b with tp := { b.tp with preemptCount := 0 } }) ∧
  ReadsAndClears .tpSwapOutCount s 0x2048 (fun b => b.tp.swapOutCount) (fun b => { b with tp := { b.tp with swapOutCount := 0 } }) ∧
  ReadsAndClears .tpSwapInCount s 0x2050 (fun b => b.tp.swapInCount) (fun b => { b with tp := { b.tp with swapInCount := 0 } }) ∧
  ReadsAndClears .tpDropCount s 0x2058 (fun b => b.tp.dropCount) (fun b => { b with tp := { b.tp with dropCount := 0 } })

/-- Reads of the RC registers of the sketch engines, text unit, context store, memory tiers and strongbox (R303, R401, R432, R493,
R516): the read answers the count, and the count is 0 afterwards; nothing else changes. -/
def Obligations.RcSearchTextAndStoreReads : Prop :=
  ∀ (s : State), s.b.mainUp = true →
  ReadsAndClears .skePassCount s 0x3018 (fun b => b.ske.passCount) (fun b => { b with ske := { b.ske with passCount := 0 } }) ∧
  ReadsAndClears .skeRowCount s 0x3020 (fun b => b.ske.rowCount) (fun b => { b with ske := { b.ske with rowCount := 0 } }) ∧
  ReadsAndClears .txuSegCount s 0x5010 (fun b => b.txu.segCount) (fun b => { b with txu := { b.txu with segCount := 0 } }) ∧
  ReadsAndClears .txuDetokCount s 0x5018 (fun b => b.txu.detokCount) (fun b => { b with txu := { b.txu with detokCount := 0 } }) ∧
  ReadsAndClears .ctxPrefixHitCount s 0x6008 (fun b => b.store.hitCount) (fun b => { b with store := { b.store with hitCount := 0 } }) ∧
  ReadsAndClears .ctxPrefixMissCount s 0x6010 (fun b => b.store.missCount) (fun b => { b with store := { b.store with missCount := 0 } }) ∧
  ReadsAndClears .ctxDraftedCount s 0x6018 (fun b => b.store.draftedCount) (fun b => { b with store := { b.store with draftedCount := 0 } }) ∧
  ReadsAndClears .ctxAcceptedCount s 0x6020 (fun b => b.store.acceptedCount) (fun b => { b with store := { b.store with acceptedCount := 0 } }) ∧
  ReadsAndClears .ctxRollbackCount s 0x6028 (fun b => b.store.rollbackCount) (fun b => { b with store := { b.store with rollbackCount := 0 } }) ∧
  ReadsAndClears .ctxBlocksRead s 0x6030 (fun b => b.store.blocksRead) (fun b => { b with store := { b.store with blocksRead := 0 } }) ∧
  ReadsAndClears .mtMigrateCount s 0x8020 (fun b => b.mt.migrateCount) (fun b => { b with mt := { b.mt with migrateCount := 0 } }) ∧
  ReadsAndClears .mtAbandonCount s 0x8028 (fun b => b.mt.abandonCount) (fun b => { b with mt := { b.mt with abandonCount := 0 } }) ∧
  ReadsAndClears .sbReadCount s 0x9040 (fun b => b.sb.readCount) (fun b => { b with sb := { b.sb with readCount := 0 } }) ∧
  ReadsAndClears .sbWriteBytes s 0x9048 (fun b => b.sb.writeBytes) (fun b => { b with sb := { b.sb with writeBytes := 0 } }) ∧
  ReadsAndClears .sbRebuildCount s 0x9050 (fun b => b.sb.rebuildCount) (fun b => { b with sb := { b.sb with rebuildCount := 0 } })

/-- Reads of the RC registers of a quarter's selection, reins and gather unit (R337, R401, R460): the read answers that
quarter's count, and that count is 0 afterwards; nothing else changes. -/
def Obligations.RcQuarterUnitReads : Prop :=
  ∀ (s : State) (q : Nat), s.b.mainUp = true → q < 4 →
  ReadsAndClears (.sluCmdCount q) s (0x4008 + 0x40 * q) (fun b => (b.sluQ q).cmdCount) (fun b => b.modSlu q fun u => { u with cmdCount := 0 }) ∧
  ReadsAndClears (.sluElemCount q) s (0x4010 + 0x40 * q) (fun b => (b.sluQ q).elemCount) (fun b => b.modSlu q fun u => { u with elemCount := 0 }) ∧
  ReadsAndClears (.sluRefuseCount q) s (0x4018 + 0x40 * q) (fun b => (b.sluQ q).refuseCount) (fun b => b.modSlu q fun u => { u with refuseCount := 0 }) ∧
  ReadsAndClears (.rnuHitCount q) s (0x5110 + 0x40 * q) (fun b => (b.rnuQ q).hit) (fun b => b.modRnu q fun u => { u with hit := 0 }) ∧
  ReadsAndClears (.rnuMissCount q) s (0x5118 + 0x40 * q) (fun b => (b.rnuQ q).miss) (fun b => b.modRnu q fun u => { u with miss := 0 }) ∧
  ReadsAndClears (.gtuCmdCount q) s (0x7008 + 0x80 * q) (fun b => (b.gtuQ q).cmdCount) (fun b => b.modGtu q fun u => { u with cmdCount := 0 }) ∧
  ReadsAndClears (.gtuRowCount q) s (0x7010 + 0x80 * q) (fun b => (b.gtuQ q).rowCount) (fun b => b.modGtu q fun u => { u with rowCount := 0 }) ∧
  ReadsAndClears (.gtuMigrateCount q) s (0x7028 + 0x80 * q) (fun b => (b.gtuQ q).migrateCount) (fun b => b.modGtu q fun u => { u with migrateCount := 0 }) ∧
  ReadsAndClears (.gtuAbandonCount q) s (0x7030 + 0x80 * q) (fun b => (b.gtuQ q).abandonCount) (fun b => b.modGtu q fun u => { u with abandonCount := 0 }) ∧
  ReadsAndClears (.gtuUpdFailCount q) s (0x7038 + 0x80 * q) (fun b => (b.gtuQ q).updFailCount) (fun b => b.modGtu q fun u => { u with updFailCount := 0 })

/-- Reads of the RC registers of the drays, the Cibin link, security, power and the Ostler (R543, R579, R608, R615, R632, R650,
R664): the read answers the count, and the count is 0 afterwards; nothing else changes. HUB_ERR_COUNT holds two counts. -/
def Obligations.RcLinkSecurityAndOstlerReads : Prop :=
  ∀ (s : State), s.b.mainUp = true →
  ReadsAndClears .drDescCount s 0xA008 (fun b => b.dr.descCount) (fun b => { b with dr := { b.dr with descCount := 0 } }) ∧
  ReadsAndClears .drByteCount s 0xA010 (fun b => b.dr.byteCount) (fun b => { b with dr := { b.dr with byteCount := 0 } }) ∧
  ReadsAndClears .drFailCount s 0xA018 (fun b => b.dr.failCount) (fun b => { b with dr := { b.dr with failCount := 0 } }) ∧
  ReadsAndClears .cbFlitErrCount s 0xB020 (fun b => b.cb.flitErr) (fun b => { b with cb := { b.cb with flitErr := 0 } }) ∧
  ReadsAndClears .cbReplayCount s 0xB028 (fun b => b.cb.replayCount) (fun b => { b with cb := { b.cb with replayCount := 0 } }) ∧
  ReadsAndClears .cbRelayCount s 0xB030 (fun b => b.cb.relayCount) (fun b => { b with cb := { b.cb with relayCount := 0 } }) ∧
  ReadsAndClears .cbCollCount s 0xB038 (fun b => b.cb.collCount) (fun b => { b with cb := { b.cb with collCount := 0 } }) ∧
  ReadsAndClears .cbDomDropCount s 0xB068 (fun b => b.cb.domDrop) (fun b => { b with cb := { b.cb with domDrop := 0 } }) ∧
  ReadsAndClears .secEventCount s 0xC028 (fun b => b.sec.eventCount) (fun b => { b with sec := { b.sec with eventCount := 0 } }) ∧
  ReadsAndClears .pwrSkipCount s 0xD0A8 (fun b => b.rel.skipCount) (fun b => { b with rel := { b.rel with skipCount := 0 } }) ∧
  ReadsAndClears .ostLogLost s 0xE040 (fun b => b.ost.logLost) (fun b => { b with ost := { b.ost with logLost := 0 } }) ∧
  ReadsAndClears .ostDeferCount s 0xE070 (fun b => b.ost.deferCount) (fun b => { b with ost := { b.ost with deferCount := 0 } }) ∧
  ReadsAndClears .hubLbErr s 0xF010 (fun b => b.ost.lbErr) (fun b => { b with ost := { b.ost with lbErr := 0 } }) ∧
  (∀ b, b = (if s.b.rel.errUncorr = s.b.rcOld 0xD074 ∧ s.b.rel.errCorr = s.b.rcOld 0xD070 then s.b else s.b.tick) →
    exec .hubErrCount s = .next { s with b := { b with
      rel := { b.rel with errUncorr := 0, errCorr := 0 }
      host := { b.host with
        readData := b.rel.errUncorr ++ b.rel.errCorr, rcBase := tabErase 0xD074 (tabErase 0xD070 b.host.rcBase) } } })

/-- Power and the resets (R41, R42, R49, R61, R63, R75, R598): what an AO power-on, the start and the stop of main conversion
and PERST_N leave; flash content and the strongbox's slots survive each, memory, contexts, tenants and coaches none. -/
def Obligations.PowerAndResetsLeave : Prop :=
  (∀ (s : State) (straps : BitVec 6), (∃ b, exec (.aoPowerOn straps) s = .next { s with b := b } ∧
    b.clk.straps = straps ∧ b.clk.cause = 0x01 ∧ b.clk.stage = .held ∧ b.clk.mainOn = false ∧ b.clk.locked = false ∧
    b.ost.tick = 0 ∧ b.mem = [] ∧ b.ctxs = [] ∧ b.tenants = [] ∧ b.coaches = [] ∧ b.sb.slots = s.b.sb.slots ∧
    b.flash = { s.b.flash with aoCount := s.b.flash.aoCount + 1 })) ∧
  (∀ (s : State), s.b.clk.j1Up = true → s.b.clk.mainOn = false → s.b.strapBoot ≠ 0 → s.b.rel.shutHold = false →
    (∃ b, exec (.mainPowerOn true) s = .next { s with b := b } ∧
      b.clk.mainOn = true ∧ b.clk.stage = .held ∧ b.clk.resetting = some .mainPowerOn ∧
      b.clk.cause = 0x02 ∧ b.clk.convTick = s.b.ost.tick ∧ b.sec.pufOk = true ∧ b.mem = [] ∧ b.ctxs = [] ∧
      b.tenants = [] ∧ b.coaches = [] ∧ b.sb.slots = s.b.sb.slots ∧ b.flash = s.b.flash)) ∧
  (∀ (s : State), s.b.clk.j1Up = true → s.b.clk.mainOn = false → s.b.strapBoot ≠ 0 → s.b.rel.shutHold = false →
    (∃ b, exec (.mainPowerOn false) s = .next { s with b := b } ∧
      b.clk.mainOn = true ∧ b.clk.stage = .failed ∧ b.sec.lastEvent = 6 ∧ b.sec.pufOk = false ∧ b.flash = s.b.flash)) ∧
  (∀ (s : State), s.b.clk.j1Up = true → s.b.clk.mainOn = false → s.b.strapBoot = 0 →
    exec (.mainPowerOn true) s = .next { s with b := { s.b with clk := { s.b.clk with mated := true } } }) ∧
  (∀ (s : State), s.b.clk.mainOn = true → (∃ b, exec (.mainConversionStop .inputLow) s = .next { s with b := b } ∧
    b.clk.mainOn = false ∧ b.clk.stage = .held ∧ b.clk.locked = false ∧ b.clk.j1Up = false ∧ b.flash = s.b.flash ∧
    b.sb.slots = s.b.sb.slots)) ∧
  (∀ (s : State), s.b.clk.mainOn = true → (∃ b, exec (.mainConversionStop .mateHigh) s = .next { s with b := b } ∧
    b.clk.mainOn = false ∧ b.clk.stage = .held ∧ b.clk.mated = false ∧ b.clk.j1Up = s.b.clk.j1Up ∧
    b.flash = s.b.flash ∧ b.sb.slots = s.b.sb.slots)) ∧
  (∀ (s : State), s.b.clk.mainOn = true → s.b.clk.resetting = none → (∃ b, exec .perstN s = .next { s with b := b } ∧
    b.clk.stage = .held ∧ b.clk.cause = 0x03 ∧ b.clk.perstHigh = false ∧ b.clk.mainOn = true ∧ b.mem = [] ∧ b.ctxs = [] ∧
    b.tenants = [] ∧ b.coaches = [] ∧ b.sb.slots = s.b.sb.slots ∧ b.flash = s.b.flash)) ∧
  (∀ (s : State) (j : ResetKind), s.b.clk.mainOn = true → s.b.clk.resetting = some j → j ≠ .warm →
    (∃ b, exec .perstN s = .next { s with b := b } ∧
      b.clk = { s.b.clk with perstHigh := false } ∧ b.ost.events.length = s.b.ost.events.length + 1 ∧
      b.mem = s.b.mem ∧ b.ctxs = s.b.ctxs ∧ b.tenants = s.b.tenants ∧ b.flash = s.b.flash))

/-- Bring-up passes through its stages in the order of R67, each with what R66 to R71, R599 and R621 say it does. -/
def Obligations.BringupStagesInOrder : Prop :=
  (∀ (s : State), s.b.clk.mainOn = true → s.b.clk.stage = .held → s.b.clk.waitRef = false →
    s.b.clk.convTick + 15000000 ≤ s.b.ost.tick →
    exec .bringupStart s = .next { s with b := { s.b with
      clk := { s.b.clk with perstHigh := true, stage := .pllLock, startTick := some s.b.ost.tick }
      ost := { s.b.ost with mainCount := s.b.ost.mainCount + 1 } } }) ∧
  (∀ (s : State), s.b.clk.mainOn = true → s.b.clk.stage = .held → s.b.ost.tick < s.b.clk.convTick + 15000000 →
    exec .bringupStart s = .next s) ∧
  (∀ (s : State), s.b.clk.mainOn = true → s.b.clk.stage = .pllLock →
    exec .pllLock s = .next { s with b := { s.b with
      clk := { s.b.clk with locked := true, onOclk := true, stage := .fwLoad } } }) ∧
  (∀ (s : State), s.b.clk.mainOn = true → s.b.clk.stage = .fwLoad → s.b.sec.pufOk = true → s.b.strapBoot = 3 →
    s.b.imageOk s.b.flash.primary = true → s.b.flash.pendFence = 0 → s.b.flash.pendUnfence = 0 →
    (∃ b, exec .fwLoad s = .next { s with b := b } ∧
      b.clk = { s.b.clk with stage := .train, resetNow := false } ∧ b.sec.svn = (s.b.image s.b.flash.primary).svn ∧
      b.sec.backup = false ∧ b.sec.alias_ = some (s.b.image s.b.flash.primary).content ∧
      b.cb.module = s.b.flash.teamModule ∧ b.rel.fenced = s.b.flash.fences ∧ b.mem = s.b.mem)) ∧
  (∀ (s : State), s.b.clk.mainOn = true → s.b.clk.stage = .fwLoad → s.b.sec.pufOk = true → s.b.strapBoot = 2 →
    s.b.imageOk s.b.flash.backup = true →
    (∃ b, exec .fwLoad s = .next { s with b := b } ∧
      b.clk = { s.b.clk with stage := .train, resetNow := false } ∧ b.sec.svn = (s.b.image s.b.flash.backup).svn ∧ b.sec.backup = true ∧
      b.sec.lastEvent = 1 ∧ b.mem = s.b.mem)) ∧
  (∀ (s : State), s.b.clk.mainOn = true → s.b.clk.stage = .fwLoad → s.b.strapBoot = 3 → s.b.flash.oldRoles = none →
    s.b.imageOk s.b.flash.primary = false → s.b.imageOk s.b.flash.backup = false →
    (∃ b, exec .fwLoad s = .next { s with b := b } ∧ b.clk.stage = .failed ∧ b.mem = s.b.mem)) ∧
  (∀ (s : State), s.b.clk.mainOn = true → s.b.clk.stage = .train → s.b.bringupOk = true →
    (∃ b, exec (.train []) s = .next { s with b := b } ∧
      b.clk.stage = .selftest ∧ b.clk.cold = false ∧ b.flash.training = true ∧
      b.clk.journal = (s.b.sb.replay && s.b.clk.resetting != some .warm) ∧ b.rel = s.b.rel ∧ b.mem = s.b.mem)) ∧
  (∀ (s : State), s.b.clk.mainOn = true → s.b.clk.stage = .train → s.b.bringupOk = false → s.b.flash.oldRoles = none →
    (∃ b, exec (.train []) s = .next { s with b := b } ∧ b.clk.stage = .failed ∧ b.mem = s.b.mem)) ∧
  (∀ (s : State), s.b.clk.mainOn = true → s.b.clk.stage = .selftest → s.b.bringupOk = true →
    (∃ b, exec (.bringupSelftest []) s = .next { s with b := b } ∧
      b.clk.stage = (if s.b.clk.mapDone then .localReady else .mapLoad) ∧ b.clk.selftestDone = true ∧ b.mem = s.b.mem)) ∧
  (∀ (s : State), s.b.clk.mainOn = true → s.b.clk.stage = .mapLoad → s.b.clk.mapDone = false →
    s.b.clk.selftestDone = true → (∃ b, exec (.mapLoad true true) s = .next { s with b := b } ∧
      b.clk.stage = .localReady ∧ b.clk.mapDone = true ∧ b.clk.journal = false ∧ b.clk.rebuild = false ∧
      (∀ x ∈ b.ske.shards, x.2.state ≠ .closing) ∧ b.mem = s.b.mem)) ∧
  (∀ (s : State), s.b.clk.mainOn = true → s.b.clk.stage = .mapLoad → s.b.clk.mapDone = false → s.b.clk.rebuild = false →
    exec (.mapLoad false true) s = .next { s with b := { s.b with
      clk := { s.b.clk with rebuild := true, journal := false } } }) ∧
  (∀ (s : State), s.b.clk.mainOn = true → s.b.clk.stage = .localReady → s.b.strapBoot = 3 → s.b.alone = true →
    s.b.flash.oldRoles = none → (∃ b, exec .localReady s = .next { s with b := b } ∧
      b.clk.stage = .ready ∧ b.clk.resetting = none ∧ b.clk.localReadyTick = s.b.ost.tick ∧ b.cb.lead = true ∧
      b.cb.size = 1 ∧ b.cb.present = BitVec.ofNat 8 (2 ^ s.b.position) ∧ b.mem = s.b.mem)) ∧
  (∀ (s : State), s.b.clk.mainOn = true → s.b.clk.stage = .localReady → s.b.strapBoot = 1 →
    (∃ b, exec .localReady s = .next { s with b := b } ∧ b.clk.stage = .test ∧ b.mem = s.b.mem)) ∧
  (∀ (s : State), s.b.clk.mainOn = true → s.b.clk.stage = .localReady → s.b.strapBoot = 3 → s.b.alone = false →
    (∃ b, exec .localReady s = .next { s with b := b } ∧
      b.clk.stage = .teamJoin ∧ b.cb.lead = s.b.isLead ∧ b.cb.present = BitVec.ofNat 8 (2 ^ s.b.position) ∧
      b.cb.inviting = s.b.isLead ∧
      (∀ p, p < 8 → (b.port p).state = if s.b.fenced 13 p || s.b.laneOff p then .disabled else .training) ∧
      b.mem = s.b.mem))

/-- The team's forming and the module's announcements (R68, R70, R71, R80): the lead admits an expected member and begins
lockstep at link cycle 0 when the last one reports; JOIN_LATE; the readiness messages are each sent once. -/
def Obligations.TeamFormsAndModuleAnnounces : Prop :=
  (∀ (s : State) (r : MemberReport), s.b.clk.mainOn = true → s.b.clk.stage = .teamJoin → s.b.isLead = true → r.pos < 8 →
    bit s.b.flash.teamExpected.toNat r.pos = true → (s.b.cb.teamMods.all fun m => m.2 != r.module) = true →
    r.latency ≤ 64 → s.b.cb.lockstep = false → s.b.fenced 13 (portTo s.b.position r.pos) = false →
    s.b.laneOff (portTo s.b.position r.pos) = false →
    s.b.cb.present ||| BitVec.ofNat 8 (2 ^ r.pos) = s.b.cb.expected →
    (∃ b, exec (.teamJoin [r]) s = .next { s with b := b } ∧
      b.cb.present = s.b.cb.expected ∧ b.cb.lockstep = true ∧ b.cb.linkCycle = 0 ∧ 2 ≤ b.cb.l ∧ r.latency ≤ b.cb.l ∧
      (b.port (portTo s.b.position r.pos)).state = .up ∧ tabFind? r.pos b.cb.teamMods = some r.module ∧
      b.mem = s.b.mem)) ∧
  (∀ (s : State), s.b.clk.mainOn = true → s.b.clk.stage = .teamJoin → s.b.isLead = true →
    s.b.clk.localReadyTick + 2500000000 ≤ s.b.ost.tick →
    exec .joinLate s = .next { s with b := { s.b with clk := { s.b.clk with joinLate := true } } }) ∧
  (∀ (s : State), s.b.mainUp = true → s.b.clk.drsSent = false →
    exec .deviceReadinessStatus s = .next { s with b := { s.b with
      clk := { s.b.clk with drsSent := true }
      host := { s.b.host with
        out := s.b.host.out ++ [.drs]
        pcie := { s.b.host.pcie with
          up := true, rate := trainedRate Config.hostRate, width := trainedWidth Config.hostWidth, flit := Config.hostFlit } } } }) ∧
  (∀ (s : State), s.b.clk.drsSent = true → s.b.host.vfEnable = false →
    exec .vfEnable s = .next { s with b := { s.b with host := { s.b.host with
      vfEnable := true, out := s.b.host.out ++ (List.range 256).map fun v => .frs (s.b.host.pcie.rid + (v + 1)) } } })

/-- The reference clock (R58 to R60, R73): loss, the end of the holdover on a member and on a lead, the return and the
end of the slew; REF_LOST is write-1-to-clear. -/
def Obligations.ReferenceClockEvents : Prop :=
  (∀ (s : State), s.b.clk.locked = true → (∃ b, exec .refLost s = .next { s with b := b } ∧
    b.clk = { s.b.clk with refLost := true, refNow := true, holdover := true } ∧ b.ost.events.length = s.b.ost.events.length + 1 ∧
    b = { s.b with clk := b.clk, ost := b.ost })) ∧
  (∀ (s : State), s.b.clk.holdover = true → s.b.isLead = true → s.b.clk.mainOn = true → s.b.clk.resetting = none →
    (∃ b, exec .refHoldoverExpiry s = .next { s with b := b } ∧
      b.clk.cause = 0x05 ∧ b.clk.stage = .held ∧ b.clk.waitRef = true ∧ b.ctxs = [] ∧ b.flash = s.b.flash)) ∧
  (∀ (s : State), s.b.clk.holdover = true → s.b.isLead = false → s.b.teamQuiet → (∃ b, exec .refHoldoverExpiry s = .next { s with b := b } ∧
    b.clk = { s.b.clk with holdover := false, slewing := true, refSrc := 0,
                           stage := if s.b.clk.stage = .ready then .teamJoin else s.b.clk.stage } ∧
    b.cb.lockstep = false ∧ b.cb.present = BitVec.ofNat 8 (2 ^ s.b.position) ∧ b.ctxs = [])) ∧
  (∀ (s : State) (src : Nat), s.b.clk.waitRef = true →
    exec (.refReturn src) s = .next { s with b := { s.b with clk := { s.b.clk with waitRef := false } } }) ∧
  (∀ (s : State) (src : Nat), s.b.clk.waitRef = false → s.b.clk.locked = true → s.b.refValid src = true →
    (∃ b, exec (.refReturn src) s = .next { s with b := b } ∧
      b.clk = { s.b.clk with holdover := false, slewing := true,
                             refSrc := if s.b.isLead then 0 else BitVec.ofNat 4 src } ∧
      b = { s.b with clk := b.clk, cb := b.cb } ∧
      (∀ p ∈ b.cb.ports, p.2.isRef = true → s.b.isLead = false ∧ src = p.1 + 8))) ∧
  (∀ (s : State) (src : Nat), s.b.clk.waitRef = false → s.b.refValid src = false → exec (.refReturn src) s = .next s) ∧
  (∀ (s : State), s.b.clk.slewing = true → s.b.clk.stage ≠ .teamJoin →
    exec .slewComplete s = .next { s with b := { s.b with clk := { s.b.clk with slewing := false } } }) ∧
  (∀ (s : State), s.b.clk.slewing = true → s.b.clk.stage = .teamJoin → s.b.isLead = false →
    s.b.clk.refSrc.toNat = 8 + s.b.leadPort →
    exec .slewComplete s = .next { s with b := { s.b with
      clk := { s.b.clk with slewing := false }
      cb := { s.b.cb with out := s.b.cb.out ++ [.lockReport s.b.leadPort s.b.cb.module] } } }) ∧
  (∀ (s : State) (v : BitVec 64) (b : Block), s.b.mainUp = true → s.b.clk.resetNow = false → v.getLsbD 7 = true →
    b = (if s.b.clk.refNow then s.b.tick else s.b) →
    exec (.hubClkStatus v) s = .next { s with b := { b with clk := { b.clk with refLost := false } } }) ∧
  (∀ (s : State) (v : BitVec 64), v.getLsbD 7 = false → exec (.hubClkStatus v) s = .next s)

/-- Writes of a doorbell page's registers (R89 to R94, R110): the page acts on them while it is enabled or is PF0's order page,
a valid write takes effect, a bad one sets its error bit, and no other page changes. A clear of a bit that this CCLK has set acts in
the next one (R11; the model's order within a CCLK, assumption 3). -/
def Obligations.DoorbellPageWrites : Prop :=
  (∀ (s : State) (pg : Nat) (v : BitVec 64), s.b.pageOn pg = true → s.b.pageReset pg = false → v.getLsbD 0 = true →
    (s.b.page pg).active = false → (s.b.page pg).cfgOk = true →
    (∃ b, exec (.tdbCtrl pg v) s = .next { s with b := b } ∧ PageBecomes s pg { s.b.page pg with
      enable := true, reqPi := 0, reqCi := 0, rplPi := 0, rplCi := 0, phase := true, reserved := 0, owed := 0
      waiting := [] } b)) ∧
  (∀ (s : State) (pg : Nat) (v : BitVec 64), s.b.pageOn pg = true → s.b.pageReset pg = false → v.getLsbD 0 = true →
    ((s.b.page pg).active = true ∨ (s.b.page pg).cfgOk = false) →
    (∃ b, exec (.tdbCtrl pg v) s = .next { s with b := b } ∧ PageBecomes s pg { s.b.page pg with err := (s.b.page pg).err ||| 4, errNow := (s.b.page pg).errNow ||| 4 } b)) ∧
  (∀ (s : State) (pg : Nat) (v : BitVec 64), s.b.pageOn pg = true → s.b.pageReset pg = false → v.getLsbD 0 = false →
    (∃ b, exec (.tdbCtrl pg v) s = .next { s with b := b } ∧ PageBecomes s pg { s.b.page pg with enable := false } b)) ∧
  (∀ (s : State) (pg : Nat) (v : BitVec 64), s.b.pageOn pg = true → s.b.pageReset pg = false →
    (v.setWidth 32 - (s.b.page pg).reqCi).toNat ≤ 2 ^ (s.b.page pg).reqSize.toNat →
    (∃ b, exec (.tdbReqPi pg v) s = .next { s with b := b } ∧ PageBecomes s pg { s.b.page pg with reqPi := v.setWidth 32 } b)) ∧
  (∀ (s : State) (pg : Nat) (v : BitVec 64), s.b.pageOn pg = true → s.b.pageReset pg = false →
    2 ^ (s.b.page pg).reqSize.toNat < (v.setWidth 32 - (s.b.page pg).reqCi).toNat →
    (∃ b, exec (.tdbReqPi pg v) s = .next { s with b := b } ∧ PageBecomes s pg { s.b.page pg with err := (s.b.page pg).err ||| 1, errNow := (s.b.page pg).errNow ||| 1 } b)) ∧
  (∀ (s : State) (pg : Nat) (v : BitVec 64), s.b.pageOn pg = true → s.b.pageReset pg = false →
    (v.setWidth 32 - (s.b.page pg).rplCi).toNat ≤ ((s.b.page pg).rplPi - (s.b.page pg).rplCi).toNat →
    (∃ b, exec (.tdbRplCi pg v) s = .next { s with b := b } ∧ PageBecomes s pg { s.b.page pg with rplCi := v.setWidth 32 } b)) ∧
  (∀ (s : State) (pg : Nat) (v : BitVec 64), s.b.pageOn pg = true → s.b.pageReset pg = false →
    ((s.b.page pg).rplPi - (s.b.page pg).rplCi).toNat < (v.setWidth 32 - (s.b.page pg).rplCi).toNat →
    (∃ b, exec (.tdbRplCi pg v) s = .next { s with b := b } ∧ PageBecomes s pg { s.b.page pg with err := (s.b.page pg).err ||| 2, errNow := (s.b.page pg).errNow ||| 2 } b)) ∧
  (∀ (s : State) (pg : Nat) (v : BitVec 64), s.b.pageOn pg = true → s.b.pageReset pg = false →
    s.b.host.setNow pg &&& v.setWidth 8 = 0 → (∃ b, exec (.tdbAttnAck pg v) s = .next { s with b := b } ∧
      b.host.attnOf pg = s.b.host.attnOf pg &&& ~~~(v.setWidth 8) ∧
      (∀ q, q ≠ pg → b.host.attnOf q = s.b.host.attnOf q) ∧
      b = { s.b with host := { s.b.host with attn := b.host.attn } })) ∧
  (∀ (s : State) (pg : Nat) (v : BitVec 64), s.b.pageOn pg = true → s.b.pageReset pg = false →
    (s.b.page pg).errNow &&& v.setWidth 4 = 0 →
    (∃ b, exec (.tdbErr pg v) s = .next { s with b := b } ∧ PageBecomes s pg { s.b.page pg with err := (s.b.page pg).err &&& ~~~(v.setWidth 4) } b)) ∧
  (∀ (s : State) (pg : Nat) (v : BitVec 64), s.b.pageOn pg = true → s.b.host.flrNow = [] →
    s.b.clk.resetNow = false → (s.b.page pg).errNow &&& v.setWidth 4 ≠ 0 →
    exec (.tdbErr pg v) s = exec (.tdbErr pg v) { s with b := s.b.tick })

/-- A fetched record (R95, R96, R100 to R103): a good ROUTE record becomes its context's request, a good ORDER record waits at
the order port, a record that fails check 1 is refused with BAD_RSVD, and a failed read sets DMA_FAULT and clears ENABLE. -/
def Obligations.RequestRecordsAreFetched : Prop :=
  (∀ (s : State) (pg : Nat) (r : List Byte), s.b.fetchTurn pg = true → pg ≠ pf0Page → r.length = 128 →
    recordRsvd r = true → recordOk r = true → fieldAt r 0 1 = 1 →
    s.b.ownsCtx pg (bits (fieldAt r 4 4) 16 0) = true → (s.b.ctx (bits (fieldAt r 4 4) 16 0)).state ≠ .free →
    (s.b.ctx (bits (fieldAt r 4 4) 16 0)).req = none →
    (∃ b, exec (.requestRecord pg (.ok r)) s = .next { s with b := b } ∧
      b.ctx (bits (fieldAt r 4 4) 16 0) = { s.b.ctx (bits (fieldAt r 4 4) 16 0) with
        seq := 0, req := some (reqOf r s.b.clk.cclk) } ∧
      OtherContexts s (bits (fieldAt r 4 4) 16 0) b ∧
      b.page pg = { s.b.page pg with reqCi := (s.b.page pg).reqCi + 1, reserved := (s.b.page pg).reserved + 1
                                     owed := (s.b.page pg).owed + 1 } ∧
      b = { s.b with host := b.host, ctxs := b.ctxs })) ∧
  (∀ (s : State) (pg : Nat) (r : List Byte), s.b.fetchTurn pg = true → r.length = 128 →
    recordRsvd r = true → recordOk r = true → fieldAt r 0 1 = 2 → 1 ≤ fieldAt r 0x10 2 → fieldAt r 0x10 2 ≤ 15 →
    (∃ b, exec (.requestRecord pg (.ok r)) s = .next { s with b := b } ∧
      b.host.port = s.b.host.port ++ [⟨fieldAt r 0x10 2,
        ⟨if pg = pf0Page then .pf0 else .tenant pg, BitVec.ofNat 64 (fieldAt r 8 8), fieldAt r 0x1F 1, fieldAt r 0x18 7,
         r.drop 0x20⟩⟩] ∧
      b.page pg = { s.b.page pg with reqCi := (s.b.page pg).reqCi + 1, reserved := (s.b.page pg).reserved + 1
                                     owed := (s.b.page pg).owed + 1 } ∧
      b = { s.b with host := b.host })) ∧
  (∀ (s : State) (pg : Nat) (r : List Byte), s.b.fetchTurn pg = true → r.length = 128 → recordRsvd r = false →
    (∃ b, exec (.requestRecord pg (.ok r)) s = .next { s with b := b } ∧
      (∃ b0 : Block, b = b0.refuse pg (if fieldAt r 0 1 = 1 then bits (fieldAt r 4 4) 16 0 else 0)
        (BitVec.ofNat 64 (fieldAt r 8 8)) Codes.badRsvd 0) ∧
      (b.page pg).reqCi = (s.b.page pg).reqCi + 1 ∧ (b.page pg).rplPi = (s.b.page pg).rplPi + 1 ∧
      b = { s.b with host := b.host })) ∧
  (∀ (s : State) (pg : Nat), s.b.fetchTurn pg = true → (∃ b, exec (.requestRecord pg .fault) s = .next { s with b := b } ∧
    b.page pg = { s.b.page pg with
      enable := false, err := (s.b.page pg).err ||| 8, errNow := (s.b.page pg).errNow ||| 8 } ∧
    b.host.dmaErr = sat32 s.b.host.dmaErr 1 ∧ b = { s.b with host := b.host }))

/-- A waiting reply takes its slot (R98), and function-level resets (R116 to R118): pages return to reset, contexts and routes of
the function's tenants go, PF0 keeps its attention summary. -/
def Obligations.WaitingReplyAndFunctionResets : Prop :=
  (∀ (s : State) (pg : Nat) (r : Reply) (q : Req), (s.b.page pg).waiting = [r] →
    (s.b.page pg).reserved < (s.b.page pg).freeSlots → (s.b.ctx r.ctx).replyWait = true →
    (s.b.ctx r.ctx).tenant = pg → (s.b.ctx r.ctx).state = .blocked → (s.b.ctx r.ctx).req = some q → q.finish = none →
    (∃ b, exec (.replySlotTaken pg) s = .next { s with b := b } ∧
      (b.page pg).waiting = [] ∧ (b.page pg).rplPi = (s.b.page pg).rplPi + 1 ∧
      b.ctx r.ctx = { s.b.ctx r.ctx with replyWait := false, state := .running } ∧ OtherContexts s r.ctx b ∧
      b.host.out.length = s.b.host.out.length + 2 ∧ b = { s.b with host := b.host, ctxs := b.ctxs })) ∧
  (∀ (s : State) (vf : Nat), s.b.mainUp = true → s.b.clk.mainOn = true → s.b.clk.resetting = none → 1 ≤ vf → vf ≤ 256 → (∃ b, exec (.flr vf) s = .next { s with b := b } ∧
    vf ∈ b.host.flrNow ∧
    (∀ t ∈ vfTenants vf, b.page t = Page.new ∧ b.host.attnOf t = 0 ∧ (b.ten t).routes = [] ∧
      (∀ x ∈ b.ctxs, x.2.tenant ≠ t) ∧ (∀ p ∈ b.host.port, p.order.issuer ≠ .tenant t)) ∧
    b.flash = s.b.flash ∧ b.clk = s.b.clk)) ∧
  (∀ (s : State), s.b.mainUp = true → s.b.clk.mainOn = true → s.b.clk.resetting = none → (∃ b, exec .flrPf0 s = .next { s with b := b } ∧
    b.host.vfEnable = false ∧ b.page pf0Page = Page.new ∧ b.host.attnOf pf0Page = s.b.host.attnOf pf0Page ∧
    (∀ v, 1 ≤ v → v ≤ 256 → v ∈ b.host.flrNow) ∧ b.flash = s.b.flash ∧ b.clk = s.b.clk)) ∧
  (∀ (s : State) (vf : Nat) (k : ResetKind), s.b.clk.mainOn = true → s.b.clk.resetting = some k →
    (∃ b, exec (.flr vf) s = .next { s with b := b } ∧ b = s.b.log 0x01 0 Codes.ok none none 0))

/-- The order port (R112 to R115, R118): an order that fails a check is answered with its code and counted nowhere; one that
meets an applied order in its CCLK loses with CONFLICT and is counted; any other is applied, counted and answered. An order of the
class of one presented in this CCLK, or of a higher rank, is presented in the next (the model's order within a CCLK, assumption 3). -/
def Obligations.OrderPortArbitrates : Prop :=
  (∀ (b : Block) (code : Nat) (o : OrderIn) (f : Block → OrderEnd) (c : Code), b.mainUp = true →
    b.host.flrNow = [] → b.host.port = [] → b.host.dropped = [] → b.orderCheck code o = some c →
    b.gate code o f = b.orderReply o.issuer o.tag c 0) ∧
  (∀ (b : Block) (code : Nat) (o : OrderIn) (f : Block → OrderEnd) (r : Nat), b.mainUp = true →
    b.host.flrNow = [] → b.host.port = [] → b.host.dropped = [] → b.orderCheck code o = none → b.host.rankNow = some r → r < rank o.issuer →
    b.host.appliedNow.any (b.conflicts (o.kind, o.target)) = true →
    b.gate code o f = ({ b with host := { b.host with
      rankNow := some (rank o.issuer), orderConflict := sat32 b.host.orderConflict 1 } }).orderReply o.issuer o.tag
      Codes.conflict 0) ∧
  (∀ (b : Block) (code : Nat) (o : OrderIn) (c : Code), b.orderPasses code o → b.host.port = [] → b.host.dropped = [] →
    b.gate code o (fun b => b.ended c) = ({ b with host := { b.host with
      rankNow := some (rank o.issuer), orderApplied := sat32 b.host.orderApplied 1
      appliedNow := b.host.appliedNow ++ [(o.kind, o.target)] } }).orderReply o.issuer o.tag c 0) ∧
  (∀ (b : Block) (code : Nat) (o : OrderIn) (f : Block → OrderEnd) (r : Nat), b.mainUp = true →
    b.host.flrNow = [] → b.host.port = [] → b.host.dropped = [] → b.orderCheck code o = none → b.host.rankNow = some r →
    rank o.issuer ≤ r → o.issuer ≠ .ostler → b.gate code o f = b.tick.gate code o f)

/-- Orders on the module and on tenants (R51, R61, R427, R489, R514, R584 to R587, R644, R647), each where it succeeds. -/
def Obligations.ModuleAndTenantOrders : Prop :=
  (∀ (s : State) (o : OrderIn), s.b.orderPasses 1 o → opClear o [] = true → s.b.clk.resetting = none →
    s.b.clk.mainOn = true → (∃ b, exec (.warmReset o) s = .next { s with b := b } ∧
      b.clk.stage = .fwLoad ∧ b.clk.cause = 0x04 ∧ b.ctxs = [] ∧ b.tenants = [] ∧ b.coaches = [] ∧
      b.sec.isolate = s.b.sec.isolate ∧ b.sb.slots = s.b.sb.slots ∧ b.flash = s.b.flash ∧
      (∀ a, inDdr a = true → tabFind? a b.mem = tabFind? a s.b.mem) ∧
      (∀ a, inDdr a = false → tabFind? a b.mem = none))) ∧
  (∀ (s : State) (o : OrderIn), s.b.orderPasses 2 o → opClear o [] = true → s.b.ost.updState = .staged →
    s.b.clk.resetting = none → (∃ b, exec (.updateActivate o) s = .next { s with b := b } ∧
      b.flash.primary = s.b.flash.staging ∧ b.flash.backup = s.b.flash.primary ∧
      b.flash.staging = s.b.flash.backup ∧
      b.flash.oldRoles = some (s.b.flash.primary, s.b.flash.backup, s.b.flash.staging) ∧
      b.ost.updState = .activating ∧ b.clk.stage = .held ∧ b.clk.cause = 0x07)) ∧
  (∀ (s : State) (o : OrderIn), s.b.orderPasses 2 o → opClear o [] = true → s.b.ost.updState ≠ .staged →
    (∃ b, exec (.updateActivate o) s = .next { s with b := b } ∧ Answered b o s Codes.updNone 0 fun b => b = { s.b with host := b.host })) ∧
  (∀ (s : State) (o : OrderIn), s.b.orderPasses 15 o → opClear o [(0x20, 1)] = true →
    (∃ b, exec (.locate o) s = .next { s with b := b } ∧ Answered b o s Codes.ok 0 fun b =>
      b.ost = { s.b.ost with locate := bit (opAt o 0x20 1) 0 } ∧ b = { s.b with host := b.host, ost := b.ost })) ∧
  (∀ (s : State) (o : OrderIn), s.b.orderPasses 3 o → s.b.inTeam = false →
    opClear o [(0x20, 2), (0x24, 32), (0x28, 17), (0x2C, 18)] = true → (s.b.ten o.target).state = .off →
    s.b.sec.debug = 0 → opAt o 0x28 3 + opAt o 0x2C 3 ≤ 131072 → opAt o 0x24 4 ≠ 0 → s.b.othersOn o.target = [] →
    tabFind? o.target s.b.slotKeys = none → bit (opAt o 0x20 1) 1 = false → opAt o 0x28 3 < 131072 →
    (∃ b, exec (.tenantSet o) s = .next { s with b := b } ∧ Answered b o s Codes.ok 0 fun b =>
      (b.ten o.target).state = .on ∧ (b.ten o.target).hintOk = bit (opAt o 0x20 1) 0 ∧
      (b.ten o.target).dtid.toNat = opAt o 0x24 4 ∧ (b.ten o.target).ctxBase = opAt o 0x28 3 ∧
      (b.ten o.target).ctxCount = opAt o 0x2C 3 ∧ (b.ten o.target).memKey = true ∧
      (b.ten o.target).quota = Quota.new ∧ (b.ten o.target).chBudget = 0 ∧
      tabFind? o.target b.slotKeys = some ⟨(b.ten o.target).dtid, true⟩ ∧ b.host.attnOf o.target = 0 ∧
      (∀ t, t ≠ o.target → b.ten t = s.b.ten t) ∧ b.mem = s.b.mem ∧ b.ctxs = s.b.ctxs)) ∧
  (∀ (s : State) (o : OrderIn), s.b.orderPasses 3 o → s.b.inTeam = false →
    opClear o [(0x20, 2), (0x24, 32), (0x28, 17), (0x2C, 18)] = true → (s.b.ten o.target).state ≠ .off →
    (∃ b, exec (.tenantSet o) s = .next { s with b := b } ∧ Answered b o s Codes.secTenantOn 0 fun b => b = { s.b with host := b.host })) ∧
  (∀ (s : State) (o : OrderIn) (n : Nat), s.b.orderPasses 4 o → s.b.inTeam = false → opClear o [(0x20, 1)] = true →
    (s.b.ten o.target).state = .on → (s.b.ctx n).tenant = o.target → (s.b.ctx n).state ≠ .free →
    (∃ b, exec (.tenantDisable o) s = .next { s with b := b } ∧
      (b.ten o.target).state = .closing ∧ (b.page o.target).enable = false ∧
      (b.ten o.target).closing = some ⟨bit (opAt o 0x20 1) 0, o.issuer, o.tag, false⟩ ∧
      (∀ m, (b.ctx m).tenant = o.target → (b.ctx m).state ≠ .free → (b.ctx m).freeing = true))) ∧
  (∀ (s : State) (o : OrderIn), s.b.orderPasses 5 o →
    opClear o [(0x20, 64), (0x28, 64), (0x30, 32), (0x34, 8), (0x35, 3), (0x38, 64)] = true →
    (s.b.ten o.target).state = .on → opAt o 0x34 1 ≤ 100 → opAt o 0x35 1 = 0 →
    (∃ b, exec (.quotaSet o) s = .next { s with b := b } ∧ Answered b o s Codes.ok 0 fun b =>
      b.ten o.target = { s.b.ten o.target with quota := ⟨opAt o 0x20 8, opAt o 0x28 8, opAt o 0x30 4, opAt o 0x38 8,
        opAt o 0x34 1, false, false, false⟩ } ∧
      (∀ t, t ≠ o.target → b.ten t = s.b.ten t) ∧ b = { s.b with host := b.host, tenants := b.tenants })) ∧
  (∀ (s : State) (o : OrderIn), s.b.orderPasses 6 o → opClear o [(0x20, 8), (0x28, 64)] = true →
    (s.b.ten o.target).state = .on → (opAt o 0x20 1 = 1 ∨ opAt o 0x20 1 = 2) → opAt o 0x28 8 < 2 ^ 48 →
    (∃ b, exec (.chRefill o) s = .next { s with b := b } ∧ Answered b o s Codes.ok 0 fun b =>
      b.ten o.target = { s.b.ten o.target with
        chBudget := if opAt o 0x20 1 = 1 then min ((s.b.ten o.target).chBudget + opAt o 0x28 8) (2 ^ 48 - 1)
          else opAt o 0x28 8 } ∧
      (∀ t, t ≠ o.target → b.ten t = s.b.ten t) ∧ b = { s.b with host := b.host, tenants := b.tenants })) ∧
  (∀ (s : State) (o : OrderIn), s.b.orderPasses 8 o → s.b.inTeam = false → opClear o [(0x20, 16), (0x22, 16)] = true →
    (s.b.ten o.target).state = .on → (s.b.generator o.target (opAt o 0x20 2)).isSome = true → opAt o 0x22 2 = 0 →
    (s.b.adapterNow o.target).binds.length ≤ 8 → (s.b.ten o.target).adapters.length < 4 →
    ((s.b.ten o.target).adapters.all fun v => v.version != ((s.b.adapterNow o.target).version + 1) % 65536) = true →
    (∃ b, exec (.adapterSet o) s = .next { s with b := b } ∧ Answered b o s Codes.ok (((s.b.adapterNow o.target).version + 1) % 65536) fun b =>
      (b.adapterNow o.target).version = ((s.b.adapterNow o.target).version + 1) % 65536 ∧
      (b.adapterNow o.target).binds = (s.b.adapterNow o.target).binds.filter (fun p => p.1 != opAt o 0x20 2) ∧
      (∀ t, t ≠ o.target → b.ten t = s.b.ten t) ∧ b = { s.b with host := b.host, tenants := b.tenants })) ∧
  (∀ (s : State) (n : Nat), (s.b.ctx n).state ≠ .free → (s.b.ctx n).freeing = true → s.b.onCoach n = false →
    (s.b.ctx n).req = none → (∃ b, exec (.teardownComplete n) s = .next { s with b := b } ∧
      b.ctx n = Ctx.new ∧ (∀ p ∈ (s.b.ctx n).pages, tabFind? p b.mt.map = none)))

/-- Orders on units (R618 to R622, R657 to R660): a live unit is fenced, a memory unit is recorded for the next bring-up, a
fenced unit is tested before it returns, and a test that passes returns it to service. -/
def Obligations.UnitOrders : Prop :=
  (∀ (s : State) (o : OrderIn), s.b.orderPasses 12 o → opClear o [(0x20, 1)] = true → (unitOf o.target).kind = 1 →
    s.b.fenced 1 (unitOf o.target).index = false → s.b.testOf (unitOf o.target) = none →
    (s.b.coach (unitOf o.target).index).task = none →
    (∀ x ∈ s.b.ctxs, x.2.step = none ∧ x.2.req.bind (·.ending) = none) →
    (∃ b, exec (.fence o) s = .next { s with b := b } ∧ Answered b o s Codes.ok 0 fun b =>
      b.fenced 1 (unitOf o.target).index = true ∧ unitOf o.target ∈ b.flash.fences ∧ b.mem = s.b.mem)) ∧
  (∀ (s : State) (o : OrderIn), s.b.orderPasses 12 o → opClear o [(0x20, 1)] = true → o.issuer = .pf0 →
    (unitOf o.target).kind = 2 → s.b.fenced 2 (unitOf o.target).index = false → s.b.flash.pendFence = 0 →
    s.b.flash.pendUnfence = 0 → (∃ b, exec (.fence o) s = .next { s with b := b } ∧ Answered b o s Codes.fencePending 0 fun b =>
      b.flash = { s.b.flash with pendFence := BitVec.ofNat 32 (2 ^ (unitOf o.target).index) } ∧
      b = { s.b with host := b.host, flash := b.flash })) ∧
  (∀ (s : State) (o : OrderIn), s.b.orderPasses 12 o → opClear o [(0x20, 1)] = true → (unitOf o.target).kind = 1 →
    s.b.fenced 1 (unitOf o.target).index = true →
    (∃ b, exec (.fence o) s = .next { s with b := b } ∧ Answered b o s Codes.fenceState 0 fun b => b = { s.b with host := b.host })) ∧
  (∀ (s : State) (o : OrderIn), s.b.orderPasses 13 o → opClear o [] = true → (unitOf o.target).kind = 12 →
    s.b.fenced 12 (unitOf o.target).index = true → s.b.testOf (unitOf o.target) = none →
    (∃ b, exec (.unfence o) s = .next { s with b := b } ∧ Answered b o s Codes.ok 0 fun b =>
      b.fenced 12 (unitOf o.target).index = false ∧ unitOf o.target ∉ b.flash.fences ∧ b.mem = s.b.mem)) ∧
  (∀ (s : State) (o : OrderIn), s.b.orderPasses 13 o → opClear o [] = true → (unitOf o.target).kind = 5 →
    s.b.fenced 5 (unitOf o.target).index = true → s.b.testOf (unitOf o.target) = none →
    (∃ b, exec (.unfence o) s = .next { s with b := b } ∧
      b.ost.tests = s.b.ost.tests ++ [⟨unitOf o.target, o.issuer, o.tag, true, true, s.b.ost.tick, false⟩] ∧
      b.fenced 5 (unitOf o.target).index = true)) ∧
  (∀ (s : State) (o : OrderIn), s.b.orderPasses 14 o → opClear o [] = true → (unitOf o.target).kind = 1 →
    s.b.fenced 1 (unitOf o.target).index = false → s.b.testOf (unitOf o.target) = none →
    (unitOf o.target).index ∉ s.b.ost.withdrawn → s.b.mayWithdraw = true →
    (∀ x ∈ s.b.ctxs, x.2.step = none ∧ x.2.req.bind (·.ending) = none) → (∃ b, exec (.selftest o) s = .next { s with b := b } ∧
      (∃ t ∈ b.ost.tests, t.unit = unitOf o.target ∧ t.started = true ∧ t.unfence = false) ∧
      (unitOf o.target).index ∈ b.ost.withdrawn ∧ b.mem = s.b.mem)) ∧
  (∀ (s : State) (o : OrderIn), s.b.orderPasses 14 o → opClear o [] = true → (unitOf o.target).kind = 5 →
    s.b.fenced 5 (unitOf o.target).index = false → s.b.testOf (unitOf o.target) = none →
    (∃ b, exec (.selftest o) s = .next { s with b := b } ∧ Answered b o s Codes.testLive 0 fun b => b = { s.b with host := b.host })) ∧
  (∀ (s : State) (u : UnitId) (t : TestRun), s.b.testOf u = some t → t.started = true → t.unfence = true → u.kind = 5 →
    (∃ b, exec (.selftestComplete u true) s = .next { s with b := b } ∧
      b.fenced 5 u.index = false ∧ u ∉ b.flash.fences ∧ b.testOf u = none ∧ b.mem = s.b.mem)) ∧
  (∀ (s : State) (u : UnitId) (t : TestRun), s.b.testOf u = some t → t.started = true → t.unfence = true → u.kind = 5 →
    (∃ b, exec (.selftestComplete u false) s = .next { s with b := b } ∧ b.rel.fenced = s.b.rel.fenced ∧ b.testOf u = none))

/-- Orders on a tenant's routes and contexts (R121, R122, R147 to R149). -/
def Obligations.RouteAndContextOrders : Prop :=
  (∀ (s : State) (o : OrderIn) (img : List Byte), s.b.orderPasses 7 o →
    opClear o [(0x20, 16), (0x22, 8), (0x28, 64)] = true → (s.b.ten o.target).state = .on → opAt o 0x20 2 ≤ 0x3FF →
    1 ≤ opAt o 0x22 1 → opAt o 0x22 1 ≤ 64 → opAt o 0x28 8 % 16 = 0 → img.length = 16 * opAt o 0x22 1 →
    routeCheck ((List.range (opAt o 0x22 1)).map fun k => (img.drop (16 * k)).take 16) = none →
    s.b.routeHeldBy o.target (opAt o 0x20 2) ((tabGet 0 (opAt o 0x20 2) (s.b.ten o.target).routeLast + 1) % 256) = false →
    (s.b.use o.target).ddr + 1024 ≤ (s.b.ten o.target).quota.ddr →
    (∃ b, exec (.routeLoad o (.ok img)) s = .next { s with b := b } ∧ Answered b o s Codes.ok 0 fun b =>
      b.currentRoute o.target (opAt o 0x20 2) = some
        ⟨opAt o 0x20 2, (tabGet 0 (opAt o 0x20 2) (s.b.ten o.target).routeLast + 1) % 256, true,
         (List.range (opAt o 0x22 1)).map fun k => (img.drop (16 * k)).take 16⟩ ∧
      (∀ t, t ≠ o.target → b.ten t = s.b.ten t) ∧ b = { s.b with host := b.host, tenants := b.tenants })) ∧
  (∀ (s : State) (o : OrderIn) (img : HostRead), s.b.orderPasses 7 o →
    opClear o [(0x20, 16), (0x22, 8), (0x28, 64)] = true → (s.b.ten o.target).state = .on → opAt o 0x20 2 ≤ 0x3FF →
    opAt o 0x22 1 = 0 → opAt o 0x28 8 % 16 = 0 → (s.b.currentRoute o.target (opAt o 0x20 2)).isSome = true →
    (∃ b, exec (.routeLoad o img) s = .next { s with b := b } ∧ Answered b o s Codes.ok 0 fun b => b.currentRoute o.target (opAt o 0x20 2) = none)) ∧
  (∀ (s : State) (o : OrderIn) (t : Nat) (b1 : Block), s.b.orderPasses 9 o → o.issuer = .tenant t → o.ops.length ≤ 96 →
    zeroAt o.ops 64 32 = true → (s.b.ctx o.target).state = .free →
    (({ s.b with host := { s.b.host with
        port := s.b.host.port.filter (· != (⟨9, o⟩ : PortOrder)), rankNow := some 3, orderApplied := sat32 s.b.host.orderApplied 1
        appliedNow := s.b.host.appliedNow ++ [(o.kind, o.target)] } }).setCtx
      o.target { Ctx.new with tenant := t, state := .idle
                              rg := (List.range 8).map fun k => (8 + k, BitVec.ofNat 64 (opAt o (0x20 + 8 * k) 8)) }).growAux
      o.target 0 0 = .done b1 →
    (∃ b, exec (.contextAlloc o) s = .next { s with b := b } ∧ Answered b o s Codes.ok 0 fun b =>
      (b.ctx o.target).state = .idle ∧ (b.ctx o.target).tenant = t ∧ (b.ctx o.target).pc = 0 ∧
      (b.ctx o.target).blockTable = (b1.ctx o.target).pages.headD 0 * 65536 ∧
      (b.ctx o.target).textRec = ((b1.ctx o.target).pages.drop 1).headD 0 * 65536 ∧
      b.readMem (ctxRangeBase + (b.ctx o.target).textRec) 1280 = List.replicate 1280 0 ∧
      (∀ k, k < 8 → (b.ctx o.target).reg (8 + k) = BitVec.ofNat 64 (opAt o (0x20 + 8 * k) 8)) ∧
      OtherContexts s o.target b)) ∧
  (∀ (s : State) (o : OrderIn), s.b.orderPasses 9 o → o.ops.length ≤ 96 → zeroAt o.ops 64 32 = true →
    (s.b.ctx o.target).state ≠ .free →
    (∃ b, exec (.contextAlloc o) s = .next { s with b := b } ∧ Answered b o s Codes.contextInUse 0 fun b => b = { s.b with host := b.host })) ∧
  (∀ (s : State) (o : OrderIn), s.b.orderPasses 10 o → opClear o [] = true → (s.b.ctx o.target).state ≠ .free →
    (s.b.ctx o.target).freeing = false → (∃ b, exec (.contextFree o) s = .next { s with b := b } ∧
      (b.ctx o.target).freeing = true ∧ (b.ctx o.target).freeCode = Codes.contextFreed ∧
      (b.ctx o.target).freeReply = some (o.issuer, o.tag) ∧
      (∀ m, (b.tp.ready.any fun q => q.1 == m && q.2.any fun t => t.ctx == o.target) = false) ∧
      OtherContexts s o.target b))

/-- BRANCH's conditions (R127): RG[RA] against the operand, LAST_CODE against IMM32[15:0], an empty list LA. -/
def Obligations.BranchConditions : Prop :=
  ∀ (b : Block) (n : Nat) (i : RInstr) (x : W64),
    x = (if bit i.iflags 0 then (b.ctx n).reg i.rb else BitVec.ofNat 64 i.imm32) → i.imm32 < 2 ^ 32 →
    (i.sub = 0 → b.branchHolds n i = true) ∧
    (i.sub = 1 → (b.branchHolds n i = true ↔ (b.ctx n).reg i.ra = x)) ∧
    (i.sub = 2 → (b.branchHolds n i = true ↔ (b.ctx n).reg i.ra ≠ x)) ∧
    (i.sub = 3 → (b.branchHolds n i = true ↔ (b.ctx n).reg i.ra < x)) ∧
    (i.sub = 4 → (b.branchHolds n i = true ↔ x ≤ (b.ctx n).reg i.ra)) ∧
    (i.sub = 5 → (b.branchHolds n i = true ↔ (b.ctx n).reg i.ra &&& x ≠ 0)) ∧
    (i.sub = 6 → (b.branchHolds n i = true ↔ (b.ctx n).reg i.ra &&& x = 0)) ∧
    (i.sub = 7 → (b.branchHolds n i = true ↔ (b.ctx n).lastCode = BitVec.ofNat 16 i.imm32)) ∧
    (i.sub = 8 → (b.branchHolds n i = true ↔ (b.ctx n).lastCode ≠ BitVec.ofNat 16 i.imm32)) ∧
    (i.sub = 9 → (b.branchHolds n i = true ↔ ((b.ctx n).list i.la).kind = 0 ∨ ((b.ctx n).list i.la).count = 0))

/-- The route steps that are no compute steps (R127, R132, R135 to R137, R143): the target or next step with PROG_SEQ raised, one
STREAM reply, and the ends of a request by YIELD and by END. -/
def Obligations.RouteControlSteps : Prop :=
  (∀ (s : State) (n : Nat) (i : RInstr), s.b.instrAt n = some i → s.b.ready n = true → i.op = 0x10 → i.imm16 < 64 →
    (∃ b, exec (.branch n) s = .next { s with b := b } ∧
      (b.ctx n).pc = (if s.b.branchHolds n i then i.imm16 else (s.b.ctx n).pc + 1) ∧
      (b.ctx n).rg = (s.b.ctx n).rg ∧ (b.ctx n).state = .running ∧ b.tp.progSeq = s.b.tp.progSeq + 1 ∧
      OtherContexts s n b ∧ b = { s.b with ctxs := b.ctxs, tp := { s.b.tp with progSeq := b.tp.progSeq } })) ∧
  (∀ (s : State) (n : Nat) (i : RInstr) (q : Req), s.b.instrAt n = some i → s.b.ready n = true → i.op = 0x11 →
    bit i.iflags 0 = false → (s.b.ctx n).req = some q → q.reservation = true →
    (∃ b, exec (.reply n) s = .next { s with b := b } ∧
      (b.ctx n).pc = (s.b.ctx n).pc + 1 ∧ (b.ctx n).seq = ((s.b.ctx n).seq + 1) % 65536 ∧
      b.tp.progSeq = s.b.tp.progSeq + 1 ∧ OtherContexts s n b ∧
      (b.page (s.b.ctx n).tenant).rplPi = (s.b.page (s.b.ctx n).tenant).rplPi + 1 ∧
      (∃ addr rec, b.host.out = s.b.host.out ++ [.write addr (rec.take 60) true, .write (addr + 60) (rec.drop 60) false] ∧
        rec = Reply.bytes { cls := 1, code := Codes.ok, outbuf := false, last := false, ctx := n, tag := q.tag
                            step := (s.b.ctx n).pc, seq := (s.b.ctx n).seq, aux := i.imm16
                            payload := ((List.range 4).map fun k => le 8 ((s.b.ctx n).reg (i.ra + k)).toNat).flatten
                            admitAt := some (s.b.ctx n).admitAt }
          (s.b.host.attnOf (s.b.ctx n).tenant) s.b.clk.cclk (s.b.page (s.b.ctx n).tenant).phase) ∧
      b = { s.b with ctxs := b.ctxs, tp := { s.b.tp with progSeq := b.tp.progSeq }, host := b.host })) ∧
  (∀ (s : State) (n : Nat) (i : RInstr) (q : Req), s.b.instrAt n = some i → s.b.ready n = true → i.op = 0x12 →
    (s.b.ctx n).req = some q → q.reservation = true → q.pins = [] → (∃ b, exec (.yield n) s = .next { s with b := b } ∧
      (b.ctx n).pc = (s.b.ctx n).pc + 1 ∧ (b.ctx n).state = .idle ∧ (b.ctx n).yielded = true ∧ (b.ctx n).req = none ∧
      (b.ctx n).routeHeld = (s.b.ctx n).routeHeld ∧ (b.ctx n).rg = (s.b.ctx n).rg ∧ OtherContexts s n b ∧
      b.mem = s.b.mem ∧ b.host.out.length = s.b.host.out.length + 2)) ∧
  (∀ (s : State) (n : Nat) (i : RInstr) (q : Req), s.b.instrAt n = some i → s.b.ready n = true → i.op = 0x13 →
    (s.b.ctx n).req = some q → q.reservation = true → q.pins = [] → (∃ b, exec (.endRoute n) s = .next { s with b := b } ∧
      (b.ctx n).pc = 0 ∧ (b.ctx n).state = .idle ∧ (b.ctx n).yielded = false ∧ (b.ctx n).req = none ∧
      (b.ctx n).routeHeld = false ∧ OtherContexts s n b ∧ b.mem = s.b.mem ∧
      b.host.out.length = s.b.host.out.length + 2))

/-- Orders on shards and the end of a drop (R275, R276, R279, R284). -/
def Obligations.ShardOrders : Prop :=
  (∀ (s : State) (o : OrderIn) (x : Shard), s.b.orderPasses 11 o → opAt o 0x20 1 = 3 → s.b.shard? o.target = some x →
    opClear o ([(0x20, 8), (0x21, 8)] ++ (List.range 16).map fun j => (0x40 + 2 * j, 12)) = true →
    x.state = .live → opAt o 0x21 1 ≤ 16 →
    (∃ b, exec (.shardShare o) s = .next { s with b := b } ∧ Answered b o s Codes.ok 0 fun b =>
      b.shard? o.target = some { x with
        readers := (List.range (opAt o 0x21 1)).map fun j => opAt o (0x40 + 2 * j) 2 % 4096 } ∧
      (∀ m, m ≠ o.target → b.shard? m = s.b.shard? m) ∧ b.mem = s.b.mem)) ∧
  (∀ (s : State) (o : OrderIn) (x : Shard), s.b.orderPasses 11 o → opAt o 0x20 1 = 4 → s.b.shard? o.target = some x →
    opClear o [(0x20, 8)] = true → x.state = .live → (∃ b, exec (.shardDrop o) s = .next { s with b := b } ∧
      b.shard? o.target = some { x with state := .closing, dropReply := some (o.issuer, o.tag) } ∧
      (∀ m, m ≠ o.target → b.shard? m = s.b.shard? m) ∧ b.mem = s.b.mem)) ∧
  (∀ (s : State) (n : Nat) (x : Shard), s.b.shard? n = some x → x.state = .closing → s.b.shardHeld n = false →
    (∃ b, exec (.shardDropComplete n) s = .next { s with b := b } ∧
      b.shard? n = none ∧ (∀ y ∈ b.sb.slots, y.2.shard ≠ some n) ∧ (∀ m, m ≠ n → b.shard? m = s.b.shard? m))) ∧
  (∀ (s : State) (o : OrderIn) (x : Shard), s.b.orderPasses 11 o → opAt o 0x20 1 = 2 → s.b.shard? o.target = some x →
    opClear o [(0x20, 8), (0x28, 64), (0x30, 32)] = true → x.state = .live → opAt o 0x28 8 % 64 = 0 →
    opAt o 0x30 4 = 0 → s.b.areasLive x = true → x.epoch ≠ 0xFFFFFFFE →
    (∃ b, exec (.shardStage o .fault []) s = .next { s with b := b } ∧ Answered b o s Codes.ok 0 fun b =>
      b.shard? o.target = some { x with epoch := x.epoch + 1, advanced := some s.b.clk.cclk } ∧
      (∀ m, m ≠ o.target → b.shard? m = s.b.shard? m) ∧ b.mem = s.b.mem)) ∧
  (∀ (s : State) (o : OrderIn) (x : Shard) (e : List Byte) (row slot a : Nat), s.b.orderPasses 11 o → opAt o 0x20 1 = 2 →
    s.b.shard? o.target = some x → opClear o [(0x20, 8), (0x28, 64), (0x30, 32)] = true → x.state = .live →
    opAt o 0x28 8 % 64 = 0 → opAt o 0x30 4 = 1 → s.b.areasLive x = true → x.epoch ≠ 0xFFFFFFFE → e.length = 64 →
    stageRsvd e = true → fieldAt e 0 1 = 2 → s.b.locator x (fieldAt e 4 4) = some (row, slot) →
    s.b.xlate x.owner (x.tails + 16 * row) 16 = some a →
    (∃ b, exec (.shardStage o (.ok e) []) s = .next { s with b := b } ∧ Answered b o s Codes.ok 1 fun b =>
      b.shard? o.target = some { x with epoch := x.epoch + 1, advanced := some s.b.clk.cclk } ∧
      b.readMem a 16 = ({ s.b.tail x row with death := x.epoch + 1 }).bytes ∧
      (∀ i, i < a ∨ a + 16 ≤ i → b.readByte i = s.b.readByte i))) ∧
  (∀ (s : State) (o : OrderIn) (x : Shard) (t : Nat), s.b.orderPasses 11 o → opAt o 0x20 1 = 1 → o.issuer = .tenant t →
    x = { state := .live, owner := t, epoch := 0, readers := [], fmt := opAt o 0x21 1, dim := opAt o 0x22 2
          sketch := opAt o 0x24 1, parts := opAt o 0x28 4, capacity := opAt o 0x2C 4, centroids := opAt o 0x30 8
          directory := opAt o 0x38 8, sketches := opAt o 0x40 8, tails := opAt o 0x48 8, locators := opAt o 0x50 8
          dropReply := none } →
    opClear o ([(0x20, 8), (0x21, 8), (0x22, 16), (0x24, 8), (0x28, 32), (0x2C, 32)] ++
      (List.range 5).map fun k => (0x30 + 8 * k, 64)) = true →
    s.b.shard? o.target = none → x.fmt ∈ [0, 2, 6, 7] → 32 ≤ x.dim → x.dim ≤ 1024 → x.dim % 32 = 0 → x.vb ≤ 1024 →
    x.sketch ≤ 2 → 1 ≤ x.parts → x.parts ≤ 65536 → 1 ≤ x.capacity → x.capacity ≤ 67108864 →
    (x.areas.all fun a => a.1 % 4096 == 0) = true → s.b.areasTier x = true → s.b.areasLive x = true →
    directoryOk x ((List.range x.parts).map (s.b.partEnt x)) = true →
    (∃ b, exec (.shardCreate o) s = .next { s with b := b } ∧ Answered b o s Codes.ok 0 fun b =>
      b.shard? o.target = some x ∧ (∀ m, m ≠ o.target → b.shard? m = s.b.shard? m)))

/-- The tests of admission, in the order of R153: each failing test decides only where the earlier ones pass. -/
def Obligations.AdmissionTestsInOrder : Prop :=
  ∀ (b : Block) (n : Nat) (r : Req),
    ((b.clk.stage ≠ .ready ∨ b.rel.memLost = true) → b.admission n r = .deny 1 0 false) ∧
    (∀ (v : RouteVersion), b.clk.stage = .ready → b.rel.memLost = false → b.memberLost = true → r.routeId ≤ 0x3FF →
      b.currentRoute (b.ctx n).tenant r.routeId = some v → b.needsSlice (b.ctx n).tenant (v.from 0) = true →
      b.admission n r = .deny 2 0 false) ∧
    (b.clk.stage = .ready → b.rel.memLost = false → b.memberLost = false → b.liveCoaches < b.tp.floor →
      b.admission n r = .deny 3 0 true) ∧
    (b.clk.stage = .ready → b.rel.memLost = false → b.memberLost = false → b.tp.floor ≤ b.liveCoaches →
      r.routeId = resumeId → (b.ctx n).mayResume = false → b.admission n r = .refuse Codes.notResumable) ∧
    (b.clk.stage = .ready → b.rel.memLost = false → b.memberLost = false → b.tp.floor ≤ b.liveCoaches →
      r.routeId ≠ resumeId → b.currentRoute (b.ctx n).tenant r.routeId = none →
      b.admission n r = .refuse Codes.badRoute) ∧
    (∀ (v : RouteVersion) (reason : Nat), b.clk.stage = .ready → b.rel.memLost = false → b.memberLost = false →
      b.tp.floor ≤ b.liveCoaches → r.routeId ≤ 0x3FF → b.currentRoute (b.ctx n).tenant r.routeId = some v →
      b.quotaReason (b.ctx n).tenant (b.needOf n (b.estimate n false (v.from 0))) = some reason →
      b.admission n r = .deny reason 0 true) ∧
    (∀ (v : RouteVersion), b.clk.stage = .ready → b.rel.memLost = false → b.memberLost = false →
      b.tp.floor ≤ b.liveCoaches → r.routeId ≤ 0x3FF → b.currentRoute (b.ctx n).tenant r.routeId = some v →
      b.quotaReason (b.ctx n).tenant (b.needOf n (b.estimate n false (v.from 0))) = none →
      ((v.from 0).any fun i => i.op == 0xB) = true → b.tp.ceiling ≠ 100 → b.tp.ceiling * 1024 ≤ b.tp.share * 100 →
      b.admission n r = .deny 8 0 true) ∧
    (∀ (v : RouteVersion) (est : Est) (decode : Bool), b.clk.stage = .ready → b.rel.memLost = false →
      b.memberLost = false → b.tp.floor ≤ b.liveCoaches → r.routeId ≤ 0x3FF →
      b.currentRoute (b.ctx n).tenant r.routeId = some v → est = b.estimate n false (v.from 0) →
      b.quotaReason (b.ctx n).tenant (b.needOf n est) = none → decode = ((v.from 0).any fun i => i.op == 0xB) →
      (decode = false ∨ b.tp.ceiling = 100 ∨ b.tp.share * 100 < b.tp.ceiling * 1024) →
      (r.budget * 1024 < b.noLoad n est →
        b.admission n r = .deny 9 (min (ceilDiv (b.noLoad n est) 1024) 0xFFFF) false) ∧
      (b.noLoad n est ≤ r.budget * 1024 → r.budget * 1024 < b.noLoad n est + b.loadTerm →
        b.admission n r = .deny 0xA (min (ceilDiv (b.noLoad n est + b.loadTerm) 1024) 0xFFFF) true) ∧
      (b.noLoad n est + b.loadTerm ≤ r.budget * 1024 → b.heldBack n decode = true →
        b.admission n r = .deny 0xB (min (ceilDiv (b.noLoad n est + b.loadTerm) 1024) 0xFFFF) true) ∧
      (b.noLoad n est + b.loadTerm ≤ r.budget * 1024 → b.heldBack n decode = false →
        b.admission n r = .accept v est))

/-- Admission, refusal and queueing of a request (R99, R128, R145, R151, R153, R154, R160, R161), its budget (R151, R152) and the
decode window (R163, R179). -/
def Obligations.TurnpikeAdmits : Prop :=
  (∀ (s : State) (n : Nat) (r : Req) (v : RouteVersion) (est : Est), (s.b.ctx n).req = some r → r.admitted = false →
    r.queued = false → r.finish = none → (s.b.ctx n).freeing = false → (s.b.ctx n).state = .idle → r.args.length = 8 →
    r.routeId ≠ resumeId → s.b.admission n r = .accept v est →
    (∃ b, exec (.routeAdmission n) s = .next { s with b := b } ∧
      (b.ctx n).state = .admitted ∧ (b.ctx n).pc = 0 ∧ (b.ctx n).routeId = v.routeId ∧ (b.ctx n).routeVer = v.version ∧
      (b.ctx n).admitAt = s.b.clk.cclk ∧ (b.ctx n).budget = r.budget ∧ (b.ctx n).tag = r.tag ∧
      (∀ i (h : i < r.args.length), (b.ctx n).reg i = r.args[i]) ∧ (∃ q, (b.ctx n).req = some q ∧ q.admitted = true) ∧
      b.tp.admitCount = sat32 s.b.tp.admitCount 1)) ∧
  (∀ (s : State) (n : Nat) (r : Req) (reason est : Nat), (s.b.ctx n).req = some r → r.admitted = false →
    r.queued = false → r.finish = none → (s.b.ctx n).freeing = false → (s.b.ctx n).state = .idle → r.reservation = true →
    r.pins = [] → r.cachePages = [] → s.b.admission n r = .deny reason est false →
    (∃ b, exec (.routeAdmission n) s = .next { s with b := b } ∧
      (b.ctx n).req = none ∧ (b.ctx n).state = .idle ∧ b.tp.denyCount = sat32 s.b.tp.denyCount 1 ∧
      b.host.out.length = s.b.host.out.length + 2 ∧ b.mem = s.b.mem ∧ OtherContexts s n b)) ∧
  (∀ (s : State) (n : Nat) (r : Req) (reason est : Nat), (s.b.ctx n).req = some r → r.admitted = false →
    r.queued = false → r.finish = none → (s.b.ctx n).freeing = false → (s.b.ctx n).state = .idle → r.queue = true →
    r.ackQueued = false → s.b.admission n r = .deny reason est true →
    (∃ b, exec (.routeAdmission n) s = .next { s with b := b } ∧
      b.ctx n = { s.b.ctx n with req := some { r with
        queued := true, reason := reason, est := est, arrival := s.b.clk.cclk } } ∧
      n ∈ tabGet [] (coachman n) b.tp.queues ∧ OtherContexts s n b ∧
      b = { s.b with ctxs := b.ctxs, tp := { s.b.tp with queues := b.tp.queues } })) ∧
  (∀ (s : State) (n : Nat) (r : Req) (v : RouteVersion) (est : Est), tabGet [] (coachman n) s.b.tp.queues = [n] →
    (s.b.ctx n).req = some r → r.admitted = false → (s.b.ctx n).freeing = false → (s.b.ctx n).state = .idle →
    r.routeId ≠ resumeId → s.b.admission n r = .accept v est →
    (∃ b, exec (.queueRetest (coachman n)) s = .next { s with b := b } ∧
      (b.ctx n).state = .admitted ∧ (b.ctx n).admitAt = s.b.clk.cclk ∧ tabGet [] (coachman n) b.tp.queues = [] ∧
      b.tp.admitCount = sat32 s.b.tp.admitCount 1)) ∧
  (∀ (s : State) (n : Nat) (r : Req), (s.b.ctx n).req = some r → r.queued = true → r.admitted = false → r.finish = none →
    r.arrival + s.b.tp.queueLimit.toNat * 1024 < s.b.clk.cclk → r.reservation = true → r.pins = [] → r.cachePages = [] →
    (s.b.ctx n).state = .idle → (∃ b, exec (.queueTimeout n) s = .next { s with b := b } ∧
      (b.ctx n).req = none ∧ (b.ctx n).state = .idle ∧ n ∉ tabGet [] (coachman n) b.tp.queues ∧
      b.tp.denyCount = sat32 s.b.tp.denyCount 1 ∧ b.host.out.length = s.b.host.out.length + 2 ∧ b.mem = s.b.mem)) ∧
  (∀ (s : State) (n : Nat) (r : Req), (s.b.ctx n).req = some r → r.admitted = true → r.ending = none → r.finish = none →
    r.reservation = true → r.pins = [] → r.cachePages = [] → (s.b.ctx n).freeing = false → (s.b.ctx n).state = .running →
    (s.b.ctx n).step = none → (s.b.ctx n).admitAt + r.budget * 1024 ≤ s.b.clk.cclk → s.b.onCoach n = false →
    (∃ b, exec (.budgetSpent n) s = .next { s with b := b } ∧
      (b.ctx n).req = none ∧ (b.ctx n).state = .idle ∧ (b.ctx n).pc = (s.b.ctx n).pc ∧ OtherContexts s n b ∧
      b.host.out.length = s.b.host.out.length + 2 ∧ b.mem = s.b.mem)) ∧
  (∀ (s : State), s.b.tp.windowStart + 1048576 ≤ s.b.clk.cclk → s.b.nCoaches ≠ 0 →
    exec .decodeWindow s = .next { s with b := { s.b with tp := { s.b.tp with
      share := min 1024 (s.b.tp.decodeCclk * 1024 / (s.b.nCoaches * 1048576)), window := (s.b.tp.window + 1) % 2 ^ 32
      windowStart := s.b.tp.windowStart + 1048576, decodeCclk := 0 } } })

/-- Swapping (R145, R170, R171, R173, R513, R514): the victim's image is paid for, its frames go, and come back. -/
def Obligations.ContextsSwapOutAndIn : Prop :=
  (∀ (s : State) (cm n : Nat), s.b.short cm = true → s.b.swapVictim cm = some n → s.b.slicedCtx n = false →
    (s.b.ctx n).state ≠ .free → (∀ x ∈ s.b.ctxs, x.2.step = none) →
    s.b.budgetTakes (s.b.ctx n).tenant (imageSlots (imageBytes ((s.b.ownFrames n).map (·.2)))) = true →
    (∃ b, exec (.swapOut cm) s = .next { s with b := b } ∧
      (b.ctx n).swap = .out (imageBytes ((s.b.ownFrames n).map (·.2))) ∧ OtherContexts s n b ∧
      (b.ten (s.b.ctx n).tenant).chBudget + imageSlots (imageBytes ((s.b.ownFrames n).map (·.2))) * 4096 =
        (s.b.ten (s.b.ctx n).tenant).chBudget ∧
      b.sb.chUsed = s.b.sb.chUsed + roundUp (imageSlots (imageBytes ((s.b.ownFrames n).map (·.2)))) 60 ∧ b.mem = s.b.mem)) ∧
  (∀ (s : State) (cm n : Nat), s.b.short cm = true → s.b.swapVictim cm = some n → s.b.slicedCtx n = false →
    (s.b.ctx n).state ≠ .free → (∀ x ∈ s.b.ctxs, x.2.step = none) →
    s.b.budgetTakes (s.b.ctx n).tenant (imageSlots (imageBytes ((s.b.ownFrames n).map (·.2)))) = false →
    (∃ b, exec (.swapOut cm) s = .next { s with b := b } ∧
      (b.ctx n).blocks = [] ∧ (b.ctx n).kvLen = (s.b.ctx n).kvLen ∧
      (b.ctx n).recompute = decide (0 < (s.b.ctx n).kvLen) ∧ b.tp.dropCount = sat32 s.b.tp.dropCount 1)) ∧
  (∀ (s : State) (n bytes : Nat), (s.b.ctx n).swap = .out bytes →
    ((s.b.ctx n).state = .idle ∨ (s.b.ctx n).state = .blocked ∨ (s.b.ctx n).state = .halted) →
    (s.b.ctx n).freeing = false → (∀ x ∈ s.b.ctxs, x.2.step = none) → (∃ b, exec (.swapOutComplete n) s = .next { s with b := b } ∧
      (b.ctx n).state = .swapped ∧ (b.ctx n).prev = (s.b.ctx n).state ∧
      (b.ctx n).swap = .held ((s.b.ownFrames n).map (·.2)) bytes ∧ (b.ctx n).kvLen = (s.b.ctx n).kvLen ∧
      b.tp.swapOutCount = sat32 s.b.tp.swapOutCount 1 ∧ OtherContexts s n b)) ∧
  (∀ (s : State) (n bytes : Nat) (fs fs' : List Frame) (b1 : Block), s.b.firstNeed (coachman n) = some n →
    s.b.slicedCtx n = false → (s.b.ctx n).swap = .held fs bytes → (s.b.ctx n).state = .swapped →
    s.b.takeFrames (s.b.ctx n).tenant (coachman n) fs = some (b1, fs') → (∃ b, exec (.swapIn n) s = .next { s with b := b } ∧
      b.ctx n = { s.b.ctx n with swap := .inn fs' bytes, swapPages := 0 } ∧ OtherContexts s n b)) ∧
  (∀ (s : State) (n bytes : Nat) (fs : List Frame), (s.b.ctx n).swap = .inn fs bytes → (s.b.ctx n).state = .swapped →
    (s.b.ctx n).prev ≠ .free → (s.b.ctx n).freeing = false → s.b.inTeam = false →
    (∃ b, exec (.swapInComplete n false) s = .next { s with b := b } ∧
      (b.ctx n).state = (s.b.ctx n).prev ∧ (b.ctx n).swap = .none ∧
      (b.ctx n).blocks.length = (s.b.ctx n).blocks.length + fs.length ∧
      b.sb.chUsed = s.b.sb.chUsed - roundUp (imageSlots bytes) 60 ∧ b.tp.swapInCount = sat32 s.b.tp.swapInCount 1)) ∧
  (∀ (s : State) (n bytes : Nat) (fs : List Frame), (s.b.ctx n).swap = .inn fs bytes → (s.b.ctx n).state = .swapped →
    (s.b.ctx n).prev ≠ .free → (s.b.ctx n).freeing = false → s.b.inTeam = false →
    (∃ b, exec (.swapInComplete n true) s = .next { s with b := b } ∧
      (b.ctx n).state = (s.b.ctx n).prev ∧ (b.ctx n).swap = .none ∧ (b.ctx n).blocks = [] ∧
      (b.ctx n).recompute = decide (0 < (s.b.ctx n).kvLen) ∧
      b.sb.chUsed = s.b.sb.chUsed - roundUp (imageSlots bytes) 60))

/-- Dispatch, restore and pre-emption of tile tasks (R34, R164 to R167, R184, R187, R210, R213). -/
def Obligations.TasksDispatchAndPreempt : Prop :=
  (∀ (s : State) (cm k : Nat) (t : TileTask) (x : Kernel), s.b.presented cm = some t → s.b.pickCoach cm t.prefQ = some k →
    (s.b.coach k).task = none → (s.b.coach k).resident (s.b.tenantOf t.ctx) t.kernelObj t.kernelId = some x →
    ((s.b.coach k).loadImage (s.b.imageHeld k) x).storeFits = true →
    (∃ b, exec (.dispatch cm) s = .next { s with b := b } ∧
      (b.coach k).st = .arriving ∧ (b.coach k).task = some t ∧ (b.coach k).tenant = s.b.tenantOf t.ctx ∧
      (b.coach k).dispatchCclk = s.b.clk.cclk ∧ (b.coach k).kernel = some x ∧ (b.coach k).tile = t.order ∧
      (b.coach k).ranges = t.ranges ∧ (b.coach k).images.getLast? = some x ∧
      (∀ r ∈ b.tp.ready, ∀ y ∈ r.2, y.id ≠ t.id) ∧ OtherCoaches s k b ∧
      b = { s.b with tp := { s.b.tp with ready := b.tp.ready }, coaches := b.coaches })) ∧
  (∀ (s : State) (k : Nat) (t : TileTask) (x : Kernel), (s.b.coach k).task = some t → (s.b.coach k).st = .arriving →
    t.image = none → (s.b.coach k).kernel = some x → x.blank 0 = false →
    (∀ st, (s.b.ctx t.ctx).step = some st → st.cmds = []) →
    (∃ b, exec (.dispatchArrival k) s = .next { s with b := b } ∧
      (b.coach k).st = .running ∧ (b.coach k).pc = 0 ∧ (b.coach k).loops = [] ∧ (b.coach k).tags = [] ∧
      (b.coach k).fpflags = 0 ∧ (b.coach k).p = [] ∧
      (∀ i, i < 15 → tabFind? (i + 1) (b.coach k).s = some (t.sArgs.getD i 0)) ∧
      (∀ i, 15 ≤ i → i < 63 → tabFind? (i + 1) (b.coach k).s = some 0) ∧
      (∀ i, i < 8 → tabFind? i (b.coach k).a = some (t.aArgs.getD i 0)) ∧
      (∀ i, 8 ≤ i → i < 16 → tabFind? i (b.coach k).a = some 0) ∧ OtherCoaches s k b)) ∧
  (∀ (s : State) (k : Nat) (t : TileTask) (st : StepRun) (c : SegCmd), (s.b.coach k).task = some t →
    (s.b.coach k).st = .arriving → t.image = none → (s.b.ctx t.ctx).step = some st → st.cmds = [.segment c] →
    s.b.txu.segQ = [] → (∃ b, exec (.dispatchArrival k) s = .next { s with b := b } ∧
      b.txu.segQ = [{ c with issue := ⟨t.decode, k, t.ranges, s.b.clk.cclk⟩ }] ∧
      (b.ctx t.ctx).step.map (·.cmds) = some [] ∧ OtherCoaches s k b)) ∧
  (∀ (s : State) (k : Nat) (t : TileTask) (m : SaveImage), (s.b.coach k).task = some t → (s.b.coach k).st = .arriving →
    t.image = some m →
    exec (.dispatchArrival k) s = .next { s with b := s.b.modCoach k fun c => { c with st := .restoring } }) ∧
  (∀ (s : State) (k : Nat) (t : TileTask) (m : SaveImage) (x : Kernel), (s.b.coach k).task = some t →
    (s.b.coach k).st = .restoring → t.image = some m → (s.b.coach k).kernel = some x →
    x.blank (bits (fieldAt m.bytes 0x14 4) 15 4) = false → (∃ b, exec (.restoreComplete k) s = .next { s with b := b } ∧
      (b.coach k).st = .running ∧ (b.coach k).pc = bits (fieldAt m.bytes 0x14 4) 15 4 ∧
      (b.coach k).round = bit (fieldAt m.bytes 0x14 4) 3 ∧
      (b.coach k).fpflags = BitVec.ofNat 3 (fieldAt m.bytes 0x14 4) ∧
      (b.coach k).cycleBase = (s.b.clk.delivered : Int) - (fieldAt m.bytes 0x10 4 : Nat) ∧
      (b.coach k).stretchBase = s.b.clk.delivered ∧ (b.coach k).tags = [] ∧ (b.coach k).overlay = m.overlay ∧
      (b.coach k).deferred = m.deferred ∧ OtherCoaches s k b)) ∧
  (∀ (s : State) (cm k : Nat) (t v : TileTask),
    ((s.b.presentable cm).find? fun t => t.decode && !(s.b.coaches.any fun c => c.2.preemptFor == some t.id)) = some t →
    s.b.pickCoach cm t.prefQ = none →
    s.b.victim = some k → (s.b.coach k).task = some v → s.b.saveUsed + (64 + v.maxSave) ≤ saveRegion →
    exec (.preemptionDecision cm) s = .next { s with b := s.b.modCoach k fun c => { c with
      preemptSent := true, preemptFor := some t.id } }) ∧
  (∀ (s : State) (k : Nat) (t : TileTask), (s.b.coach k).preemptSent = true → (s.b.coach k).task = some t →
    exec (.preemptionRequestArrival k) s = .next { s with b := s.b.modCoach k fun c => { c with preempt := true } }) ∧
  (∀ (s : State) (k : Nat) (m : SaveImage), (s.b.coach k).st = .saving → (s.b.coach k).image = some m →
    (∃ b, exec (.saveComplete k) s = .next { s with b := b } ∧
      b.coach k = { s.b.coach k with st := .ending, image := none, notice := some (.saved m) } ∧ OtherCoaches s k b ∧
      b.tp = { s.b.tp with preemptCount := sat32 s.b.tp.preemptCount 1 } ∧
      b = { s.b with tp := b.tp, coaches := b.coaches })) ∧
  (∀ (s : State) (k : Nat) (m : SaveImage) (t : TileTask), (s.b.coach k).notice = some (.saved m) →
    (s.b.coach k).task = some t → (s.b.coach k).discard = false → (∃ b, exec (.completionNotice k) s = .next { s with b := b } ∧
      (b.coach k).st = .idle ∧ (b.coach k).task = none ∧ OtherCoaches s k b ∧
      { t with image := some m } ∈ tabGet [] (coachman t.ctx) b.tp.ready ∧ b.mem = s.b.mem ∧ b.ctxs = s.b.ctxs)) ∧
  (∀ (s : State) (k : Nat) (t : TileTask) (st : StepRun), (s.b.coach k).notice = some (.done Codes.ok 0) →
    (s.b.coach k).task = some t → (s.b.coach k).discard = false → (s.b.coach k).deferred = [] →
    s.b.work? t.ctx = none → (s.b.ctx t.ctx).step = some st → (s.b.ctx t.ctx).state ≠ .free → 2 ≤ st.tasks →
    (∃ b, exec (.completionNotice k) s = .next { s with b := b } ∧
      (b.coach k).st = .idle ∧ (b.coach k).task = none ∧ OtherCoaches s k b ∧
      (b.ctx t.ctx).step = some { st with tasks := st.tasks - 1, quarter := some (k / 128) } ∧ b.tp.q = s.b.tp.q - t.cclk ∧
      ∀ a, tabFind? a b.mem = (if (tabFind? a (s.b.coach k).overlay).isSome
        then ((s.b.coach k).overlay.filter fun c => c.1 == a).getLast?.map (·.2) else tabFind? a s.b.mem)))

/-- The text steps and their unit commands (R124, R370 to R388): the kernels of SEGMENT and DETOK issue a command, which gives the
step's result; MASK and STOPS write the text record and go on; SEGMENT of a missing object ends the request. -/
def Obligations.TextSteps : Prop :=
  (∀ (s : State) (n : Nat) (i : RInstr) (o : Obj) (q : Req) (bs : List Byte), s.b.starts n 1 i → bit i.iflags 0 = false →
    s.b.liveObj? (s.b.ctx n).tenant i.obj = some o → o.kind = 3 → (s.b.ctx n).req = some q →
    ((s.b.ctx n).reg i.ra).toNat < q.inLen →
    (∃ b, exec (.segment n (.ok bs)) s = .next { s with b := b } ∧
      (∃ st, StepBegun s n i st b ∧ st.wait = .rounds ∧ st.result = none ∧ st.cmds = [.segment
        { ctx := n, obj := i.obj, remain := q.inLen - ((s.b.ctx n).reg i.ra).toNat
          input := fitBytes (min (q.inLen - ((s.b.ctx n).reg i.ra).toNat) 65539) bs }]) ∧
      OtherContexts s n b ∧ b.mem = s.b.mem)) ∧
  (∀ (s : State) (n : Nat) (i : RInstr) (o : Obj) (inp : HostRead), s.b.starts n 1 i → bit i.iflags 0 = true →
    s.b.liveObj? (s.b.ctx n).tenant i.obj = some o → o.kind = 3 → ((s.b.ctx n).list i.la).kind = kBytes →
    s.b.listPoison n i.la = false → (∃ b, exec (.segment n inp) s = .next { s with b := b } ∧
      (∃ st, StepBegun s n i st b ∧ st.wait = .rounds ∧ st.result = none ∧ st.cmds = [.segment
        { ctx := n, obj := i.obj, remain := (s.b.listBytes n i.la).length - ((s.b.ctx n).reg i.ra).toNat
          input := (s.b.listBytes n i.la).drop ((s.b.ctx n).reg i.ra).toNat }]) ∧
      OtherContexts s n b ∧ b.mem = s.b.mem)) ∧
  (∀ (s : State) (n : Nat) (i : RInstr) (q : Req) (inp : HostRead), s.b.starts n 1 i →
    s.b.liveObj? (s.b.ctx n).tenant i.obj = none → (s.b.ctx n).req = some q → q.reservation = true → q.pins = [] →
    s.b.onCoach n = false → (∃ b, exec (.segment n inp) s = .next { s with b := b } ∧
      (b.ctx n).req = none ∧ (b.ctx n).state = .idle ∧ (b.ctx n).lastCode = Codes.noObject ∧
      (b.ctx n).pc = (s.b.ctx n).pc ∧ b.host.out.length = s.b.host.out.length + 2)) ∧
  (∀ (s : State) (lane : Nat) (q : SegCmd) (rest : List SegCmd) (st : StepRun) (i : RInstr) (o : Obj) (r : SegResult),
    s.b.txu.segQ = q :: rest → s.b.nextLane = some lane → (s.b.ctx q.ctx).step = some st → st.opcode = 1 →
    1 ≤ st.tasks → s.b.instrAt q.ctx = some i → s.b.obj? (s.b.ctx q.ctx).tenant q.obj = some o →
    (s.b.ctx q.ctx).state ≠ .free → s.b.segmentRun o q.remain q.input = .ok r →
    (∃ b, exec (.segmenterCommand lane) s = .next { s with b := b } ∧
      b.txu = { s.b.txu with segQ := rest, segCount := sat32 s.b.txu.segCount 1
                             laneFree := tabSet lane (max s.b.clk.cclk (tabGet 0 lane s.b.txu.laneFree) + convN r.nclk) s.b.txu.laneFree } ∧
      (∃ st', (b.ctx q.ctx).step = some st' ∧ st'.wait = .task ∧ st'.tasks = st.tasks ∧ st'.result = some
        { StepResult.ofCode (if r.cut then Codes.truncated else Codes.ok) with
            ld := some (kTokens, r.tokens.length, (r.tokens.map (le 4)).flatten)
            rd := some ((s.b.ctx q.ctx).reg i.ra + BitVec.ofNat 64 r.used)
            writes := [(s.b.textAddr q.ctx, le 2 q.obj)] }) ∧
      OtherContexts s q.ctx b ∧ b.mem = s.b.mem)) ∧
  (∀ (s : State) (n : Nat) (i : RInstr), s.b.starts n 0xD i → i.obj = 0 → (∃ b, exec (.mask n) s = .next { s with b := b } ∧
    (b.ctx n).pc = (s.b.ctx n).pc + 1 ∧ (b.ctx n).lastCode = (s.b.ctx n).lastCode ∧
    tGrammar (b.textRec n) = 0 ∧ tGState (b.textRec n) = tGState (s.b.textRec n) ∧ OtherContexts s n b)) ∧
  (∀ (s : State) (n : Nat) (i : RInstr) (o : Obj), s.b.starts n 0xD i → 0 < i.obj → i.obj < 2 ^ 16 →
    s.b.liveObj? (s.b.ctx n).tenant i.obj = some o → bit i.iflags 0 = false → (∃ b, exec (.mask n) s = .next { s with b := b } ∧
      (b.ctx n).pc = (s.b.ctx n).pc + 1 ∧ tGrammar (b.textRec n) = i.obj ∧ (tGState (b.textRec n)).state = i.imm16 % 2 ^ 16 ∧
      (tGState (b.textRec n)).depth = 0 ∧ OtherContexts s n b)) ∧
  (∀ (s : State) (n : Nat) (i : RInstr), s.b.starts n 0xE i → bit i.iflags 0 = true → (∃ b, exec (.stops n) s = .next { s with b := b } ∧
    (b.ctx n).pc = (s.b.ctx n).pc + 1 ∧ (b.ctx n).lastCode = (s.b.ctx n).lastCode ∧ tStops (b.textRec n) = [] ∧
    OtherContexts s n b)) ∧
  (∀ (s : State) (n : Nat) (i : RInstr) (ss : List (List Byte)), s.b.starts n 0xE i → bit i.iflags 0 = false →
    s.b.listOk n i.la [kBytes] = true → s.b.listPoison n i.la = false → fieldAt (s.b.listBytes n i.la) 0 1 ≤ 8 →
    stopStrings (fieldAt (s.b.listBytes n i.la) 0 1) ((s.b.listBytes n i.la).drop 1) = some ss →
    (∃ b, exec (.stops n) s = .next { s with b := b } ∧
      (b.ctx n).pc = (s.b.ctx n).pc + 1 ∧ b.textRec n = setStops (s.b.textRec n) ss ∧ OtherContexts s n b)) ∧
  (∀ (s : State) (n : Nat) (i : RInstr), s.b.starts n 0xF i → ((s.b.ctx n).list i.la).kind = kTokens →
    s.b.listPoison n i.la = false → tVocab (s.b.textRec n) ≠ 0 → (∃ b, exec (.detok n) s = .next { s with b := b } ∧
      (∃ st, StepBegun s n i st b ∧ st.wait = .rounds ∧ st.result = none ∧
        st.cmds = [.detok { ctx := n, tokens := (s.b.tokensOf n i.la).map (· % 2 ^ 24) }]) ∧
      OtherContexts s n b ∧ b.mem = s.b.mem)) ∧
  (∀ (s : State) (q : DetokCmd) (rest : List DetokCmd) (st : StepRun) (i : RInstr) (d : Detok) (hold : List Byte)
    (stop : Option Nat), s.b.txu.detokQ = q :: rest → (s.b.ctx q.ctx).step = some st → st.opcode = 0xF →
    (s.b.ctx q.ctx).state ≠ .free → 1 ≤ st.tasks → s.b.instrAt q.ctx = some i → bit i.rpl 3 = false →
    s.b.detokTokens (s.b.ctx q.ctx).tenant false (s.b.textRec q.ctx) q.tokens ⟨0, [], []⟩ (tHold (s.b.textRec q.ctx)) =
      (d, hold, stop, none) → (d.finish false hold stop).out = [] →
    (∃ b, exec .detokCommand s = .next { s with b := b } ∧
      b.txu.detokQ = rest ∧ OtherContexts s q.ctx b ∧
      (b.ctx q.ctx).step = some { st with wait := .task, result := some (StepResult.ofCode
        (if stop.isSome then Codes.stopped else Codes.ok)) }))

/-- The model steps that make lists (R285, R287, R442, R443): EMBED's vector, PROBE's partitions, GATHER's commands and empty list, UPDATE's
deferred commands wait for their tile task; the shard set and lists are checked first. -/
def Obligations.EmbedProbeGatherUpdateBegin : Prop :=
  (∀ (s : State) (n : Nat) (i : RInstr) (o : Obj) (m : ModelDecl) (d : EncoderDecl) (v k : List (BitVec 8)),
    s.b.starts n 2 i → bit i.iflags 0 = false → s.b.liveObj? (s.b.ctx n).tenant i.obj = some o → o.kind = 4 →
    o.decl = some m → m.encoder = some d → s.b.listOk n i.la [kTokens] = true → s.b.listPoison n i.la = false →
    (∃ b, exec (.embed n v k) s = .next { s with b := b } ∧
      (∃ st, StepBegun s n i st b ∧ st.wait = .task ∧ st.result = some { StepResult.ofCode Codes.ok with
        ld := some (kVector, (vectorBytes d.dim d.fmt d.sketch v k).length, vectorBytes d.dim d.fmt d.sketch v k) }) ∧
      OtherContexts s n b ∧ b.mem = s.b.mem)) ∧
  (∀ (s : State) (n : Nat) (i : RInstr) (ref : Bool) (es : List (Nat × Nat)) (q : QueryVec), s.b.starts n 5 i →
    s.b.searchStart n i none = .ok (ref, es, q) → (es.all fun e => e.1 == s.b.cb.module) = true →
    (∃ b, exec (.probe n) s = .next { s with b := b } ∧
      (∃ st r, StepBegun s n i st b ∧ st.wait = .task ∧ st.result = some r ∧ r.code = Codes.ok) ∧
      OtherContexts s n b ∧ b.mem = s.b.mem)) ∧
  (∀ (s : State) (n : Nat) (i : RInstr) (t : Table), s.b.starts n 3 i →
    s.b.stepTable (s.b.ctx n).tenant i.obj = .ok t →
    (((s.b.ctx n).list i.la).kind = kTokens ∨ ((s.b.ctx n).list i.la).kind = kIndices) →
    (∀ q, q < 4 → s.b.fenced 6 q = false) → i.sub = 0 →
    keyRuns (((s.b.ctx n).list i.la).kind == kTokens) t.ngram ((s.b.ctx n).list i.la).count ≠ [] →
    (∃ b, exec (.gather n) s = .next { s with b := b } ∧
      (∃ st, StepBegun s n i st b ∧ st.wait = .rounds ∧ st.result = none ∧ st.cmds =
        (keyRuns (((s.b.ctx n).list i.la).kind == kTokens) t.ngram ((s.b.ctx n).list i.la).count).map fun r =>
          .unit (stepGtuCmd n (s.b.ctx n).tenant i.obj (s.b.servedBy t) (if t.keys then 3 else 1) false false
            (((s.b.ctx n).list i.la).kind == kTokens) r.2 (ctxTva (((s.b.ctx n).list i.la).offset * 64) +
              r.1 * (if ((s.b.ctx n).list i.la).kind == kTokens then 4 else 8)) 0)) ∧
      OtherContexts s n b ∧ b.mem = s.b.mem)) ∧
  (∀ (s : State) (n : Nat) (i : RInstr) (t : Table) (d : List Byte), s.b.starts n 3 i →
    s.b.stepTable (s.b.ctx n).tenant i.obj = .ok t → ((s.b.ctx n).list i.la).kind = kIndices →
    ((s.b.ctx n).list i.la).count = 0 → t.keys = false → (∀ q, q < 4 → s.b.fenced 6 q = false) → i.sub = 0 →
    s.b.fetchTask (laneCmd (s.b.ctx n).tenant t.addr) Codes.gtuXlate (t.addr + 0x80) t.rb = .ok d →
    (∃ b, exec (.gather n) s = .next { s with b := b } ∧
      (∃ st, StepBegun s n i st b ∧ st.wait = .task ∧ st.result = some { StepResult.ofCode Codes.ok with
        ld := some (kRows, 0, fitBytes 64 (le 4 (t.elems + t.fmt * 2 ^ 11))) }) ∧
      OtherContexts s n b ∧ b.mem = s.b.mem)) ∧
  (∀ (s : State) (n : Nat) (i : RInstr) (t : Table), s.b.starts n 4 i →
    s.b.stepTable (s.b.ctx n).tenant i.obj = .ok t → ((s.b.ctx n).list i.la).kind = kIndices →
    ((s.b.ctx n).list i.lb).kind = kRows → t.updatable = true →
    s.b.poisoned (ctxRangeBase + ((s.b.ctx n).list i.lb).offset * 64) 64 = false →
    bits (fieldAt (s.b.readMem (ctxRangeBase + ((s.b.ctx n).list i.lb).offset * 64) 4) 0 4) 10 0 = t.elems →
    bits (fieldAt (s.b.readMem (ctxRangeBase + ((s.b.ctx n).list i.lb).offset * 64) 4) 0 4) 12 11 = t.fmt →
    ((s.b.ctx n).list i.la).count = ((s.b.ctx n).list i.lb).count → (∀ q, q < 4 → s.b.fenced 6 q = false) →
    (∃ b, exec (.update n) s = .next { s with b := b } ∧
      (∃ st r, StepBegun s n i st b ∧ st.wait = .task ∧ st.result = some r ∧ r.code = Codes.ok ∧
        r.deferred.length = (keyRuns false 1 ((s.b.ctx n).list i.la).count).length) ∧
      OtherContexts s n b ∧ b.mem = s.b.mem))

/-- The search steps (R289 to R301): SCAN and the reference form of WALK start their queries, WALK its walks, each with one tile
task; turns, passes and hops advance them; a wait for other modules expires. -/
def Obligations.SearchSteps : Prop :=
  (∀ (s : State) (n : Nat) (i : RInstr) (ref : Bool) (es : List (Nat × Nat)) (q : QueryVec), s.b.starts n 6 i →
    s.b.searchStart n i (some kPartitions) = .ok (ref, es, q) → s.b.searchGone = false →
    (∃ b, exec (.scan n) s = .next { s with b := b } ∧ (∃ st, StepBegun s n i st b) ∧ OtherContexts s n b ∧ b.mem = s.b.mem)) ∧
  (∀ (s : State) (n : Nat) (i : RInstr) (es : List (Nat × Nat)) (q : QueryVec), s.b.starts n 7 i →
    s.b.searchStart n i (some kCandidates) = .ok (true, es, q) → s.b.searchGone = false → s.b.kindGone 5 4 = false →
    (∃ b, exec (.walk n) s = .next { s with b := b } ∧ (∃ st, StepBegun s n i st b) ∧ OtherContexts s n b ∧ b.mem = s.b.mem)) ∧
  (∀ (s : State) (n : Nat) (i : RInstr) (es : List (Nat × Nat)) (q : QueryVec), s.b.starts n 7 i →
    s.b.searchStart n i (some kCandidates) = .ok (false, es, q) → s.b.kindGone 5 4 = false → i.imm32 / 256 % 256 = 0 →
    (∃ b, exec (.walk n) s = .next { s with b := b } ∧ (∃ st, StepBegun s n i st b) ∧ OtherContexts s n b ∧ b.mem = s.b.mem)) ∧
  (∀ (s : State) (n sh : Nat) (run : SearchRun) (w : WalkRun) (x : Shard) (e : BeamEnt) (r : List Byte)
    (b1 : Block) (w1 : WalkRun) (b2 : Block), s.b.search? n = some run →
    run.walks.find? (fun w => w.shard == sh && w.module.isNone && !w.done) = some w → s.b.shard? sh = some x →
    w.best = some e → s.b.fetchWalk n x w [e.cand.id] = (.ok b1, w1) →
    (b1.cacheOf n).records.lookup e.cand.id = some r → b1.walkOn n x run (b1.expand x run w1 e.cand.id r) = some b2 →
    (∃ b, exec (.hop n sh) s = .next { s with b := b } ∧ b = { b2 with mem := b.mem } ∧ ∀ a, tabFind? a b.mem = tabFind? a b2.mem)) ∧
  (∀ (s : State) (n sh : Nat) (run : SearchRun) (w : WalkRun) (x : Shard) (e : BeamEnt) (b1 : Block) (w1 : WalkRun),
    s.b.search? n = some run → run.walks.find? (fun w => w.shard == sh && w.module.isNone && !w.done) = some w →
    s.b.shard? sh = some x → w.best = some e → s.b.fetchWalk n x w [e.cand.id] = (.ok b1, w1) →
    (b1.cacheOf n).records.lookup e.cand.id = none →
    (∃ b, exec (.hop n sh) s = .next { s with b := b } ∧ b = { b1.setWalk n w1 with mem := b.mem } ∧ ∀ a, tabFind? a b.mem = tabFind? a b1.mem)) ∧
  (∀ (s : State) (n : Nat) (st : StepRun) (run : SearchRun), (s.b.ctx n).step = some st → s.b.work? n = none →
    s.b.search? n = some run → run.owes = true → st.remoteSince + s.b.ske.remoteWait.toNat * 1024 ≤ s.b.clk.cclk → 1 ≤ st.tasks →
    (s.b.ctx n).state ≠ .free → s.b.cb.domEnable = 0 → s.b.inTeam = false → (∃ b, exec (.remoteWaitExpiry n) s = .next { s with b := b } ∧
      ∃ st', (b.ctx n).step = some st' ∧ st'.wait = .task ∧ st'.tasks = st.tasks ∧
        st'.result = some (StepResult.ofCode Codes.shardUnreachable))) ∧
  (∀ (s : State) (e : Nat), s.b.mainUp = true → s.b.cycleOf e ≠ [] → s.b.fenced 4 e = false → s.b.ske.shared = false →
    (s.b.engine e).length * 3 ≤ (s.b.clk.cclk - (s.b.engine e).since) * 4 → (∃ b, exec (.turnBoundary e) s = .next { s with b := b } ∧
      (b.engine e).turn = ((s.b.engine e).turn + 1) % (s.b.cycleOf e).length ∧ (b.engine e).since = s.b.clk.cclk ∧
      (b.engine e).length = s.b.ske.turnLen ∧ (b.engine e).shared = false ∧
      (∀ q ∈ (b.engine e).waiting, q ∈ (s.b.engine e).waiting) ∧
      (∀ p ∈ (s.b.engine e).passes, ∃ p' ∈ (b.engine e).passes, p'.shard = p.shard ∧ p'.part = p.part ∧ p'.queries = p.queries) ∧
      (∀ p ∈ (b.engine e).passes, p.queries.length ≤ 64 ∨ ∃ p0 ∈ (s.b.engine e).passes, p0.queries = p.queries) ∧
      (∀ p x, (b.engine e).passes.find? (fun p => p.shard == b.turnShard e) = some p → s.b.shard? p.shard = some x →
        p.fill.isSome = true) ∧
      b = { s.b with ske := { s.b.ske with engines := b.ske.engines } })) ∧
  (∀ (s : State) (e : Nat) (p : Pass) (x : Shard),
    (s.b.engine e).passes.find? (fun p => p.shard == s.b.turnShard e) = some p → s.b.shard? (s.b.turnShard e) = some x →
    s.b.fenced 4 e = false → p.queries = [] → (∃ b, exec (.passComplete e) s = .next { s with b := b } ∧
      (b.engine e).passes.map (fun p => (p.shard, p.part, p.queries)) =
        ((s.b.engine e).passes.erase p).map (fun p => (p.shard, p.part, p.queries)) ∧
      b.ske.passCount = sat32 s.b.ske.passCount 1 ∧
      b.ske.rowCount = sat32 s.b.ske.rowCount (p.fill.getD (s.b.partEnt x p.part).fill) ∧ b.ctxs = s.b.ctxs ∧ b.mem = s.b.mem)) ∧
  (∀ (s : State) (e : Nat) (p : Pass) (x : Shard) (eg : EngQuery) (run : SearchRun),
    (s.b.engine e).passes.find? (fun p => p.shard == s.b.turnShard e) = some p → s.b.shard? (s.b.turnShard e) = some x →
    s.b.fenced 4 e = false → p.queries = [eg] → s.b.search? eg.ctx = some run → (s.b.ctx eg.ctx).state ≠ .free →
    (run.queries.any fun q => q.setIdx != eg.setIdx && !q.done) = true → s.b.rel.poison = [] →
    (∃ b, exec (.passComplete e) s = .next { s with b := b } ∧ ∃ run' : SearchRun, b.search? eg.ctx = some run' ∧
      (∀ (k : Nat) (q : ShardQuery), run.queries[k]? = some q → q.setIdx = eg.setIdx →
        ∃ q' : ShardQuery, run'.queries[k]? = some q' ∧ q'.pending = q.pending.erase (eg.place, eg.part) ∧
          q'.done = (q.pending.erase (eg.place, eg.part)).isEmpty) ∧
      OtherContexts s eg.ctx b ∧ b.mem = s.b.mem))

/-- RERANK and PACK (R340 to R359) begin with their tile task, and give their result to the step when every record is at hand. -/
def Obligations.RerankAndPackSteps : Prop :=
  (∀ (s : State) (n : Nat) (i : RInstr) (q : QueryVec) (xs : List (BitVec 32)), s.b.starts n 8 i → i.obj = 0 →
    i.imm32 % 65536 = 0 → s.b.listOk n i.la [kVector] = true → s.b.listOk n i.lb [kCandidates] = true →
    s.b.listPoison n i.la = false → s.b.listPoison n i.lb = false → q = queryOf (s.b.listBytes n i.la) →
    s.b.prepAccess n (some q) (candsOf (s.b.listBytes n i.lb)) = none → s.b.kindGone 5 4 = false →
    ((candsOf (s.b.listBytes n i.lb)).all fun c => idModule c.id == s.b.cb.module) = true → s.b.work? n = none →
    (∃ b, exec (.rerank n xs) s = .next { s with b := b } ∧
      (∃ st, (b.ctx n).step = some st ∧ st.step = (s.b.ctx n).pc ∧ st.opcode = 8 ∧ 1 ≤ st.tasks) ∧
      (∃ t ∈ tabGet [] (coachman n) b.tp.ready, t.ctx = n ∧ t.id = s.b.tp.nextTask) ∧
      (b.ctx n).pc = (s.b.ctx n).pc ∧ OtherContexts s n b)) ∧
  (∀ (s : State) (n : Nat) (st : StepRun) (run : SearchRun) (i : RInstr) (b1 : Block) (xs : List (BitVec 32)),
    (s.b.ctx n).step = some st → s.b.search? n = some run → s.b.instrAt n = some i → st.opcode = 8 → st.wait = .search →
    run.owes = false → run.parked = [] → run.fetching = true → s.b.prepNeeds n run = [] →
    b1 = s.b.rerankGo n i (s.b.prepared n run) ⟨run.dim, run.fmt, 0, run.vec, run.sketch⟩ (match st.rerank with
      | some r => r.cross
      | none => []) →
    (∃ b, exec (.rerank n xs) s = .next { s with b := b } ∧ b = { b1 with mem := b.mem } ∧ ∀ a, tabFind? a b.mem = tabFind? a b1.mem)) ∧
  (∀ (s : State) (n : Nat) (st : StepRun) (run : SearchRun) (i : RInstr) (b1 : Block), (s.b.ctx n).step = some st →
    s.b.search? n = some run → s.b.instrAt n = some i → st.opcode = 9 → st.wait = .search → run.owes = false →
    run.parked = [] → run.fetching = true → s.b.prepNeeds n run = [] → b1 = s.b.packGo n i (s.b.prepared n run) →
    (∃ b, exec (.pack n) s = .next { s with b := b } ∧ b = { b1 with mem := b.mem } ∧ ∀ a, tabFind? a b.mem = tabFind? a b1.mem)) ∧
  (∀ (b : Block) (n : Nat) (i : RInstr) (q : QueryVec) (xs : List W32) (p : Prep), i.obj = 0 → i.imm32 % 65536 = 0 →
    p.kept = [] → b.rerankGo n i p q xs =
      (b.countSelect n 0).unitResult n (rerankResult i.imm16 true [] (p.unseen, p.dups, 0))) ∧
  (∀ (s : State) (n : Nat) (i : RInstr) (t : Template), s.b.starts n 9 i →
    s.b.template (s.b.ctx n).tenant i.obj = .ok t → (t.segs.any fun g => g.kind == 3) = false →
    ((s.b.ctx n).list i.la).kind = 0 → ((s.b.ctx n).list i.lb).kind = 0 → s.b.work? n = none →
    (∃ b, exec (.pack n) s = .next { s with b := b } ∧
      (∃ st r, (b.ctx n).step = some st ∧ st.step = (s.b.ctx n).pc ∧ st.opcode = 9 ∧ st.tasks = 2 ∧ st.wait = .task ∧
        st.result = some r) ∧
      (∃ x ∈ tabGet [] (coachman n) b.tp.ready, x.ctx = n ∧ x.id = s.b.tp.nextTask) ∧
      (∃ x ∈ tabGet [] (coachman n) b.tp.ready, x.ctx = n ∧ x.id = s.b.tp.nextTask + 1) ∧
      (b.ctx n).pc = (s.b.ctx n).pc ∧ OtherContexts s n b)) ∧
  (∀ (s : State) (n : Nat) (i : RInstr) (xs : List (BitVec 32)), s.b.starts n 8 i →
    ((s.b.ctx n).list i.la).kind ≠ kVector → ∀ (q : Req), (s.b.ctx n).req = some q → q.reservation = true → q.pins = [] →
    s.b.onCoach n = false → (s.b.ctx n).step = none → (∃ b, exec (.rerank n xs) s = .next { s with b := b } ∧
      (b.ctx n).req = none ∧ (b.ctx n).lastCode = Codes.listKind ∧ (b.ctx n).state = .idle))

/-- Generation (R124, R412 to R420): PREFILL writes positions that count once its task completes, SPEC sets or releases the draft,
DECODE records VOCAB and begins its first round, and a round that goes on begins the next. -/
def Obligations.GenerationSteps : Prop :=
  (∀ (s : State) (n : Nat) (i : RInstr) (o : Obj) (g : GeneratorDecl) (b1 : Block) (chain : List Nat)
    (kv : List KvToken) (next : List (BitVec 32)), s.b.starts n 0xA i →
    s.b.liveObj? (s.b.ctx n).tenant i.obj = some o → s.b.generator (s.b.ctx n).tenant i.obj = some g →
    ((s.b.ctx n).kvLen = 0 ∨ (s.b.ctx n).gen = i.obj) →
    (s.b.ctx n).kvLen + ((s.b.ctx n).list i.la).count ≤ maxPositions → s.b.listOk n i.la [kTokens] = true →
    s.b.listPoison n i.la = false →
    s.b.prefillWrite n g i.obj ((s.b.tokensOf n i.la).map (· % 2 ^ 24)) kv = (.done b1, chain) →
    b1.framesPoisoned n = false →
    (∃ b, exec (.prefill n kv next) s = .next { s with b := b } ∧
      ∃ st, StepBegun s n i st b ∧ st.wait = .task ∧
        st.result = some { StepResult.ofCode Codes.ok with
          rd := some (BitVec.ofNat 64 ((s.b.ctx n).kvLen + ((s.b.tokensOf n i.la).map (· % 2 ^ 24)).length)) } ∧
        (∃ p, st.prefill = some p ∧ p.tokens = (s.b.tokensOf n i.la).map (· % 2 ^ 24) ∧ p.next = next ∧ p.gen = i.obj))) ∧
  (∀ (s : State) (n : Nat) (i : RInstr), s.b.starts n 0xC i → i.obj = 0 → (∃ b, exec (.spec n) s = .next { s with b := b } ∧
    (b.ctx n).spec = none ∧ (b.ctx n).draftTable = [] ∧ (b.ctx n).pc = (s.b.ctx n).pc + 1 ∧
    (b.ctx n).lastCode = (s.b.ctx n).lastCode ∧ OtherContexts s n b)) ∧
  (∀ (s : State) (n : Nat) (i : RInstr) (o : Obj), s.b.starts n 0xC i → i.obj ≠ 0 →
    s.b.liveObj? (s.b.ctx n).tenant i.obj = some o → (∃ b, exec (.spec n) s = .next { s with b := b } ∧
      (b.ctx n).spec = some (i.obj, i.imm16) ∧ (b.ctx n).pc = (s.b.ctx n).pc + 1 ∧
      (b.ctx n).lastCode = (s.b.ctx n).lastCode ∧ OtherContexts s n b)) ∧
  (∀ (s : State) (n : Nat) (i : RInstr) (o ov : Obj) (g : GeneratorDecl), s.b.starts n 0xB i →
    s.b.liveObj? (s.b.ctx n).tenant i.obj = some o → s.b.generator (s.b.ctx n).tenant i.obj = some g →
    (s.b.ctx n).nextRec.isSome = true → (s.b.ctx n).gen = i.obj → (s.b.ctx n).spec = none → g.vocabObj ≠ 0 →
    s.b.liveObj? (s.b.ctx n).tenant g.vocabObj = some ov → tGrammar (s.b.textRec n) = 0 → s.b.kindGone 5 4 = false →
    g.vocabObj < 2 ^ 16 → (∃ b, exec (.decode n) s = .next { s with b := b } ∧
      (∃ st, StepBegun s n i st b ∧ st.wait = .rounds ∧ st.decode = some ⟨[], false⟩) ∧
      tVocab (b.textRec n) = g.vocabObj ∧ OtherContexts s n b)) ∧
  (∀ (s : State) (n : Nat) (i : RInstr) (st : StepRun) (g : GeneratorDecl) (q : Req) (r : RoundData) (tok : Nat)
    (e : GenEnv) (g0 g1 g2 x : Gen), (s.b.ctx n).step = some st → s.b.instrAt n = some i → st.opcode = 0xB →
    st.wait = .rounds → st.tasks = 0 → st.decode = some ⟨[], false⟩ →
    s.b.generator (s.b.ctx n).tenant i.obj = some g → (s.b.ctx n).replyWait = false → (s.b.ctx n).freeing = false →
    (s.b.ctx n).req = some q → q.ending = none → (s.b.ctx n).state = .running → (s.b.ctx n).recompute = false →
    (s.b.ctx n).spec = none → (s.b.ctx n).pendTok = none → (s.b.ctx n).kvLen + 1 ≤ maxPositions →
    tGrammar (s.b.textRec n) = 0 → bit i.rpl 3 = false → s.b.kindGone 5 4 = false → s.b.framesPoisoned n = false →
    e = { n := n, tenant := (s.b.ctx n).tenant, g := g, gram := none, text := false, max := i.imm16
          seed := (s.b.ctx n).reg 15, endOnDead := bit i.iflags 0, unit := s.b.reinsUnit n } →
    g0 = { b := s.b.nextEpoch, rec_ := s.b.textRec n, mask := none, det := ⟨0, [], []⟩, toks := [] } →
    g1 = g0.sampled e ((s.b.ctx n).nextRec.getD []) →
    g1.choose e (s.b.ctx n).kvLen ((s.b.ctx n).nextRec.getD []) = .ok (tok, false) → g1.emit e tok false false = (g2, none) →
    g2.pass e i r none tok = some (x, none) → (x.b.ctx n).step = some st → (x.b.ctx n).state = .running → x.det.out = [] →
    (∃ b, exec (.decodeRound n r) s = .next { s with b := b } ∧
      (b.ctx n).step = some { st with tasks := 1, decode := some ⟨x.toks, true⟩ } ∧ (b.ctx n).specOpen = false ∧
      (∃ t ∈ tabGet [] (coachman n) b.tp.ready, t.ctx = n ∧ t.decode = true)))

/-- The scalar slots of C (R182, R192, R194 to R196): with its predicate true each writes its register from the values that its
sources held, S0 and P0 keep theirs, the PC moves on, and nothing else changes. -/
def Obligations.ScalarSlotsCompute : Prop :=
  ∀ (s : State) (k : Slot) (d x y : Nat) (i10 : BitVec 10) (i16 : BitVec 16), BundleReady s.b k →
    (s.b.coach k.coach).pred k = true →
    ((s.b.coach k.coach).issues 0 k (.add k d x y) = true → ∃ b, exec (.add k d x y) s = .next { s with b := b } ∧ CoachBecomes s k.coach ((s.b.nextCoach k.coach).setS d
      ((s.b.coach k.coach).sReg x + (s.b.coach k.coach).sReg y)) b) ∧
    ((s.b.coach k.coach).issues 0 k (.sub k d x y) = true → ∃ b, exec (.sub k d x y) s = .next { s with b := b } ∧ CoachBecomes s k.coach ((s.b.nextCoach k.coach).setS d
      ((s.b.coach k.coach).sReg x - (s.b.coach k.coach).sReg y)) b) ∧
    ((s.b.coach k.coach).issues 0 k (.and k d x y) = true → ∃ b, exec (.and k d x y) s = .next { s with b := b } ∧ CoachBecomes s k.coach ((s.b.nextCoach k.coach).setS d
      ((s.b.coach k.coach).sReg x &&& (s.b.coach k.coach).sReg y)) b) ∧
    ((s.b.coach k.coach).issues 0 k (.or k d x y) = true → ∃ b, exec (.or k d x y) s = .next { s with b := b } ∧ CoachBecomes s k.coach ((s.b.nextCoach k.coach).setS d
      ((s.b.coach k.coach).sReg x ||| (s.b.coach k.coach).sReg y)) b) ∧
    ((s.b.coach k.coach).issues 0 k (.xor k d x y) = true → ∃ b, exec (.xor k d x y) s = .next { s with b := b } ∧ CoachBecomes s k.coach ((s.b.nextCoach k.coach).setS d
      ((s.b.coach k.coach).sReg x ^^^ (s.b.coach k.coach).sReg y)) b) ∧
    ((s.b.coach k.coach).issues 0 k (.shift k d x y 0) = true → ∃ b, exec (.shift k d x y 0) s = .next { s with b := b } ∧ CoachBecomes s k.coach ((s.b.nextCoach k.coach).setS d
      ((s.b.coach k.coach).sReg x <<< (((s.b.coach k.coach).sReg y).toNat % 64))) b) ∧
    ((s.b.coach k.coach).issues 0 k (.shift k d x y 1) = true → ∃ b, exec (.shift k d x y 1) s = .next { s with b := b } ∧ CoachBecomes s k.coach ((s.b.nextCoach k.coach).setS d
      ((s.b.coach k.coach).sReg x >>> (((s.b.coach k.coach).sReg y).toNat % 64))) b) ∧
    ((s.b.coach k.coach).issues 0 k (.shift k d x y 2) = true → ∃ b, exec (.shift k d x y 2) s = .next { s with b := b } ∧ CoachBecomes s k.coach ((s.b.nextCoach k.coach).setS d
      (((s.b.coach k.coach).sReg x).sshiftRight (((s.b.coach k.coach).sReg y).toNat % 64))) b) ∧
    ((s.b.coach k.coach).issues 0 k (.mul k d x y) = true → ∃ b, exec (.mul k d x y) s = .next { s with b := b } ∧ CoachBecomes s k.coach ((s.b.nextCoach k.coach).setS d
      (BitVec.ofNat 32 (((s.b.coach k.coach).sReg x).toNat * ((s.b.coach k.coach).sReg y).toNat))) b) ∧
    ((s.b.coach k.coach).issues 0 k (.addi k d x i10) = true → ∃ b, exec (.addi k d x i10) s = .next { s with b := b } ∧ CoachBecomes s k.coach ((s.b.nextCoach k.coach).setS d
      ((s.b.coach k.coach).sReg x + i10.signExtend 32)) b) ∧
    ((s.b.coach k.coach).issues 0 k (.li k d i16) = true → ∃ b, exec (.li k d i16) s = .next { s with b := b } ∧ CoachBecomes s k.coach ((s.b.nextCoach k.coach).setS d (i16.signExtend 32)) b) ∧
    ((s.b.coach k.coach).issues 0 k (.lui k d i16) = true → ∃ b, exec (.lui k d i16) s = .next { s with b := b } ∧ CoachBecomes s k.coach ((s.b.nextCoach k.coach).setS d
      (i16 ++ ((s.b.coach k.coach).sReg d).setWidth 16)) b) ∧
    ((s.b.coach k.coach).issues 0 k (.cmp k d x y 0) = true → ∃ b, exec (.cmp k d x y 0) s = .next { s with b := b } ∧ CoachBecomes s k.coach ((s.b.nextCoach k.coach).setP d
      (if (s.b.coach k.coach).sReg x = (s.b.coach k.coach).sReg y then BitVec.allOnes 64 else 0)) b) ∧
    ((s.b.coach k.coach).issues 0 k (.cmp k d x y 1) = true → ∃ b, exec (.cmp k d x y 1) s = .next { s with b := b } ∧ CoachBecomes s k.coach ((s.b.nextCoach k.coach).setP d
      (if (s.b.coach k.coach).sReg x ≠ (s.b.coach k.coach).sReg y then BitVec.allOnes 64 else 0)) b) ∧
    ((s.b.coach k.coach).issues 0 k (.cmp k d x y 2) = true → ∃ b, exec (.cmp k d x y 2) s = .next { s with b := b } ∧ CoachBecomes s k.coach ((s.b.nextCoach k.coach).setP d
      (if ((s.b.coach k.coach).sReg x).toInt < ((s.b.coach k.coach).sReg y).toInt then BitVec.allOnes 64 else 0)) b) ∧
    ((s.b.coach k.coach).issues 0 k (.cmp k d x y 3) = true → ∃ b, exec (.cmp k d x y 3) s = .next { s with b := b } ∧ CoachBecomes s k.coach ((s.b.nextCoach k.coach).setP d
      (if ((s.b.coach k.coach).sReg x).toNat < ((s.b.coach k.coach).sReg y).toNat then BitVec.allOnes 64 else 0)) b) ∧
    ((s.b.coach k.coach).issues 0 k (.cmp k d x y 4) = true → ∃ b, exec (.cmp k d x y 4) s = .next { s with b := b } ∧ CoachBecomes s k.coach ((s.b.nextCoach k.coach).setP d
      (if ((s.b.coach k.coach).sReg y).toInt ≤ ((s.b.coach k.coach).sReg x).toInt then BitVec.allOnes 64 else 0)) b) ∧
    ((s.b.coach k.coach).issues 0 k (.cmp k d x y 5) = true → ∃ b, exec (.cmp k d x y 5) s = .next { s with b := b } ∧ CoachBecomes s k.coach ((s.b.nextCoach k.coach).setP d
      (if ((s.b.coach k.coach).sReg y).toNat ≤ ((s.b.coach k.coach).sReg x).toNat then BitVec.allOnes 64 else 0)) b) ∧
    ((s.b.coach k.coach).issues 0 k (.plog k d x y 0) = true → ∃ b, exec (.plog k d x y 0) s = .next { s with b := b } ∧ CoachBecomes s k.coach ((s.b.nextCoach k.coach).setP d
      ((s.b.coach k.coach).pReg x &&& (s.b.coach k.coach).pReg y)) b) ∧
    ((s.b.coach k.coach).issues 0 k (.plog k d x y 1) = true → ∃ b, exec (.plog k d x y 1) s = .next { s with b := b } ∧ CoachBecomes s k.coach ((s.b.nextCoach k.coach).setP d
      ((s.b.coach k.coach).pReg x ||| (s.b.coach k.coach).pReg y)) b) ∧
    ((s.b.coach k.coach).issues 0 k (.plog k d x y 2) = true → ∃ b, exec (.plog k d x y 2) s = .next { s with b := b } ∧ CoachBecomes s k.coach ((s.b.nextCoach k.coach).setP d
      ((s.b.coach k.coach).pReg x ^^^ (s.b.coach k.coach).pReg y)) b) ∧
    ((s.b.coach k.coach).issues 0 k (.plog k d x y 3) = true → ∃ b, exec (.plog k d x y 3) s = .next { s with b := b } ∧ CoachBecomes s k.coach ((s.b.nextCoach k.coach).setP d
      ((s.b.coach k.coach).pReg x &&& ~~~(s.b.coach k.coach).pReg y)) b)

/-- The address and control-register slots of C (R195, R208). -/
def Obligations.AddressAndControlRegisterSlots : Prop :=
  ∀ (s : State) (k : Slot) (d x y : Nat) (i10 : BitVec 10), BundleReady s.b k → (s.b.coach k.coach).pred k = true →
    ((s.b.coach k.coach).issues 0 k (.aadd k d x y) = true → ∃ b, exec (.aadd k d x y) s = .next { s with b := b } ∧ CoachBecomes s k.coach ((s.b.nextCoach k.coach).setA d
      ((s.b.coach k.coach).aReg x + ((s.b.coach k.coach).sReg y).signExtend 48)) b) ∧
    ((s.b.coach k.coach).issues 0 k (.aaddi k d x i10) = true → ∃ b, exec (.aaddi k d x i10) s = .next { s with b := b } ∧ CoachBecomes s k.coach ((s.b.nextCoach k.coach).setA d
      ((s.b.coach k.coach).aReg x + i10.signExtend 48 * 64)) b) ∧
    ((s.b.coach k.coach).issues 0 k (.aset k d x y) = true → ∃ b, exec (.aset k d x y) s = .next { s with b := b } ∧ CoachBecomes s k.coach ((s.b.nextCoach k.coach).setA d
      (((s.b.coach k.coach).sReg y).setWidth 16 ++ (s.b.coach k.coach).sReg x)) b) ∧
    ((s.b.coach k.coach).issues 0 k (.aget k d x 0) = true → ∃ b, exec (.aget k d x 0) s = .next { s with b := b } ∧ CoachBecomes s k.coach ((s.b.nextCoach k.coach).setS d
      (((s.b.coach k.coach).aReg x).setWidth 32)) b) ∧
    ((s.b.coach k.coach).issues 0 k (.aget k d x 1) = true → ∃ b, exec (.aget k d x 1) s = .next { s with b := b } ∧ CoachBecomes s k.coach ((s.b.nextCoach k.coach).setS d
      (BitVec.ofNat 32 (((s.b.coach k.coach).aReg x).toNat / 2 ^ 32))) b) ∧
    ((s.b.coach k.coach).issues 0 k (.csrr k d 0) = true → ∃ b, exec (.csrr k d 0) s = .next { s with b := b } ∧ CoachBecomes s k.coach ((s.b.nextCoach k.coach).setS d (BitVec.ofNat 32 k.coach)) b) ∧
    ((s.b.coach k.coach).issues 0 k (.csrr k d 1) = true → ∃ b, exec (.csrr k d 1) s = .next { s with b := b } ∧ CoachBecomes s k.coach ((s.b.nextCoach k.coach).setS d
      (BitVec.ofNat 32 (s.b.coach k.coach).tile)) b) ∧
    ((s.b.coach k.coach).issues 0 k (.csrr k d 2) = true → ∃ b, exec (.csrr k d 2) s = .next { s with b := b } ∧ CoachBecomes s k.coach ((s.b.nextCoach k.coach).setS d
      ((s.b.coach k.coach).cycles s.b.clk.delivered)) b) ∧
    ((s.b.coach k.coach).issues 0 k (.csrr k d 3) = true → ∃ b, exec (.csrr k d 3) s = .next { s with b := b } ∧ CoachBecomes s k.coach ((s.b.nextCoach k.coach).setS d
      (BitVec.ofNat 32 (((s.b.coach k.coach).stretch s.b.clk.delivered).toNat % 2 ^ 17))) b) ∧
    ((s.b.coach k.coach).issues 0 k (.csrr k d 4) = true → ∃ b, exec (.csrr k d 4) s = .next { s with b := b } ∧ CoachBecomes s k.coach ((s.b.nextCoach k.coach).setS d
      (BitVec.ofNat 32 (s.b.coach k.coach).tagBits)) b) ∧
    ((s.b.coach k.coach).issues 0 k (.csrr k d 5) = true → ∃ b, exec (.csrr k d 5) s = .next { s with b := b } ∧ CoachBecomes s k.coach ((s.b.nextCoach k.coach).setS d
      ((s.b.coach k.coach).fpflags.setWidth 32)) b) ∧
    ((s.b.coach k.coach).issues 0 k (.csrr k d 6) = true → ∃ b, exec (.csrr k d 6) s = .next { s with b := b } ∧ CoachBecomes s k.coach ((s.b.nextCoach k.coach).setS d
      (if (s.b.coach k.coach).round then 1 else 0)) b) ∧
    ((s.b.coach k.coach).issues 0 k (.csrw k x 5) = true → ∃ b, exec (.csrw k x 5) s = .next { s with b := b } ∧ CoachBecomes s k.coach { s.b.nextCoach k.coach with
      fpflags := (s.b.coach k.coach).fpflags &&& ~~~(((s.b.coach k.coach).sReg x).setWidth 3) } b) ∧
    ((s.b.coach k.coach).issues 0 k (.csrw k x 6) = true → ∃ b, exec (.csrw k x 6) s = .next { s with b := b } ∧ CoachBecomes s k.coach { s.b.nextCoach k.coach with
      round := ((s.b.coach k.coach).sReg x).getLsbD 0 } b) ∧
    (∀ n, n < 5 → ((s.b.coach k.coach).issues 0 k (.csrw k x n) = true → ∃ b, exec (.csrw k x n) s = .next { s with b := b } ∧ CoachBecomes s k.coach (s.b.nextCoach k.coach) b))

/-- The control flow of a coach (R192, R196, R199, R200, R203, R210, R211, R214, R215): branches, loops, waits, relay points and the end of a
task. -/
def Obligations.ControlFlowSlots : Prop :=
  (∀ (s : State) (k : Slot) (rel : BitVec 16), BundleReady s.b k → (s.b.coach k.coach).pred k = true →
    ((s.b.coach k.coach).issues 0 k (.br k rel) = true → ∃ b, exec (.br k rel) s = .next { s with b := b } ∧ CoachBecomes s k.coach (s.b.bundleEnd k.coach 3
      (((((s.b.coach k.coach).pc : Int) + rel.toInt) % 4096).toNat,
       branchLoops (openLoops (s.b.coach k.coach).pc (s.b.coach k.coach).loops)
        ((((s.b.coach k.coach).pc : Int) + rel.toInt) % 4096).toNat)).pastEmpty b)) ∧
  (∀ (s : State) (k : Slot) (x len : Nat), BundleReady s.b k → (s.b.coach k.coach).pred k = true →
    (s.b.coach k.coach).loops.length < 4 → (s.b.coach k.coach).sReg x ≠ 0 →
    ((s.b.coach k.coach).issues 0 k (.loop k x len) = true → ∃ b, exec (.loop k x len) s = .next { s with b := b } ∧ CoachBecomes s k.coach (s.b.bundleEnd k.coach 1 ((s.b.coach k.coach).pc + 1,
      ⟨(s.b.coach k.coach).pc + 1, (s.b.coach k.coach).pc + len, ((s.b.coach k.coach).sReg x).toNat⟩ ::
        openLoops (s.b.coach k.coach).pc (s.b.coach k.coach).loops)).pastEmpty b)) ∧
  (∀ (s : State) (k : Slot) (x len : Nat), BundleReady s.b k → (s.b.coach k.coach).pred k = true →
    (s.b.coach k.coach).loops.length < 4 → (s.b.coach k.coach).sReg x = 0 →
    ((s.b.coach k.coach).issues 0 k (.loop k x len) = true → ∃ b, exec (.loop k x len) s = .next { s with b := b } ∧ CoachBecomes s k.coach (s.b.bundleEnd k.coach 3 ((s.b.coach k.coach).pc + len + 1,
      openLoops (s.b.coach k.coach).pc (s.b.coach k.coach).loops)).pastEmpty b)) ∧
  (∀ (s : State) (k : Slot) (x len : Nat), BundleReady s.b k → (s.b.coach k.coach).pred k = true →
    4 ≤ (s.b.coach k.coach).loops.length → ((s.b.coach k.coach).issues 0 k (.loop k x len) = true → ∃ b, exec (.loop k x len) s = .next { s with b := b } ∧
      (b.coach k.coach).st = .ending ∧ (b.coach k.coach).endCode = Codes.operandRange ∧
      (b.coach k.coach).endAux = (s.b.coach k.coach).pc % 4096 ∧ (b.coach k.coach).s = (s.b.coach k.coach).s ∧
      OtherCoaches s k.coach b)) ∧
  (∀ (s : State) (k : Slot) (m : BitVec 16), BundleReady s.b k → (s.b.coach k.coach).pred k = true →
    ((s.b.coach k.coach).tags.all fun t => !(decide (t.1 < 16) && m.getLsbD t.1) || (!t.2.busy && !t.2.fault)) = true →
    ((s.b.coach k.coach).issues 0 k (.wait k m) = true → ∃ b, exec (.wait k m) s = .next { s with b := b } ∧ CoachBecomes s k.coach (s.b.nextCoach k.coach) b)) ∧
  (∀ (s : State) (k : Slot) (m : BitVec 16), BundleReady s.b k → (s.b.coach k.coach).pred k = true →
    ((s.b.coach k.coach).tags.any fun t => decide (t.1 < 16) && m.getLsbD t.1 && t.2.busy) = true →
    ((s.b.coach k.coach).issues 0 k (.wait k m) = true → ∃ b, exec (.wait k m) s = .next { s with b := b } ∧ (CoachBecomes s k.coach { s.b.coach k.coach with
      remoteFrom := if ((s.b.coach k.coach).tags.any fun t => decide (t.1 < 16) && m.getLsbD t.1 && t.2.collective) = true
        then some s.b.clk.delivered else none }) b)) ∧
  (∀ (s : State) (k : Slot) (final : Bool) (id : Nat), BundleReady s.b k → (s.b.coach k.coach).pred k = true →
    (s.b.coach k.coach).anyBusy = false → (s.b.coach k.coach).preempt = false →
    ((s.b.coach k.coach).issues 0 k (.relay k final id) = true → ∃ b, exec (.relay k final id) s = .next { s with b := b } ∧ CoachBecomes s k.coach { (s.b.bundleEnd k.coach 2
      (loopNext (s.b.coach k.coach).pc (s.b.coach k.coach).loops)).pastEmpty with
      stretchBase := s.b.clk.delivered, finalSeen := (s.b.coach k.coach).finalSeen || final } b)) ∧
  (∀ (s : State) (k : Slot) (id : Nat) (x : Kernel) (r : RelayEntry), BundleReady s.b k →
    (s.b.coach k.coach).pred k = true → (s.b.coach k.coach).anyBusy = false → (s.b.coach k.coach).preempt = true →
    (s.b.coach k.coach).discard = false → (s.b.coach k.coach).kernel = some x → x.relays[id]? = some r →
    ((s.b.coach k.coach).issues 0 k (.relay k false id) = true → ∃ b, exec (.relay k false id) s = .next { s with b := b } ∧
      (b.coach k.coach).st = .saving ∧
      (∃ m, (b.coach k.coach).image = some m ∧ m.relayId = id ∧ m.live = r.live ∧ m.ranges = r.ranges ∧
        bits (fieldAt m.bytes 0x14 4) 15 4 = (loopNext (s.b.coach k.coach).pc (s.b.coach k.coach).loops).1 % 4096) ∧
      OtherCoaches s k.coach b)) ∧
  (∀ (s : State) (k : Slot) (id : Nat), BundleReady s.b k → (s.b.coach k.coach).pred k = true →
    (s.b.coach k.coach).anyBusy = false → (s.b.coach k.coach).preempt = true → (s.b.coach k.coach).discard = true →
    ∀ final, ((s.b.coach k.coach).issues 0 k (.relay k final id) = true → ∃ b, exec (.relay k final id) s = .next { s with b := b } ∧ CoachBecomes s k.coach { s.b.bundleEnd k.coach 2
      (loopNext (s.b.coach k.coach).pc (s.b.coach k.coach).loops) with
      st := .ending, notice := some .discarded } b)) ∧
  (∀ (s : State) (k : Slot) (x : Nat), BundleReady s.b k → (s.b.coach k.coach).pred k = true →
    (s.b.coach k.coach).anyBusy = false → ((s.b.coach k.coach).firmware = true ∨ (s.b.coach k.coach).sReg x = 0 ∨
      (0x380 ≤ ((s.b.coach k.coach).sReg x).toNat ∧ ((s.b.coach k.coach).sReg x).toNat ≤ 0x3FF)) →
    ((s.b.coach k.coach).issues 0 k (.tend k x) = true → ∃ b, exec (.tend k x) s = .next { s with b := b } ∧ CoachBecomes s k.coach { s.b.bundleEnd k.coach 1
      (loopNext (s.b.coach k.coach).pc (s.b.coach k.coach).loops) with
      st := .ending, endCode := ((s.b.coach k.coach).sReg x).setWidth 16, endAux := 0
      notice := some (.done (((s.b.coach k.coach).sReg x).setWidth 16) 0) } b)) ∧
  (∀ (s : State) (k : Nat), (s.b.coach k).live = true → 65536 < (s.b.coach k).stretch s.b.clk.delivered →
    (∃ b, exec (.relayOverdue k) s = .next { s with b := b } ∧
      (b.coach k).st = .ending ∧ (b.coach k).endCode = Codes.relayOverdue ∧ (b.coach k).s = (s.b.coach k).s ∧
      OtherCoaches s k b))

/-- Loops go round (R196): at its last bundle a level with iterations left returns to its first bundle with one fewer; a level
on its last iteration ends, and the bundle after it is next unless an outer level ends there too. -/
def Obligations.LoopsGoRound : Prop :=
  ∀ (pc : Nat) (l : LoopLevel) (ls : List LoopLevel),
    (l.last ≠ pc → loopNext pc (l :: ls) = (pc + 1, l :: ls)) ∧
    (l.last = pc → 1 < l.remaining → loopNext pc (l :: ls) = (l.first, { l with remaining := l.remaining - 1 } :: ls)) ∧
    (l.last = pc → l.remaining ≤ 1 → loopNext pc (l :: ls) = loopNext pc ls) ∧
    loopNext pc [] = (pc + 1, []) ∧
    (∀ (ms : List LoopLevel) (t : Nat), (∀ m ∈ branchLoops ms t, m ∈ ms) ∧
      ((∀ m ∈ ms, m.first ≤ t ∧ t ≤ m.last) → branchLoops ms t = ms) ∧
      (∀ m ∈ branchLoops ms t, m.first ≤ t ∧ t ≤ m.last)) ∧
    (openLoops pc (l :: ls) = if l.last = pc ∧ l.remaining ≤ 1 then openLoops pc ls else l :: ls)

/-- A slot whose predicate is 0 changes nothing but the PC (R194), and a slot that another follows in its bundle writes no
register yet. Whatever slots stand beside it, a slot has the same results, from the values before the bundle (R190): it joins the bundle
with them, and the last slot issues it, which writes the results of every slot. -/
def Obligations.PredicatesAndBundles : Prop :=
  let forms : Slot → Nat → Nat → Nat → Nat → Nat → BitVec 10 → BitVec 16 → BitVec 12 → Bool → BitVec 8 → List (List Instr) :=
    fun k d x y fn id i10 i16 off f t8 => [
      [Instr.add k d x y, .sub k d x y, .and k d x y, .or k d x y, .xor k d x y, .shift k d x y fn, .mul k d x y,
      .addi k d x i10, .li k d i16, .lui k d i16, .cmp k d x y fn, .plog k d x y fn, .aadd k d x y, .aaddi k d x i10,
      .aset k d x y, .aget k d x fn, .br k i16, .loop k x id, .wait k i16, .relay k f id, .tend k x, .csrr k d fn,
      .csrw k x fn],
      [.vld k d x f off, .vst k d x f off, .sld k d x off, .sst k d x off, .accst k d x fn, .accld k d x fn,
      .vext k d x y, .vins k d x y f, .move k d x y fn f, .ucmd k d x y fn f, .send k d x, .recv k d x],
      [.vadd k d x y fn, .vsub k d x y fn, .vmul k d x y fn, .vfma k d x y, .vmax k d x y fn, .vmin k d x y fn,
      .vlogic k d x y fn, .vshift k d x y fn, .vpopc k d x y, .vcmp k d x y fn id, .vsel k d x y id, .vcvt k d x fn,
      .vfunc k d x fn, .vred k d x fn id f, .vperm k d x y, .vmov k d x],
      [.mldw k d x fn, .mpass k d x y fn id f f f f, .mzero k t8, .maccv k d x y, .mvacc k d x y]]
  (∀ (s : State) (k : Slot) (d x y fn id : Nat) (i10 : BitVec 10) (i16 : BitVec 16) (off : BitVec 12) (f : Bool)
    (t8 : BitVec 8) (no : Nat),
    (∀ c ∈ (forms k d x y fn id i10 i16 off f t8).getD no [],
      (no ≠ 2 → BundleReady s.b k → (s.b.coach k.coach).pred k = false →
        ((s.b.coach k.coach).issues no k c = true → ∃ b, exec c s = .next { s with b := b } ∧ CoachBecomes s k.coach (s.b.nextCoach k.coach) b)) ∧
      (k.more = true → (s.b.coach k.coach).live = true → (∃ b, exec c s = .next { s with b := b } ∧
        (b.coach k.coach).s = (s.b.coach k.coach).s ∧ (b.coach k.coach).a = (s.b.coach k.coach).a ∧
        (b.coach k.coach).v = (s.b.coach k.coach).v ∧ (b.coach k.coach).p = (s.b.coach k.coach).p ∧
        (b.coach k.coach).acc = (s.b.coach k.coach).acc ∧ (b.coach k.coach).pc = (s.b.coach k.coach).pc ∧
        OtherCoaches s k.coach b ∧ b.mem = s.b.mem))) ∧
    ((s.b.coach k.coach).live = true →
      ∀ p ∈ ((forms { k with more := true } d x y fn id i10 i16 off f t8).getD no []).zip
          ((forms { k with more := false } d x y fn id i10 i16 off f t8).getD no []),
        ∃ (ws : List SlotWr) (e : Option Code),
          ((s.b.coach k.coach).issues no { k with more := true } p.1 = true →
            exec p.1 s = .next { s with b := s.b.settled (s.b.joins k.coach no p.1 ws e) }) ∧
          ((s.b.coach k.coach).issues no { k with more := false } p.2 = true →
            exec p.2 s = .next { s with b := s.b.settled ((s.b.joins k.coach no p.2 ws e).issue k.coach) }))) ∧
  (∀ (b : Block) (k : Nat), (b.coach k).live = true → (∀ w ∈ (b.coach k).bundle, w.register = true) →
    (b.coach k).bundleExn = [] → (b.coach k).bundleRelay = false → (b.coach k).relayDue = false → (b.coach k).remoteFrom = none →
    (b.coach k).stretch b.clk.delivered ≤ 65536 →
    (b.issue k).coach k = { (b.coach k).bundle.foldl Coach.put (b.nextCoach k) with slots := [], bundle := [] } ∧
    (∀ j, j ≠ k → (b.issue k).coach j = b.coach j) ∧ (b.issue k).mem = b.mem)

/-- The lane operations of V (R194, R204, R245, R248, R250, R251), F32 maximum, minimum and comparison apart: each lane that the predicate
takes gets the operation's result of its lanes before the bundle, the others keep theirs, integer operations set no flag. -/
def Obligations.VectorLaneSlots : Prop :=
  ∀ (s : State) (k : Slot) (d a e : Nat), BundleReady s.b k →
    ((s.b.coach k.coach).issues 2 k (.vadd k d a e 0) = true → ∃ b, exec (.vadd k d a e 0) s = .next { s with b := b } ∧ (LaneResult s k d (fun l => addF32 (s.lane k a l) (s.lane k e l))
      (fun l => madeF32 [s.lane k a l, s.lane k e l] (addF32 (s.lane k a l) (s.lane k e l)))) b) ∧
    ((s.b.coach k.coach).issues 2 k (.vsub k d a e 0) = true → ∃ b, exec (.vsub k d a e 0) s = .next { s with b := b } ∧ (LaneResult s k d (fun l => subF32 (s.lane k a l) (s.lane k e l))
      (fun l => madeF32 [s.lane k a l, s.lane k e l] (subF32 (s.lane k a l) (s.lane k e l)))) b) ∧
    ((s.b.coach k.coach).issues 2 k (.vmul k d a e 0) = true → ∃ b, exec (.vmul k d a e 0) s = .next { s with b := b } ∧ (LaneResult s k d (fun l => mulF32 (s.lane k a l) (s.lane k e l))
      (fun l => madeF32 [s.lane k a l, s.lane k e l] (mulF32 (s.lane k a l) (s.lane k e l)))) b) ∧
    ((s.b.coach k.coach).issues 2 k (.vfma k d a e) = true → ∃ b, exec (.vfma k d a e) s = .next { s with b := b } ∧ (LaneResult s k d (fun l => fmaF32 (s.lane k d l) (s.lane k a l) (s.lane k e l))
      (fun l => madeF32 [s.lane k d l, s.lane k a l, s.lane k e l]
        (fmaF32 (s.lane k d l) (s.lane k a l) (s.lane k e l)))) b) ∧
    (∀ ty, 1 ≤ ty →
      ((s.b.coach k.coach).issues 2 k (.vadd k d a e ty) = true → ∃ b, exec (.vadd k d a e ty) s = .next { s with b := b } ∧ (LaneResult s k d (fun l => s.lane k a l + s.lane k e l) fun _ => 0) b) ∧
      ((s.b.coach k.coach).issues 2 k (.vsub k d a e ty) = true → ∃ b, exec (.vsub k d a e ty) s = .next { s with b := b } ∧ (LaneResult s k d (fun l => s.lane k a l - s.lane k e l) fun _ => 0) b) ∧
      ((s.b.coach k.coach).issues 2 k (.vmul k d a e ty) = true → ∃ b, exec (.vmul k d a e ty) s = .next { s with b := b } ∧ (LaneResult s k d
        (fun l => BitVec.ofNat 32 ((s.lane k a l).toNat * (s.lane k e l).toNat)) fun _ => 0) b)) ∧
    ((s.b.coach k.coach).issues 2 k (.vmax k d a e 1) = true → ∃ b, exec (.vmax k d a e 1) s = .next { s with b := b } ∧ (LaneResult s k d
      (fun l => if (s.lane k a l).toInt < (s.lane k e l).toInt then s.lane k e l else s.lane k a l) fun _ => 0) b) ∧
    ((s.b.coach k.coach).issues 2 k (.vmin k d a e 1) = true → ∃ b, exec (.vmin k d a e 1) s = .next { s with b := b } ∧ (LaneResult s k d
      (fun l => if (s.lane k e l).toInt < (s.lane k a l).toInt then s.lane k e l else s.lane k a l) fun _ => 0) b) ∧
    ((s.b.coach k.coach).issues 2 k (.vmax k d a e 2) = true → ∃ b, exec (.vmax k d a e 2) s = .next { s with b := b } ∧ (LaneResult s k d
      (fun l => if (s.lane k a l).toNat < (s.lane k e l).toNat then s.lane k e l else s.lane k a l) fun _ => 0) b) ∧
    ((s.b.coach k.coach).issues 2 k (.vmin k d a e 2) = true → ∃ b, exec (.vmin k d a e 2) s = .next { s with b := b } ∧ (LaneResult s k d
      (fun l => if (s.lane k e l).toNat < (s.lane k a l).toNat then s.lane k e l else s.lane k a l) fun _ => 0) b) ∧
    ((s.b.coach k.coach).issues 2 k (.vlogic k d a e 0) = true → ∃ b, exec (.vlogic k d a e 0) s = .next { s with b := b } ∧ (LaneResult s k d (fun l => s.lane k a l &&& s.lane k e l) fun _ => 0) b) ∧
    ((s.b.coach k.coach).issues 2 k (.vlogic k d a e 1) = true → ∃ b, exec (.vlogic k d a e 1) s = .next { s with b := b } ∧ (LaneResult s k d (fun l => s.lane k a l ||| s.lane k e l) fun _ => 0) b) ∧
    ((s.b.coach k.coach).issues 2 k (.vlogic k d a e 2) = true → ∃ b, exec (.vlogic k d a e 2) s = .next { s with b := b } ∧ (LaneResult s k d (fun l => s.lane k a l ^^^ s.lane k e l) fun _ => 0) b) ∧
    ((s.b.coach k.coach).issues 2 k (.vlogic k d a e 3) = true → ∃ b, exec (.vlogic k d a e 3) s = .next { s with b := b } ∧ (LaneResult s k d (fun l => s.lane k a l &&& ~~~s.lane k e l) fun _ => 0) b) ∧
    ((s.b.coach k.coach).issues 2 k (.vshift k d a e 0) = true → ∃ b, exec (.vshift k d a e 0) s = .next { s with b := b } ∧ (LaneResult s k d
      (fun l => s.lane k a l <<< ((s.lane k e l).toNat % 64)) fun _ => 0) b) ∧
    ((s.b.coach k.coach).issues 2 k (.vshift k d a e 1) = true → ∃ b, exec (.vshift k d a e 1) s = .next { s with b := b } ∧ (LaneResult s k d
      (fun l => s.lane k a l >>> ((s.lane k e l).toNat % 64)) fun _ => 0) b) ∧
    ((s.b.coach k.coach).issues 2 k (.vshift k d a e 2) = true → ∃ b, exec (.vshift k d a e 2) s = .next { s with b := b } ∧ (LaneResult s k d
      (fun l => (s.lane k a l).sshiftRight ((s.lane k e l).toNat % 64)) fun _ => 0) b) ∧
    ((s.b.coach k.coach).issues 2 k (.vpopc k d a e) = true → ∃ b, exec (.vpopc k d a e) s = .next { s with b := b } ∧ (LaneResult s k d
      (fun l => BitVec.ofNat 32 ((List.range 32).countP fun i => (s.lane k a l ^^^ s.lane k e l).getLsbD i)) fun _ => 0) b) ∧
    (∀ p, ((s.b.coach k.coach).issues 2 k (.vsel k d a e p) = true → ∃ b, exec (.vsel k d a e p) s = .next { s with b := b } ∧ (LaneResult s k d
      (fun l => if ((s.b.coach k.coach).pReg p).getLsbD l then s.lane k a l else s.lane k e l) fun _ => 0) b)) ∧
    (∀ fn, ((s.b.coach k.coach).issues 2 k (.vcvt k d a fn) = true → ∃ b, exec (.vcvt k d a fn) s = .next { s with b := b } ∧ (LaneResult s k d
      (fun l => BitVec.ofNat 32 (convertLane (s.b.coach k.coach).round fn (s.lane k a l)).val)
      fun l => (convertLane (s.b.coach k.coach).round fn (s.lane k a l)).flags) b)) ∧
    (∀ fn, ((s.b.coach k.coach).issues 2 k (.vfunc k d a fn) = true → ∃ b, exec (.vfunc k d a fn) s = .next { s with b := b } ∧ (LaneResult s k d (fun l => vfunc32 fn (s.lane k a l))
      fun l => madeF32 [s.lane k a l] (vfunc32 fn (s.lane k a l))) b)) ∧
    ((s.b.coach k.coach).issues 2 k (.vperm k d a e) = true → ∃ b, exec (.vperm k d a e) s = .next { s with b := b } ∧ (LaneResult s k d (fun l => s.lane k a ((s.lane k e l).toNat % 64)) fun _ => 0) b) ∧
    ((s.b.coach k.coach).issues 2 k (.vmov k d a) = true → ∃ b, exec (.vmov k d a) s = .next { s with b := b } ∧ (LaneResult s k d (fun l => s.lane k a l) fun _ => 0) b) ∧
    (∀ ty cond, ty = 1 ∨ ty = 2 → cond < 6 → ((s.b.coach k.coach).issues 2 k (.vcmp k d a e ty cond) = true → ∃ b, exec (.vcmp k d a e ty cond) s = .next { s with b := b } ∧ ∃ w : W64,
      CoachBecomes s k.coach ((s.b.nextCoach k.coach).setP d w) b ∧
      ∀ l, l < 64 → w.getLsbD l =
        (if ((s.b.coach k.coach).mask k).getLsbD l then
          (let x : Int := if ty = 1 then (s.lane k a l).toInt else (s.lane k a l).toNat
           let y : Int := if ty = 1 then (s.lane k e l).toInt else (s.lane k e l).toNat
           [decide (x = y), decide (x ≠ y), decide (x < y), decide (x ≤ y), decide (y < x), decide (y ≤ x)].getD cond false)
         else ((s.b.coach k.coach).pReg d).getLsbD l))) ∧
    (∀ add, ((s.b.coach k.coach).issues 2 k (.vred k d a 0 0 add) = true → ∃ b, exec (.vred k d a 0 0 add) s = .next { s with b := b } ∧ (RegisterResult s k d fun r _ =>
      r.length = 64 ∧ (∀ l, 1 ≤ l → l < 64 → r.getD l 0 = 0) ∧
      ∃ xs : List W32, xs.length = 64 ∧
        (∀ l, l < 64 → xs.getD l 0 = if ((s.b.coach k.coach).mask k).getLsbD l then s.lane k a l else 0) ∧
        r.getD 0 0 = if add then addF32 (treeSum xs) (s.lane k d 0) else treeSum xs) b)) ∧
    ((s.b.coach k.coach).issues 2 k (.vred k d a 0 1 false) = true → ∃ b, exec (.vred k d a 0 1 false) s = .next { s with b := b } ∧ (RegisterResult s k d fun r _ =>
      r.length = 64 ∧ (∀ l, 5 ≤ l → l < 64 → r.getD l 0 = 0) ∧
      ∃ n, n = (List.range 64).countP (fun l => ((s.b.coach k.coach).mask k).getLsbD l) ∧
        (n = 0 → ∀ l, l < 5 → r.getD l 0 = 0) ∧
        (0 < n → r.getD 4 0 = natF32 n ∧ r.getD 2 0 = divF32 (r.getD 0 0) (natF32 n) ∧
          r.getD 3 0 = maxF32 0 (subF32 (divF32 (r.getD 1 0) (natF32 n)) (mulF32 (r.getD 2 0) (r.getD 2 0))))) b)

/-- Maximum, minimum and comparison of F32 lanes with −0 below +0 and NaN (R249), and the reductions MAX and MIN in every TYPE, with
their values where no lane is taken (R259). -/
def Obligations.MaximumMinimumAndNan : Prop :=
  ∀ (s : State) (k : Slot) (d a e : Nat), BundleReady s.b k →
    (((s.b.coach k.coach).issues 2 k (.vmax k d a e 0) = true → ∃ b, exec (.vmax k d a e 0) s = .next { s with b := b } ∧ ∃ f fl, LaneResult s k d f fl b ∧ ∀ l, l < 64 →
      ((f32 (s.lane k a l)).isNan = true ∨ (f32 (s.lane k e l)).isNan = true → f l = 0x7FC00000) ∧
      ((f32 (s.lane k a l)).isNan = false → (f32 (s.lane k e l)).isNan = false →
        (f l = s.lane k a l ∨ f l = s.lane k e l) ∧ (f32 (f l)).lt (f32 (s.lane k a l)) = false ∧
        (f32 (f l)).lt (f32 (s.lane k e l)) = false ∧
        (s.lane k a l = 0 ∨ s.lane k e l = 0 → f l ≠ 0x80000000)))) ∧
    (((s.b.coach k.coach).issues 2 k (.vmin k d a e 0) = true → ∃ b, exec (.vmin k d a e 0) s = .next { s with b := b } ∧ ∃ f fl, LaneResult s k d f fl b ∧ ∀ l, l < 64 →
      ((f32 (s.lane k a l)).isNan = true ∨ (f32 (s.lane k e l)).isNan = true → f l = 0x7FC00000) ∧
      ((f32 (s.lane k a l)).isNan = false → (f32 (s.lane k e l)).isNan = false →
        (f l = s.lane k a l ∨ f l = s.lane k e l) ∧ (f32 (s.lane k a l)).lt (f32 (f l)) = false ∧
        (f32 (s.lane k e l)).lt (f32 (f l)) = false ∧
        (s.lane k a l = 0x80000000 ∨ s.lane k e l = 0x80000000 → f l ≠ 0)))) ∧
    (∀ cond, cond < 6 → ((s.b.coach k.coach).issues 2 k (.vcmp k d a e 0 cond) = true → ∃ b, exec (.vcmp k d a e 0 cond) s = .next { s with b := b } ∧ ∃ w : W64,
      CoachBecomes s k.coach ((s.b.nextCoach k.coach).setP d w) b ∧
      ∀ l, s.takes k l → (f32 (s.lane k a l)).isNan = true ∨ (f32 (s.lane k e l)).isNan = true →
        w.getLsbD l = decide (cond = 1))) ∧
    (∀ ty mode add, ty < 3 → mode = 2 ∨ mode = 3 → ((s.b.coach k.coach).issues 2 k (.vred k d a ty mode add) = true → ∃ b, exec (.vred k d a ty mode add) s = .next { s with b := b } ∧ (RegisterResult s k d fun r fl =>
        r.length = 64 ∧ (∀ l, 1 ≤ l → l < 64 → r.getD l 0 = 0) ∧ (ty ≠ 0 → fl = (s.b.coach k.coach).fpflags) ∧
        ((∀ l, ¬ s.takes k l) → add = false → r.getD 0 0 =
          ([[0xFF800000, 0x80000000, 0], [0x7F800000, 0x7FFFFFFF, 0xFFFFFFFF]].getD (mode - 2) []).getD ty 0) ∧
        (∀ C : W32 → Prop, (∀ x, C x ↔ (∃ l, s.takes k l ∧ x = s.lane k a l) ∨ (add = true ∧ x = s.lane k d 0)) →
          (∃ x, C x) →
          (ty ≠ 0 → C (r.getD 0 0) ∧ ∀ x, C x →
            let p : Int := if ty = 1 then (r.getD 0 0).toInt else (r.getD 0 0).toNat
            let q : Int := if ty = 1 then x.toInt else x.toNat
            if mode = 2 then q ≤ p else p ≤ q) ∧
          (ty = 0 → (∃ x, C x ∧ (f32 x).isNan = true) → r.getD 0 0 = 0x7FC00000) ∧
          (ty = 0 → (∀ x, C x → (f32 x).isNan = false) → C (r.getD 0 0) ∧ ∀ x, C x →
            (if mode = 2 then (f32 (r.getD 0 0)).lt (f32 x) else (f32 x).lt (f32 (r.getD 0 0))) = false ∧
            (mode = 2 → x = 0 → r.getD 0 0 ≠ 0x80000000) ∧ (mode = 3 → x = 0x80000000 → r.getD 0 0 ≠ 0)))) b))

/-- Loads, stores, accumulator moves and lane moves of L (R183, R190, R197, R198, R247): what each reads and writes, what stays, and the
exceptions on a misaligned, an outside and a poisoned operand. -/
def Obligations.LoadStoreSlots : Prop :=
  ∀ (s : State) (k : Slot) (an : Nat), BundleReady s.b k → (s.b.coach k.coach).pred k = true →
    (∀ v post off a, a = offsetAddr ((s.b.coach k.coach).aReg an) off 256 → sramCheck a 256 256 = none →
      (s.b.poisoned (sramAddr k.coach a) 256 = false → ((s.b.coach k.coach).issues 1 k (.vld k v an post off) = true → ∃ b, exec (.vld k v an post off) s = .next { s with b := b } ∧
        ∃ c' : Coach, CoachBecomes s k.coach c' b ∧
          c' = { s.b.nextCoach k.coach with v := c'.v, vTag := c'.vTag, a := c'.a } ∧
          (∀ l, l < 64 → ((c'.vReg v).getD l 0).toNat = fieldAt (s.b.readSram k.coach a 256) (4 * l) 4) ∧
          (∀ i, i ≠ v → c'.vReg i = (s.b.coach k.coach).vReg i) ∧
          (∀ i, c'.aReg i = (s.b.coach k.coach).aReg i + (if post = true ∧ i = an then 256 else 0)))) ∧
      (s.b.poisoned (sramAddr k.coach a) 256 = true → ((s.b.coach k.coach).issues 1 k (.vld k v an post off) = true → ∃ b, exec (.vld k v an post off) s = .next { s with b := b } ∧ EndsTask s k 1 Codes.memPoison b)) ∧
      ((s.b.coach k.coach).issues 1 k (.vst k v an post off) = true → ∃ b, exec (.vst k v an post off) s = .next { s with b := b } ∧
        (∀ l, l < 64 → fieldAt (b.readSram k.coach a 256) (4 * l) 4 = (s.lane k v l).toNat) ∧
        (∀ i, ¬(sramAddr k.coach a ≤ i ∧ i < sramAddr k.coach a + 256) → tabFind? i b.mem = tabFind? i s.b.mem) ∧
        (∀ i, (b.coach k.coach).aReg i = (s.b.coach k.coach).aReg i + (if post = true ∧ i = an then 256 else 0)) ∧
        (b.coach k.coach).v = (s.b.coach k.coach).v ∧ (b.coach k.coach).s = (s.b.coach k.coach).s ∧
        (b.coach k.coach).pc = (s.b.nextCoach k.coach).pc ∧ OtherCoaches s k.coach b)) ∧
    (∀ v post off a, a = offsetAddr ((s.b.coach k.coach).aReg an) off 256 → a % 256 ≠ 0 →
      ((s.b.coach k.coach).issues 1 k (.vld k v an post off) = true → ∃ b, exec (.vld k v an post off) s = .next { s with b := b } ∧ EndsTask s k 1 Codes.misaligned b) ∧
      ((s.b.coach k.coach).issues 1 k (.vst k v an post off) = true → ∃ b, exec (.vst k v an post off) s = .next { s with b := b } ∧ EndsTask s k 1 Codes.misaligned b)) ∧
    (∀ v post off a, a = offsetAddr ((s.b.coach k.coach).aReg an) off 256 → a % 256 = 0 → 0x300000 ≤ a →
      ((s.b.coach k.coach).issues 1 k (.vld k v an post off) = true → ∃ b, exec (.vld k v an post off) s = .next { s with b := b } ∧ EndsTask s k 1 Codes.sramRange b) ∧
      ((s.b.coach k.coach).issues 1 k (.vst k v an post off) = true → ∃ b, exec (.vst k v an post off) s = .next { s with b := b } ∧ EndsTask s k 1 Codes.sramRange b)) ∧
    (∀ r off a, a = offsetAddr ((s.b.coach k.coach).aReg an) off 4 → sramCheck a 4 4 = none →
      (s.b.poisoned (sramAddr k.coach a) 4 = false → ((s.b.coach k.coach).issues 1 k (.sld k r an off) = true → ∃ b, exec (.sld k r an off) s = .next { s with b := b } ∧ CoachBecomes s k.coach
        ((s.b.nextCoach k.coach).setS r (BitVec.ofNat 32 (fieldAt (s.b.readSram k.coach a 4) 0 4))) b)) ∧
      ((s.b.coach k.coach).issues 1 k (.sst k r an off) = true → ∃ b, exec (.sst k r an off) s = .next { s with b := b } ∧
        fieldAt (b.readSram k.coach a 4) 0 4 = ((s.b.coach k.coach).sReg r).toNat ∧
        (∀ i, ¬(a ≤ i ∧ i < a + 4) → tabFind? (i / 64) (s.b.coach k.coach).lineTag = some (s.b.coach k.coach).tenant →
          b.readSram k.coach i 1 = s.b.readSram k.coach i 1) ∧
        (∀ i, i / 64 ≠ sramAddr k.coach a / 64 → tabFind? i b.mem = tabFind? i s.b.mem) ∧
        (b.coach k.coach).a = (s.b.coach k.coach).a ∧ (b.coach k.coach).s = (s.b.coach k.coach).s ∧
        (b.coach k.coach).pc = (s.b.nextCoach k.coach).pc ∧ OtherCoaches s k.coach b)) ∧
    (∀ t conv a w, t < 8 → conv < 4 → a = ((s.b.coach k.coach).aReg an).toNat → w = [4, 2, 2, 1].getD conv 0 →
      sramCheck a (1024 * w) 256 = none → ((s.b.coach k.coach).issues 1 k (.accst k t an conv) = true → ∃ b, exec (.accst k t an conv) s = .next { s with b := b } ∧
        (∀ r j, r < 32 → j < 32 → fieldAt (b.readSram k.coach a (1024 * w)) (w * (32 * r + j)) w =
          (let x := ((s.b.coach k.coach).accRow t r).getD j 0
           if conv = 0 then x.toNat else (convertLane (s.b.coach k.coach).round (conv - 1) x).val)) ∧
        (∀ i, ¬(sramAddr k.coach a ≤ i ∧ i < sramAddr k.coach a + 1024 * w) → tabFind? i b.mem = tabFind? i s.b.mem) ∧
        ((s.b.coach k.coach).streams = [] → ∀ i, (b.coach k.coach).accRow t i = (s.b.coach k.coach).accRow t i) ∧
        (conv = 0 → (s.b.coach k.coach).streams = [] → (b.coach k.coach).fpflags = (s.b.coach k.coach).fpflags) ∧ OtherCoaches s k.coach b)) ∧
    (∀ t a, a = ((s.b.coach k.coach).aReg an).toNat → sramCheck a 4096 256 = none →
      s.b.poisoned (sramAddr k.coach a) 4096 = false → ((s.b.coach k.coach).issues 1 k (.accld k t an 0) = true → ∃ b, exec (.accld k t an 0) s = .next { s with b := b } ∧ (MatrixResult s k fun c =>
        (∀ r j, r < 32 → j < 32 →
          ((c.accRow t r).getD j 0).toNat = fieldAt (s.b.readSram k.coach a 4096) (4 * (32 * r + j)) 4) ∧
        (∀ u r, u ≠ t → r < 32 → c.accRow u r = (s.b.coach k.coach).accRow u r) ∧
        c.fpflags = (s.b.coach k.coach).fpflags ∧ c.wa = (s.b.coach k.coach).wa ∧ c.ws = (s.b.coach k.coach).ws ∧
        c.streams = (s.b.nextCoach k.coach).streams) b)) ∧
    (∀ r v l, ((s.b.coach k.coach).issues 1 k (.vext k r v l) = true → ∃ b, exec (.vext k r v l) s = .next { s with b := b } ∧ CoachBecomes s k.coach ((s.b.nextCoach k.coach).setS r (s.lane k v l)) b)) ∧
    (∀ v r l bc, l < 64 → ((s.b.coach k.coach).issues 1 k (.vins k v r l bc) = true → ∃ b, exec (.vins k v r l bc) s = .next { s with b := b } ∧ (RegisterResult s k v fun x fl =>
      fl = (s.b.coach k.coach).fpflags ∧ x.length = 64 ∧ ∀ i, i < 64 →
        x.getD i 0 = if bc = true ∨ i = l then (s.b.coach k.coach).sReg r else s.lane k v i) b))

/-- The tagged operations (R185, R198, R199, R201 to R203): what makes a tag busy, what a MOVE copies, which exceptions end the task, how
deferred commands wait, and the record of a descriptor that fails. -/
def Obligations.TaggedOperations : Prop :=
  (∀ (s : State) (k : Slot) (tag an ab sl : Nat) (out : Bool) (loc mem n : Nat), BundleReady s.b k →
    (s.b.coach k.coach).pred k = true → loc = ((s.b.coach k.coach).aReg an).toNat →
    mem = ((s.b.coach k.coach).aReg ab).toNat → n = ((s.b.coach k.coach).sReg sl).toNat →
    (((s.b.coach k.coach).tag tag).busy = true → ((s.b.coach k.coach).issues 1 k (.move k tag an ab sl out) = true → ∃ b, exec (.move k tag an ab sl out) s = .next { s with b := b } ∧ EndsTask s k 1 Codes.tagState b)) ∧
    (((s.b.coach k.coach).tag tag).busy = false →
      (loc % 64 ≠ 0 ∨ mem % 64 ≠ 0 ∨ n % 64 ≠ 0 → ((s.b.coach k.coach).issues 1 k (.move k tag an ab sl out) = true → ∃ b, exec (.move k tag an ab sl out) s = .next { s with b := b } ∧ EndsTask s k 1 Codes.misaligned b)) ∧
      (loc % 64 = 0 → mem % 64 = 0 → n % 64 = 0 →
        (n = 0 ∨ 0x300000 < n → ((s.b.coach k.coach).issues 1 k (.move k tag an ab sl out) = true → ∃ b, exec (.move k tag an ab sl out) s = .next { s with b := b } ∧ EndsTask s k 1 Codes.operandRange b)) ∧
        (64 ≤ n → n ≤ 0x300000 → 0x300000 < loc + n →
          ((s.b.coach k.coach).issues 1 k (.move k tag an ab sl out) = true → ∃ b, exec (.move k tag an ab sl out) s = .next { s with b := b } ∧ EndsTask s k 1 Codes.sramRange b)) ∧
        (64 ≤ n → loc + n ≤ 0x300000 →
          (out = true → inRanges (s.b.coach k.coach).ranges mem n = false →
            ((s.b.coach k.coach).issues 1 k (.move k tag an ab sl out) = true → ∃ b, exec (.move k tag an ab sl out) s = .next { s with b := b } ∧ EndsTask s k 1 Codes.outputRange b)) ∧
          ((out = true → inRanges (s.b.coach k.coach).ranges mem n = true) → ((s.b.coach k.coach).issues 1 k (.move k tag an ab sl out) = true → ∃ b, exec (.move k tag an ab sl out) s = .next { s with b := b } ∧
            ∃ t : TagSt, t.busy = true ∧ t.kind = .move ∧ t.localAddr = loc ∧ t.memAddr = mem ∧ t.bytes = n ∧ t.out = out ∧
              CoachBecomes s k.coach { s.b.nextCoach k.coach with tags := tabSet tag t (s.b.coach k.coach).tags } b)))))) ∧
  (∀ (s : State) (k tag : Nat) (t : TagSt), (s.b.coach k).task.isSome = true → tabFind? tag (s.b.coach k).tags = some t →
    t.busy = true → t.kind = .move →
    (s.b.xlate (s.b.coach k).tenant t.memAddr t.bytes = none → (∃ b, exec (.moveCompletion k tag) s = .next { s with b := b } ∧
      CoachBecomes s k { s.b.coach k with tags := tabSet tag { TagSt.new with fault := true } (s.b.coach k).tags } b)) ∧
    (∀ a, s.b.xlate (s.b.coach k).tenant t.memAddr t.bytes = some a → t.out = true →
      (∃ b, exec (.moveCompletion k tag) s = .next { s with b := b } ∧
        tabFind? tag (b.coach k).tags = none ∧ b.mem = s.b.mem ∧ OtherCoaches s k b ∧
        (∀ i, i < t.bytes → tabFind? (a + i) (b.coach k).overlay = (s.b.readSram k t.localAddr t.bytes)[i]?) ∧
        (∀ i, ¬(a ≤ i ∧ i < a + t.bytes) → tabFind? i (b.coach k).overlay = tabFind? i (s.b.coach k).overlay))) ∧
    (∀ a, s.b.xlate (s.b.coach k).tenant t.memAddr t.bytes = some a → t.out = false →
      (∃ b, exec (.moveCompletion k tag) s = .next { s with b := b } ∧
        tabFind? tag (b.coach k).tags = none ∧ b.readSram k t.localAddr t.bytes = s.b.taskBytes k a t.bytes ∧
        OtherCoaches s k b ∧ (b.coach k).overlay = (s.b.coach k).overlay ∧
        (∀ i, i / 64 < sramAddr k t.localAddr / 64 ∨ (sramAddr k t.localAddr + t.bytes + 63) / 64 ≤ i / 64 →
          tabFind? i b.mem = tabFind? i s.b.mem)))) ∧
  (∀ (s : State) (k : Slot) (tag an station quarter : Nat) (bs : List Byte), BundleReady s.b k →
    (s.b.coach k.coach).pred k = true → s.b.descriptor k.coach ((s.b.coach k.coach).aReg an).toNat = .ok bs →
    (((s.b.coach k.coach).tag tag).busy = true →
      ((s.b.coach k.coach).issues 1 k (.ucmd k tag an station quarter false) = true → ∃ b, exec (.ucmd k tag an station quarter false) s = .next { s with b := b } ∧ EndsTask s k 1 Codes.tagState b)) ∧
    (((s.b.coach k.coach).tag tag).busy = false → station = 0x2 ∨ station = 0x3 ∨ station = 0x4 →
      s.b.fenced (station + 3) quarter = false →
      ((s.b.coach k.coach).issues 1 k (.ucmd k tag an station quarter false) = true → ∃ b, exec (.ucmd k tag an station quarter false) s = .next { s with b := b } ∧
        (∃ c : UnitCmd, c.station = station ∧ c.quarter = quarter ∧ c.coach = some k.coach ∧ c.tag = tag ∧ c.bytes = bs ∧
          c.deferred = false ∧ c.desc = ((s.b.coach k.coach).aReg an).toNat ∧ c.seq = s.b.arrivals ∧
          (if station = 2 then (b.sluQ quarter).queue = enqueue (s.b.sluQ quarter).queue c
           else if station = 3 then (b.gtuQ quarter).queue = enqueue (s.b.gtuQ quarter).queue c
           else (b.rnuQ quarter).queue = enqueue (s.b.rnuQ quarter).queue c)) ∧
        ((b.coach k.coach).tag tag).busy = true ∧ (b.coach k.coach).pc = (s.b.nextCoach k.coach).pc ∧
        (b.coach k.coach).s = (s.b.coach k.coach).s ∧ OtherCoaches s k.coach b ∧ b.mem = s.b.mem)) ∧
    (tag ≠ 0 ∨ (s.b.coach k.coach).finalSeen = false ∨ 8 ≤ (s.b.coach k.coach).deferred.length →
      ((s.b.coach k.coach).issues 1 k (.ucmd k tag an station quarter true) = true → ∃ b, exec (.ucmd k tag an station quarter true) s = .next { s with b := b } ∧ EndsTask s k 1 Codes.deferPlace b)) ∧
    ((s.b.coach k.coach).finalSeen = true → (s.b.coach k.coach).deferred.length < 8 →
      ((s.b.coach k.coach).issues 1 k (.ucmd k 0 an station quarter true) = true → ∃ b, exec (.ucmd k 0 an station quarter true) s = .next { s with b := b } ∧ ∃ c : UnitCmd, c.station = station ∧ c.quarter = quarter ∧
        c.deferred = true ∧ c.bytes = bs ∧ c.coach = some k.coach ∧
        CoachBecomes s k.coach { s.b.nextCoach k.coach with deferred := (s.b.coach k.coach).deferred ++ [c] } b))) ∧
  (∀ (s : State) (k : Slot) (tag an a : Nat) (send : Bool) (d : List Byte), BundleReady s.b k →
    (s.b.coach k.coach).pred k = true → a = ((s.b.coach k.coach).aReg an).toNat → s.b.descriptor k.coach a = .ok d →
    (((s.b.coach k.coach).tag tag).busy = true →
      ((s.b.coach k.coach).issues 1 k (if send then .send k tag an else .recv k tag an) = true → ∃ b, exec (if send then .send k tag an else .recv k tag an) s = .next { s with b := b } ∧ EndsTask s k 1 Codes.tagState b)) ∧
    (((s.b.coach k.coach).tag tag).busy = false →
      (∀ e, s.b.descCheck d send = some e → ((s.b.coach k.coach).issues 1 k (if send then .send k tag an else .recv k tag an) = true → ∃ b, exec (if send then .send k tag an else .recv k tag an) s = .next { s with b := b } ∧
        tabFind? tag (b.coach k.coach).tags = none ∧ b.readSram k.coach (a + 64) 4 = le 4 e.toNat ∧
        b.cb.colls = s.b.cb.colls ∧ (b.coach k.coach).st = .running ∧ OtherCoaches s k.coach b)) ∧
      (s.b.descCheck d send = none → (s.b.cb.colls.any fun c => c.cid == descCid d) = false →
        (send = true → s.b.poisoned (sramAddr k.coach (descBuf d)) (descLen d) = false →
          ((s.b.coach k.coach).issues 1 k (.send k tag an) = true → ∃ b, exec (.send k tag an) s = .next { s with b := b } ∧ (∃ x ∈ b.cb.colls, x.cid = descCid d ∧ x.members = descMembers d ∧
            x.desc = d ∧ x.send = some (k.coach, tag) ∧ x.recv = none ∧
            x.contribOf (s.b.clk.straps.toNat % 8) = some (s.b.readSram k.coach (descBuf d) (descLen d))) ∧
            ((b.coach k.coach).tag tag).busy = true ∧ b.mem = s.b.mem ∧ OtherCoaches s k.coach b)) ∧
        (send = false → ((s.b.coach k.coach).issues 1 k (.recv k tag an) = true → ∃ b, exec (.recv k tag an) s = .next { s with b := b } ∧ (∃ x ∈ b.cb.colls, x.cid = descCid d ∧
            x.members = descMembers d ∧ x.desc = d ∧ x.send = none ∧ x.recv = some (k.coach, tag, descBuf d)) ∧
            ((b.coach k.coach).tag tag).busy = true ∧ b.mem = s.b.mem ∧ OtherCoaches s k.coach b)))))

/-- The matrix slots (R206, R207, R219 to R222, R227, R228, R252 to R256): a weight tile goes to the shadow buffer, a pass writes each of its
rows and no other, tiles are cleared and moved. -/
def Obligations.MatrixSlots : Prop :=
  ∀ (s : State) (k : Slot), BundleReady s.b k → (s.b.coach k.coach).pred k = true →
    (∀ ma an fmt, sramCheck ((s.b.coach k.coach).aReg an).toNat 2048 64 = none →
      s.b.poisoned (sramAddr k.coach ((s.b.coach k.coach).aReg an).toNat) 2048 = false →
      ((s.b.coach k.coach).issues 3 k (.mldw k ma an fmt) = true → ∃ b, exec (.mldw k ma an fmt) s = .next { s with b := b } ∧ (MatrixResult s k fun c =>
        c.wbuf true ma = (fmt, s.b.readSram k.coach ((s.b.coach k.coach).aReg an).toNat 2048) ∧
        (∀ m, c.wbuf false m = (s.b.coach k.coach).wbuf false m) ∧
        (∀ m, m ≠ ma → c.wbuf true m = (s.b.coach k.coach).wbuf true m) ∧ c.acc = (s.b.coach k.coach).acc ∧
        c.fpflags = (s.b.coach k.coach).fpflags ∧
        ∀ x ∈ c.streams, x ∈ (s.b.coach k.coach).streams ∨ (x.load = true ∧ x.ma = ma ∧ x.fmt = fmt ∧
          x.start = s.b.bundleCclk (s.b.coach k.coach) ∧
          (∀ i r, x.rows[i]? = some r → r.after = i ∧ r.addr = some (((s.b.coach k.coach).aReg an).toNat + 64 * i)))) b)) ∧
    (∀ ma an fmt, ((s.b.coach k.coach).aReg an).toNat % 64 ≠ 0 →
      ((s.b.coach k.coach).issues 3 k (.mldw k ma an fmt) = true → ∃ b, exec (.mldw k ma an fmt) s = .next { s with b := b } ∧ EndsTask s k 3 Codes.misaligned b)) ∧
    (∀ (ma an acc sn ch : Nat) (add quad swap agen : Bool), ((s.b.coach k.coach).sReg sn).toNat = 0 ∨
      256 < ((s.b.coach k.coach).sReg sn).toNat →
      ((s.b.coach k.coach).issues 3 k (.mpass k ma an acc sn ch add quad swap agen) = true → ∃ b, exec (.mpass k ma an acc sn ch add quad swap agen) s = .next { s with b := b } ∧ EndsTask s k 3 Codes.operandRange b)) ∧
    (∀ (ma an acc sn ch : Nat) (add swap agen : Bool) (rows : List SramRow) (fmt : Nat) (w : List Byte),
      1 ≤ ((s.b.coach k.coach).sReg sn).toNat → ((s.b.coach k.coach).sReg sn).toNat ≤ 256 →
      (s.b.coach k.coach).wbuf swap ma = (fmt, w) →
      s.b.passRows k.coach ((s.b.coach k.coach).aReg an).toNat ((s.b.coach k.coach).sReg sn).toNat fmt false agen = .ok rows →
      ((s.b.coach k.coach).issues 3 k (.mpass k ma an acc sn ch add false swap agen) = true → ∃ b, exec (.mpass k ma an acc sn ch add false swap agen) s = .next { s with b := b } ∧ (MatrixResult s k fun c =>
        rows.length = ((s.b.coach k.coach).sReg sn).toNat ∧
        (∀ i r, rows[i]? = some r → ∀ j, j < 32 →
          (c.accRow ((acc + i / 32) % 8) (i % 32)).getD j 0 =
            (let x := ((rowSums fmt ch w r.bytes r.scales).map (·.1)).getD j 0
             if add then addF32 (((s.b.coach k.coach).accRow ((acc + i / 32) % 8) (i % 32)).getD j 0) x else x)) ∧
        (∀ t r, t < 8 → r < 32 → (∀ i, i < rows.length → ¬((acc + i / 32) % 8 = t ∧ i % 32 = r)) →
          c.accRow t r = (s.b.coach k.coach).accRow t r) ∧
        (swap = true → c.wbuf false ma = (s.b.coach k.coach).wbuf true ma ∧
          c.wbuf true ma = (s.b.coach k.coach).wbuf false ma) ∧
        (swap = false → c.wa = (s.b.coach k.coach).wa ∧ c.ws = (s.b.coach k.coach).ws) ∧
        (∀ x ∈ c.streams, x ∈ (s.b.coach k.coach).streams ∨ (x.load = false ∧ x.rows = rows ∧ x.weights = w ∧
          x.start = s.b.bundleCclk (s.b.coach k.coach)))) b)) ∧
    (∀ (ma an acc sn ch : Nat) (add swap agen : Bool) (rows : List SramRow) (fmt : Nat) (w : List Byte),
      1 ≤ ((s.b.coach k.coach).sReg sn).toNat → ((s.b.coach k.coach).sReg sn).toNat ≤ 128 →
      (s.b.coach k.coach).wbuf swap ma = (fmt, w) →
      s.b.passRows k.coach ((s.b.coach k.coach).aReg an).toNat ((s.b.coach k.coach).sReg sn).toNat fmt true agen = .ok rows →
      ((s.b.coach k.coach).issues 3 k (.mpass k ma an acc sn ch add true swap agen) = true → ∃ b, exec (.mpass k ma an acc sn ch add true swap agen) s = .next { s with b := b } ∧ (MatrixResult s k fun c =>
        (∀ i r, rows[i]? = some r → ∀ p j, p < 4 → j < 16 →
          (c.accRow ((acc + 2 * (i / 32) + p / 2) % 8) (i % 32)).getD (16 * (p % 2) + j) 0 =
            (let x := ((quadSums fmt ch w r.bytes r.scales p).map (·.1)).getD j 0
             if add then addF32 (((s.b.coach k.coach).accRow ((acc + 2 * (i / 32) + p / 2) % 8) (i % 32)).getD
               (16 * (p % 2) + j) 0) x else x)) ∧
        (∀ t r, t < 8 → r < 32 →
          (∀ i p, i < rows.length → p < 4 → ¬((acc + 2 * (i / 32) + p / 2) % 8 = t ∧ i % 32 = r)) →
          c.accRow t r = (s.b.coach k.coach).accRow t r)) b)) ∧
    (∀ tiles : BitVec 8, ((s.b.coach k.coach).issues 3 k (.mzero k tiles) = true → ∃ b, exec (.mzero k tiles) s = .next { s with b := b } ∧ (MatrixResult s k fun c =>
      (∀ t r, t < 8 → r < 32 → c.accRow t r =
        if tiles.getLsbD t then List.replicate 32 0 else (s.b.coach k.coach).accRow t r) ∧
      c.wa = (s.b.coach k.coach).wa ∧ c.ws = (s.b.coach k.coach).ws ∧ c.fpflags = (s.b.coach k.coach).fpflags ∧
      c.streams = (s.b.nextCoach k.coach).streams) b)) ∧
    (∀ t j v, ((s.b.coach k.coach).issues 3 k (.maccv k t j v) = true → ∃ b, exec (.maccv k t j v) s = .next { s with b := b } ∧ (RegisterResult s k v fun x fl => fl = (s.b.coach k.coach).fpflags ∧
      x = (s.b.coach k.coach).accRow t (2 * j) ++ (s.b.coach k.coach).accRow t (2 * j + 1)) b)) ∧
    (∀ t j v, t < 8 → j < 16 → ((s.b.coach k.coach).issues 3 k (.mvacc k t j v) = true → ∃ b, exec (.mvacc k t j v) s = .next { s with b := b } ∧ (MatrixResult s k fun c =>
      c.accRow t (2 * j) = ((s.b.coach k.coach).vReg v).take 32 ∧
      c.accRow t (2 * j + 1) = ((s.b.coach k.coach).vReg v).drop 32 ∧
      (∀ u r, r < 32 → ¬(u = t ∧ r / 2 = j) → c.accRow u r = (s.b.coach k.coach).accRow u r) ∧
      c.wa = (s.b.coach k.coach).wa ∧ c.ws = (s.b.coach k.coach).ws ∧ c.fpflags = (s.b.coach k.coach).fpflags ∧
      c.streams = (s.b.nextCoach k.coach).streams) b)) ∧
    (∀ a n t (x : SramStream) (r : SramRow) (y : Nat), r ∈ x.rows → r.addr = some y → y < a + n → a < y + r.bytes.length →
      t < x.start + r.after → x.load = true → (s.b.coach k.coach).streams = [x] →
      (s.b.restream k.coach a n t).coach k.coach = { s.b.coach k.coach with
        streams := [{ x with rows := x.rows.map fun r => if x.sees r a n t then s.b.readRow k.coach r else r }]
        ws := tabSet x.ma ⟨some x.fmt, (x.rows.map fun r =>
          (if x.sees r a n t then s.b.readRow k.coach r else r).bytes).flatten⟩ (s.b.coach k.coach).ws
        wsTag := tabSet x.ma (s.b.coach k.coach).tenant (s.b.coach k.coach).wsTag })

/-- The selection units (R307 to R336): a whole selection takes the first k valid elements of the order by key and position and pads the
rest; a merge keeps the best of each identifier; a chained row goes through its phases; each command leaves its record. -/
def Obligations.SelectionUnits : Prop :=
  ∀ (s : State) (q k : Nat) (c : UnitCmd) (rest : List UnitCmd), (s.b.sluQ q).queue = c :: rest → OfTask s k c →
    (∀ e, c.sluOp = 1 → sluCheck c = some e → (∃ b, exec (.select q) s = .next { s with b := b } ∧
      CommandDone s k c (le 4 e.toNat) b ∧ (b.coach k).overlay = (s.b.coach k).overlay ∧ (b.sluQ q).queue = rest ∧
      (b.sluQ q).refuseCount = sat32 (s.b.sluQ q).refuseCount 1)) ∧
    (∀ (bs : List Byte) (a : Nat) (us : List (Option Nat)) (key : Nat → Nat), c.sluOp = 1 → sluCheck c = none →
      c.sluMode < 2 → c.sluSort = false → c.sluIdx = 0 → inRanges c.ranges c.sluOut (8 * c.sluK) = true →
      s.b.fetchTask c Codes.sluXlate c.sluSrc (4 * c.sluN) = .ok bs → s.b.xlate c.tenant c.sluOut (8 * c.sluK) = some a →
      us = orderedAll c.sluFmt (lanes bs) → key = (if c.sluMode = 0 then bucketKey c.sluBase c.sluShift else id) →
      (∃ b, exec (.select q) s = .next { s with b := b } ∧ ∃ (sel : List Nat) (res : SluRes),
        sel.length = min c.sluK (us.filter Option.isSome).length ∧ sel.Pairwise (· < ·) ∧
        (∀ p ∈ sel, ∃ u, us[p]? = some (some u) ∧ ∀ (p' u' : Nat), us[p']? = some (some u') → p' ∉ sel →
          key u' < key u ∨ (key u' = key u ∧ p < p')) ∧
        TaskWrote s k a ((sel.map fun p => sluEntry p ((lanes bs).getD p 0)).flatten ++
          (List.replicate (c.sluK - sel.length) (sluPad c.sluFmt)).flatten) b ∧
        res.count = sel.length ∧ res.valid = (us.filter Option.isSome).length ∧ res.short = decide (sel.length < c.sluK) ∧
        CommandDone s k c (res.bytes Codes.ok) b ∧ (b.sluQ q).queue = rest ∧
        (b.sluQ q).cmdCount = sat32 (s.b.sluQ q).cmdCount 1 ∧ (b.sluQ q).refuseCount = (s.b.sluQ q).refuseCount)) ∧
    (∀ (tab : List Byte) (es : List MergeEnt) (a : Nat), c.sluOp = 2 → sluCheck c = none → c.sluMode = 1 → c.sluSort = false →
      1 ≤ c.sluN → c.sluN ≤ 256 → s.b.fetchTask c Codes.sluXlate c.sluSrc (32 * c.sluN) = .ok tab →
      (∀ l ∈ mergeTable tab, l.rsvd = true ∧ l.addr % 16 = 0) → natSum ((mergeTable tab).map (·.count)) ≤ 262144 →
      ((mergeTable tab).map (·.list)).Pairwise (· < ·) → inRanges c.ranges c.sluOut (16 * c.sluK) = true →
      s.b.mergeLists c (mergeTable tab) = .ok es → s.b.xlate c.tenant c.sluOut (16 * c.sluK) = some a →
      (∃ b, exec (.merge q) s = .next { s with b := b } ∧
        TaskWrote s k a (((mergeExact c.sluK es).map (·.bytes)).flatten ++
          (List.replicate (c.sluK - (mergeExact c.sluK es).length) mergePad).flatten) b ∧
        (∃ res : SluRes, res.count = (mergeExact c.sluK es).length ∧ CommandDone s k c (res.bytes Codes.ok) b) ∧
        (b.sluQ q).queue = rest)) ∧
    (c.sluOp = 2 → sluCheck c = none → c.sluN = 0 ∨ 256 < c.sluN → (∃ b, exec (.merge q) s = .next { s with b := b } ∧
      CommandDone s k c (le 4 Codes.listTableBad.toNat) b ∧ (b.coach k).overlay = (s.b.coach k).overlay)) ∧
    (sluCheck c = none → c.sluState + 4352 ≤ c.desc + 64 ∨ c.desc + 128 ≤ c.sluState →
      (c.sluOp = 3 → (∃ b, exec (.openRow q) s = .next { s with b := b } ∧
        (b.sluRec c).phase = 1 ∧ (b.sluRec c).level = 1 ∧ (b.sluRec c).k = c.sluK ∧ (b.sluRec c).out = c.sluOut ∧
        (b.sluRec c).mode = c.sluMode ∧ (b.sluRec c).fmt = c.sluFmt ∧ (b.sluRec c).total = 0 ∧ (b.sluRec c).seen = 0 ∧
        (b.sluRec c).hist = List.replicate 1024 0 ∧ CommandDone s k c (le 4 Codes.ok.toNat) b)) ∧
      (s.b.sluRecBad c = false →
        (∀ bs, c.sluOp = 4 → (s.b.sluRec c).phase = 1 → (s.b.sluRec c).level = 1 → (s.b.sluRec c).mode = 0 →
          (s.b.sluRec c).total + c.sluN ≤ 16777216 → (s.b.sluRec c).seen + c.sluN < 2 ^ 32 →
          s.b.fetchTask c Codes.sluXlate c.sluSrc (4 * c.sluN) = .ok bs → (∃ b, exec (.hist q) s = .next { s with b := b } ∧
            (b.sluRec c).phase = 1 ∧ (b.sluRec c).total = (s.b.sluRec c).total + c.sluN ∧
            (b.sluRec c).seen = (s.b.sluRec c).seen + c.sluN ∧
            (∀ i, i < 1024 → (b.sluRec c).hist.getD i 0 = ((s.b.sluRec c).hist.getD i 0 +
              (orderedAll (s.b.sluRec c).fmt (lanes bs)).countP (fun u => match u with
                | some u => bucketKey ((s.b.sluRec c).at 0xC) ((s.b.sluRec c).at 8) u == i
                | none => false)) % 2 ^ 32) ∧
            (∃ res : SluRes, CommandDone s k c (res.bytes Codes.ok) b))) ∧
        (c.sluOp = 4 → (s.b.sluRec c).phase = 2 ∨ (s.b.sluRec c).phase = 3 →
          ((s.b.sluRec c).level = 1 → (s.b.sluRec c).total + c.sluN ≤ 16777216) → (∃ b, exec (.hist q) s = .next { s with b := b } ∧
          CommandDone s k c (le 4 Codes.stateBad.toNat) b ∧ (b.sluRec c).bytes = (s.b.sluRec c).bytes)) ∧
        (∀ t, c.sluOp = 5 → (s.b.sluRec c).phase = 1 → (s.b.sluRec c).mode = 0 → (s.b.sluRec c).seen = (s.b.sluRec c).total →
          t < 1024 → (s.b.sluRec c).at 0x30 ≤ natSum ((s.b.sluRec c).hist.drop t) →
          natSum ((s.b.sluRec c).hist.drop (t + 1)) < (s.b.sluRec c).at 0x30 → (∃ b, exec (.thresh q) s = .next { s with b := b } ∧
            (b.sluRec c).phase = 2 ∧ (b.sluRec c).at 0x2C = t ∧ (b.sluRec c).seen = 0 ∧
            (∃ res : SluRes, res.more = false ∧ CommandDone s k c (res.bytes Codes.ok) b))) ∧
        (∀ bs a sel n', c.sluOp = 6 → (s.b.sluRec c).phase = 2 → c.sluIdx = 0 → (s.b.sluRec c).mode = 1 →
          inRanges c.ranges ((s.b.sluRec c).out + 8 * (s.b.sluRec c).at 0x34)
            (8 * min ((s.b.sluRec c).k - (s.b.sluRec c).at 0x34) c.sluN) = true →
          s.b.fetchTask c Codes.sluXlate c.sluSrc (4 * c.sluN) = .ok bs →
          sluEmitPos id ((s.b.sluRec c).at 0x2C) ((s.b.sluRec c).at 0x30) ((s.b.sluRec c).at 0x38)
            (orderedAll (s.b.sluRec c).fmt (lanes bs)) = (sel, n') →
          sel ≠ [] → sel.length ≤ (s.b.sluRec c).k - (s.b.sluRec c).at 0x34 →
          s.b.xlate c.tenant ((s.b.sluRec c).out + 8 * (s.b.sluRec c).at 0x34) (8 * sel.length) = some a →
          (∃ b, exec (.emit q) s = .next { s with b := b } ∧
            TaskWrote s k a (sel.map fun p => sluEntry ((s.b.sluRec c).seen + p) ((lanes bs).getD p 0)).flatten b ∧
            (b.sluRec c).phase = 2 ∧ (b.sluRec c).at 0x34 = ((s.b.sluRec c).at 0x34 + sel.length) % 2 ^ 32 ∧
            (b.sluRec c).seen = ((s.b.sluRec c).seen + c.sluN) % 2 ^ 32 ∧
            (∃ res : SluRes, CommandDone s k c (res.bytes Codes.ok) b))) ∧
        (∀ a old, c.sluOp = 7 → (s.b.sluRec c).phase = 2 → (s.b.sluRec c).mode = 1 → (s.b.sluRec c).sort = false →
          (s.b.sluRec c).seen = (s.b.sluRec c).total → (s.b.sluRec c).at 0x34 ≤ (s.b.sluRec c).k →
          inRanges c.ranges (s.b.sluRec c).out (8 * (s.b.sluRec c).k) = true →
          s.b.fetchTask c Codes.sluXlate (s.b.sluRec c).out (8 * (s.b.sluRec c).at 0x34) = .ok old →
          s.b.xlate c.tenant (s.b.sluRec c).out (8 * (s.b.sluRec c).k) = some a → (∃ b, exec (.closeRow q) s = .next { s with b := b } ∧
            TaskWrote s k a (old ++ (List.replicate ((s.b.sluRec c).k - (s.b.sluRec c).at 0x34)
              (sluPad (s.b.sluRec c).fmt)).flatten) b ∧ (b.sluRec c).phase = 3 ∧
            (∃ res : SluRes, res.count = (s.b.sluRec c).at 0x34 ∧ CommandDone s k c (res.bytes Codes.ok) b)))))

/-- The reins units (R388 to R397): START empties the stack and takes the initial state, STEP takes the first entry that applies or rejects
the token and changes nothing, QUERY changes nothing, COMMIT forgets the undo entries, ROLLBACK takes them back. -/
def Obligations.ReinsUnits : Prop :=
  ∀ (s : State) (q k n : Nat) (c : UnitCmd) (rest : List UnitCmd) (o : Obj) (r : List Byte) (a : Nat),
    (s.b.rnuQ q).queue = c :: rest → OfTask s k c → rnuRsvd c = true → s.b.rnuObj c = some (n, o) →
    c.at 8 8 = ctxTva (s.b.ctx c.ctx).textRec → c.rnuOut = 0 → s.b.fetchTask c Codes.reinsOperand (c.at 8 8) 1280 = .ok r →
    s.b.xlate c.tenant (c.at 8 8) 1280 = some a →
    (∀ x, c.rnuOp = 1 → s.b.reinsStart c.tenant o r c.rnuArg = .ok x → (∃ b, exec (.reinsStart q) s = .next { s with b := b } ∧
      x.state = ⟨c.rnuArg, []⟩ ∧ TaskWrote s k a x.text b ∧
      (∃ hit slot, CommandDone s k c (rnuRecord Codes.ok ⟨c.rnuArg, []⟩ (x.mask.all not) x.endOk hit slot (x.mask.countP id)) b) ∧
      (b.rnuQ q).queue = rest)) ∧
    (∀ x, c.rnuOp = 2 → c.rnuArg < 2 ^ 24 → s.b.reinsStep o r c.rnuArg (bit (c.at 0 4) 16) = .ok x →
      (∃ b, exec (.reinsStep q) s = .next { s with b := b } ∧ TaskWrote s k a x.text b ∧
        (∃ hit slot, CommandDone s k c (rnuRecord Codes.ok x.state (x.mask.all not) x.endOk hit slot (x.mask.countP id)) b))) ∧
    (∀ g sg accept ts cls, c.rnuOp = 2 → c.rnuArg < 2 ^ 24 → s.b.grammar o = .ok g → sg = tGState r → c.rnuArg < g.vocab →
      (bit (c.at 0 4) 16 = true → tUndo r < 8) → s.b.gramState o g sg.state = .ok (accept, ts) →
      s.b.tokenClass o c.rnuArg = .ok cls → c.rnuArg ≠ g.endToken → (∀ t ∈ ts, t.applies sg cls = false) →
      (∃ b, exec (.reinsStep q) s = .next { s with b := b } ∧ CommandDone s k c (le 4 Codes.tokenRejected.toNat) b ∧
        (b.coach k).overlay = (s.b.coach k).overlay ∧ (b.rnuQ q).cache = (s.b.rnuQ q).cache)) ∧
    (∀ x, c.rnuOp = 3 → s.b.reinsQuery o r = .ok x → (∃ b, exec (.reinsQuery q) s = .next { s with b := b } ∧
      (b.coach k).overlay = (s.b.coach k).overlay ∧
      (∃ hit slot, CommandDone s k c
        (rnuRecord Codes.ok (tGState r) (x.mask.all not) x.endOk hit slot (x.mask.countP id)) b))) ∧
    (c.rnuOp = 4 → (∃ b, exec (.reinsCommit q) s = .next { s with b := b } ∧ ∃ r', TaskWrote s k a r' b ∧ tUndo r' = 0 ∧
      tGState r' = tGState r ∧ tDead r' = tDead r ∧ b.readSram k (c.desc + 64) 4 = le 4 Codes.ok.toNat)) ∧
    (c.rnuOp = 5 → 1 ≤ c.at 1 1 → c.at 1 1 ≤ 8 → c.at 1 1 ≤ tUndo r → (∃ b, exec (.reinsRollback q) s = .next { s with b := b } ∧
      TaskWrote s k a (undoTimes (c.at 1 1) r) b ∧ tUndo (undoTimes (c.at 1 1) r) = tUndo r - c.at 1 1 ∧
      b.readSram k (c.desc + 64) 4 = le 4 Codes.ok.toNat)) ∧
    (c.rnuOp = 5 → c.at 1 1 = 0 ∨ 8 < c.at 1 1 ∨ tUndo r < c.at 1 1 → (∃ b, exec (.reinsRollback q) s = .next { s with b := b } ∧
      CommandDone s k c (le 4 Codes.reinsOperand.toNat) b ∧ (b.coach k).overlay = (s.b.coach k).overlay))

/-- The gather units (R435 to R459): LOOKUP writes the row of each key, KEYS the keys; UPDATE adds its deltas to its rows, all or none; hot
rows move to a slot of their bucket and take effect with their ledger. -/
def Obligations.GatherUnits : Prop :=
  (∀ (s : State) (q k : Nat) (c : UnitCmd) (rest : List UnitCmd) (t : Table) (keys : List Nat) (a : Nat),
    (s.b.gtuQ q).queue = c :: rest → (s.b.gtuQ q).wait = none → OfTask s k c → s.b.gtuCheck q c = .ok t →
    s.b.gtuKeys c t = .ok keys → keys ≠ [] →
    (∀ d got b', c.gtuOp = 1 → t.spread = 0 → c.gtuPool = false →
      ((s.b.modGtu q fun g => { g with queue := rest }).touched [(c.gtuSrc, c.gtuN * (if c.gtuTok then 4 else 8))]).fetchRows
        q c t (t.needs keys) = .ok (b', got) →
      b'.fetchTask c Codes.gtuXlate (t.addr + 0x80) t.rb = .ok d →
      s.b.xlate c.tenant c.gtuOut (keys.length * t.rs64) = some a → 1 ≤ t.elems → (∃ b, exec (.lookup q) s = .next { s with b := b } ∧
        TaskWrote s k a (keys.map fun x => t.entry (t.compose1 got (rowCodes t.fmt d) x)).flatten b ∧
        (b.gtuQ q).queue = rest ∧ ∃ unique, CommandDone s k c
          (gtuRecord Codes.ok keys.length unique (keys.countP fun x => (t.rowOf x).isNone) 0) b)) ∧
    (c.gtuOp = 3 → s.b.xlate c.tenant c.gtuOut (8 * keys.length) = some a → (∃ b, exec (.keys q) s = .next { s with b := b } ∧
      TaskWrote s k a (keys.map (le 8)).flatten b ∧ (b.gtuQ q).queue = rest ∧
      CommandDone s k c (gtuRecord Codes.ok keys.length 0 0 0) b))) ∧
  (∀ (s : State) (q : Nat) (c : UnitCmd) (rest : List UnitCmd), (s.b.gtuQ q).queue = c :: rest →
    (s.b.gtuQ q).wait = none → c.deferred = true → c.forwarded = none → c.gtuOp = 2 →
    (∀ (t : Table) (x r a : Nat) (ds old : List Byte), s.b.gtuCheck q c = .ok t → s.b.gtuKeys c t = .ok [x] →
      t.rowOf x = some (r, 0) → r < rowB → t.spread = 0 → t.hotRows = 0 → (s.b.gtuQ q).lane = none →
      s.b.fetchTask c Codes.gtuXlate c.gtuDelta t.rs64 = .ok ds →
      s.b.fetchTask c Codes.gtuXlate (t.baseA + r * t.rs) t.rb = .ok old → old.length = t.rb →
      s.b.xlate c.tenant (t.baseA + r * t.rs) t.rb = some a → (∃ b, exec (.gtuUpdate q) s = .next { s with b := b } ∧
        (∀ i, i < t.rb → tabFind? (a + i) b.mem =
          (packRow t.fmt (zipWith32 addF32 (rowF32 t.fmt old) (rowF32 t.fmt (ds.take t.rb))))[i]?) ∧
        (∀ i, ¬(a ≤ i ∧ i < a + t.rb) → tabFind? i b.mem = tabFind? i s.b.mem) ∧
        (b.gtuQ q).queue = rest ∧ (b.gtuQ q).updFailCount = (s.b.gtuQ q).updFailCount ∧
        (b.gtuQ q).rowCount = sat32 (s.b.gtuQ q).rowCount 1 ∧ b.coaches = s.b.coaches)) ∧
    (∀ e, s.b.gtuCheck q c = .error e → (∃ b, exec (.gtuUpdate q) s = .next { s with b := b } ∧
      b.mem = s.b.mem ∧ (b.gtuQ q).updFailCount = sat32 (s.b.gtuQ q).updFailCount 1 ∧ (b.gtuQ q).failCode = e ∧
      (b.gtuQ q).failTenant = c.tenant ∧ b.coaches = s.b.coaches))) ∧
  (∀ (s : State) (q tenant addr obj r i : Nat) (t : Table) (copy : List Byte),
    (s.b.gtuQ q).candidate = some (tenant, addr, obj, r) → s.b.gtuTable (laneCmd tenant addr) = .ok t →
    (s.b.gtuQ q).lane = none → s.b.fenced 6 q = false → 0 < t.hotRows → r < 2 ^ 40 →
    ((t.bucketSlots r).filterMap fun j => (s.b.hotSlotAt tenant t j).map fun x => (j, x)).find? (fun x => x.2.2.1 == 0) =
      some (i, (s.b.hotSlotAt tenant t i).getD (0, 0, 0)) →
    s.b.readV tenant (s.b.addrOf t r) t.rb = some copy → (∃ b, exec (.hotRowMigration q) s = .next { s with b := b } ∧
      (b.gtuQ q).lane = some ⟨tenant, t.addr, obj, i, r, r, false, copy⟩ ∧ (b.gtuQ q).candidate = none ∧
      (b.gtuQ q).ledger = [] ∧ b.hotSlotAt tenant t i = some (r, 2, 0))) ∧
  (∀ (s : State) (q : Nat) (l : Lane) (t : Table) (x : Nat × Nat × Nat), (s.b.gtuQ q).lane = some l → l.draining = false → l.row < 2 ^ 40 →
    s.b.gtuTable (laneCmd l.tenant l.table) = .ok t → s.b.hotSlotAt l.tenant t l.slot = some x →
    (s.b.xlate l.tenant (t.hotRow l.slot) (replayLedger t.fmt (s.b.gtuQ q).ledger l.copy).length).isSome = true →
    (∃ b, exec (.migrationCommit q) s = .next { s with b := b } ∧
      (b.gtuQ q).lane = none ∧ (b.gtuQ q).ledger = [] ∧
      (b.gtuQ q).migrateCount = sat32 (s.b.gtuQ q).migrateCount 1 ∧
      b.hotSlotAt l.tenant t l.slot = some (l.row, 1, 0)))

/-- Object commands and the page engines (R476 to R487): CREATE places an object whose bytes are undefined, WRITE and READ move its bytes,
RELEASE frees it once nothing holds it; a page move commits after the hold time or is abandoned after a write. -/
def Obligations.ObjectAndPageCommands : Prop :=
  (∀ (s : State) (e : Code), s.b.mt.objBusy = true → s.b.ocCheck = some e →
    (s.b.ocOp = 1 ∨ s.b.ocOp = 0 ∨ 4 < s.b.ocOp → (exec .objCreate s = .next { s with b := (s.b.ocEnd e) })) ∧
    (s.b.ocOp = 2 → ∀ data decl, (exec (.objWrite data decl) s = .next { s with b := (s.b.ocEnd e) })) ∧
    (s.b.ocOp = 3 → (exec .objRead s = .next { s with b := (s.b.ocEnd e) })) ∧ (s.b.ocOp = 4 → (exec .objRelease s = .next { s with b := (s.b.ocEnd e) }))) ∧
  (∀ (s : State) (q base : Nat), s.b.mt.objBusy = true → s.b.ocOp = 1 → s.b.ocCheck = none →
    s.b.obj? s.b.ocTenant s.b.ocObj = none →
    (if s.b.ocHbm then (s.b.use s.b.ocTenant).hbm + s.b.ocSize ≤ (s.b.ten s.b.ocTenant).quota.hbm
     else (s.b.use s.b.ocTenant).ddr + s.b.ocSize ≤ (s.b.ten s.b.ocTenant).quota.ddr) →
    q = (if s.b.ocAnyq then s.b.roomiest s.b.ocHbm else s.b.ocQuarter) →
    s.b.placeObj s.b.ocHbm q s.b.ocSize = some base → (∃ b, exec .objCreate s = .next { s with b := b } ∧
      (∃ x : Obj, b.obj? s.b.ocTenant s.b.ocObj = some x ∧ x.kind = s.b.ocKind ∧ x.size = s.b.ocSize ∧ x.base = base ∧
        x.hbm = s.b.ocHbm ∧ x.quarter = q ∧ x.state = .live) ∧
      (∀ t o, t * 4096 + o ≠ s.b.ocTenant * 4096 + s.b.ocObj → b.obj? t o = s.b.obj? t o) ∧
      (∀ i, base ≤ i → i < base + s.b.ocSize → tabFind? i b.mem = none) ∧
      (∀ i, ¬(base ≤ i ∧ i < base + s.b.ocSize) → tabFind? i b.mem = tabFind? i s.b.mem) ∧
      b.mt.objBusy = false ∧ b.mt.objCode = Codes.ok ∧ b.ctxs = s.b.ctxs ∧ b.coaches = s.b.coaches)) ∧
  (∀ (s : State) (x : Obj) (data : List Byte) (decl : Option ModelDecl), s.b.mt.objBusy = true → s.b.ocCheck = none →
    s.b.obj? s.b.ocTenant s.b.ocObj = some x →
    (s.b.ocOp = 2 → s.b.objBound s.b.ocTenant s.b.ocObj = false → s.b.objHolds s.b.ocTenant s.b.ocObj = 0 →
      s.b.ocChannel.isSome = true → (∃ b, exec (.objWrite (.ok data) decl) s = .next { s with b := b } ∧
        b.dr.descCount = sat32 s.b.dr.descCount 1 ∧ b.dr.byteCount = sat32 s.b.dr.byteCount s.b.ocLen ∧
        (∀ i, i < s.b.ocLen → tabFind? (x.base + s.b.ocSize + i) b.mem = (fitBytes s.b.ocLen data)[i]?) ∧
        (∀ i, ¬(x.base + s.b.ocSize ≤ i ∧ i < x.base + s.b.ocSize + s.b.ocLen) → tabFind? i b.mem = tabFind? i s.b.mem) ∧
        b.mt.objBusy = false ∧ b.mt.objCode = Codes.ok ∧ b.ctxs = s.b.ctxs ∧ b.coaches = s.b.coaches)) ∧
    (s.b.ocOp = 2 → s.b.objBound s.b.ocTenant s.b.ocObj = true ∨ 0 < s.b.objHolds s.b.ocTenant s.b.ocObj →
      (exec (.objWrite (.ok data) decl) s = .next { s with b := (s.b.ocEnd Codes.objInUse) })) ∧
    (s.b.ocOp = 3 → s.b.poisoned (x.base + s.b.ocSize) s.b.ocLen = false → s.b.ocChannel.isSome = true → (exec .objRead s = .next { s with b := (({ s.b with dr := { s.b.dr with
        descCount := sat32 s.b.dr.descCount 1, byteCount := sat32 s.b.dr.byteCount s.b.ocLen } }.emit
          (.write s.b.ocHost (s.b.readMem (x.base + s.b.ocSize) s.b.ocLen) false)).ocEnd Codes.ok) })) ∧
    (s.b.ocOp = 3 → s.b.ocChannel = none → (exec .objRead s = .next { s with b := (s.b.ocEnd Codes.drFenced) })) ∧
    (s.b.ocOp = 4 → s.b.objBound s.b.ocTenant s.b.ocObj = false → (∃ b, exec .objRelease s = .next { s with b := b } ∧
      b.obj? s.b.ocTenant s.b.ocObj = some { x with state := .releasing } ∧ b.mem = s.b.mem ∧ b.mt.objBusy = false ∧
      b.mt.objCode = Codes.ok ∧ ∀ u, ∀ y ∈ (b.rnuQ u).cache, ¬(y.tenant = s.b.ocTenant ∧ y.obj = s.b.ocObj)))) ∧
  (∀ (s : State) (t o : Nat) (x : Obj), s.b.obj? t o = some x → x.state = .releasing → s.b.objHolds t o = 0 →
    (x.forced = true ∨ s.b.objBound t o = false) → (s.b.ten t).closing = none →
    (∃ b, exec (.objectReleaseComplete t o) s = .next { s with b := b } ∧
      b.obj? t o = none ∧ (∀ i, x.base ≤ i → i < x.base + x.size → tabFind? i b.mem = none) ∧
      (∀ i, ¬(x.base ≤ i ∧ i < x.base + x.size) → tabFind? i b.mem = tabFind? i s.b.mem) ∧
      (∀ t' o', t' * 4096 + o' ≠ t * 4096 + o → b.obj? t' o' = s.b.obj? t' o') ∧ b.tenants = s.b.tenants)) ∧
  (∀ (s : State) (q page p : Nat) (e : PageEnt), tabFind? q s.b.mt.candidate = some page → tabFind? q s.b.mt.moves = none →
    s.b.fenced 8 q = false → s.b.freePoolPage true q = some p → tabFind? page s.b.mt.map = some e →
    (∃ b, exec (.pageMove q page) s = .next { s with b := b } ∧
      tabFind? q b.mt.candidate = none ∧ tabFind? page b.mt.map = some { e with migrating := true, dirty := false } ∧
      tabFind? q b.mt.moves = some ⟨page, true, p, false, s.b.clk.cclk, none⟩ ∧
      (∀ g, g ≠ page → tabFind? g b.mt.map = tabFind? g s.b.mt.map) ∧ b.mem = s.b.mem)) ∧
  (∀ (s : State) (q : Nat) (m : PageMove) (e : PageEnt), tabFind? q s.b.mt.moves = some m →
    tabFind? m.page s.b.mt.map = some e → m.since + 1572864 ≤ s.b.clk.cclk →
    (e.dirty = true → (∃ b, exec (.pageMoveCommit q) s = .next { s with b := b } ∧
      tabFind? m.page b.mt.map = some { e with migrating := false } ∧ tabFind? q b.mt.moves = none ∧
      b.mt.abandonCount = sat32 s.b.mt.abandonCount 1 ∧ b.mt.migrateCount = s.b.mt.migrateCount ∧
      b.mt.held = s.b.mt.held ++ [⟨m.toHbm, q, m.newPage, s.b.clk.cclk⟩] ∧ b.mem = s.b.mem)) ∧
    (e.dirty = false → m.promoteNext = none → (∃ b, exec (.pageMoveCommit q) s = .next { s with b := b } ∧
      tabFind? m.page b.mt.map = some { e with migrating := false, hbm := m.toHbm, page := m.newPage } ∧
      tabFind? q b.mt.moves = none ∧ b.mt.migrateCount = sat32 s.b.mt.migrateCount 1 ∧
      b.mt.abandonCount = s.b.mt.abandonCount ∧
      b.mt.held = s.b.mt.held ++ [⟨e.hbm, q, e.page, s.b.clk.cclk⟩] ∧ b.mem = s.b.mem))) ∧
  (∀ (s : State) (page : Nat), (∀ n, (s.b.ctx n).step = none) → (∃ b, exec (.pageHoldExpiry page) s = .next { s with b := b } ∧
    b = { s.b with mt := { s.b.mt with held := b.mt.held } } ∧
    ∀ h, h ∈ b.mt.held ↔ h ∈ s.b.mt.held ∧ (h.page ≠ page ∨ s.b.clk.cclk < h.since + 1572864)))

/-- The strongbox (R495 to R512): a command that fails a check ends with its code and changes nothing else; slots written are in the write
buffer with their bytes, reads bring those bytes, discarded slots are held no more; turns read and program; a checkpoint empties the journal. -/
def Obligations.StrongboxCommands : Prop :=
  (∀ (s : State) (c : SlotCmd) (e : Code), s.b.slotCmd .cmdPath = some c → s.b.slotCheck c = some e →
    (c.op = 1 ∨ c.op = 0 ∨ 4 < c.op → (exec (.slotRead .cmdPath) s = .next { s with b := (s.b.slotEnd none 0 e) })) ∧
    (c.op = 2 → ∀ d, (exec (.slotWrite .cmdPath d) s = .next { s with b := (s.b.slotEnd none 0 e) })) ∧
    (c.op = 3 → (exec (.slotDiscard .cmdPath) s = .next { s with b := (s.b.slotEnd none 0 e) })) ∧
    (c.op = 4 → ∀ d, (exec (.toObj .cmdPath d) s = .next { s with b := (s.b.slotEnd none 0 e) }))) ∧
  (∀ (s : State) (c : SlotCmd), s.b.slotCmd .cmdPath = some c → s.b.slotCheck c = none →
    (c.op = 3 → (∃ b, exec (.slotDiscard .cmdPath) s = .next { s with b := b } ∧
      (∀ i, i < c.count → b.slot? c.tenant (c.slot + i) = none) ∧
      (∀ x ∈ s.b.sb.slots, ¬(slotKey c.tenant c.slot ≤ x.1 ∧ x.1 < slotKey c.tenant c.slot + c.count) → x ∈ b.sb.slots) ∧
      b.sb.busy = false ∧ b.sb.code = Codes.ok ∧ b.sb.doneCount = c.count ∧ b.mem = s.b.mem)) ∧
    (∀ bytes : List Byte, c.op = 2 → c.count = 1 → bytes.length = 4096 → tabGet [] 8 s.b.sb.writes = [] →
      s.b.inBuffer 8 < 1024 → s.b.canPlace = true → (∃ b, exec (.slotWrite .cmdPath (.ok bytes)) s = .next { s with b := b } ∧
        (∃ x, b.slot? c.tenant c.slot = some x ∧ x.data = bytes ∧ x.place = none ∧ x.part = 8 ∧ x.lost = false) ∧
        (∀ k, k ≠ slotKey c.tenant c.slot → tabFind? k b.sb.slots = tabFind? k s.b.sb.slots) ∧
        (∃ w, tabGet [] 8 b.sb.writes = [w] ∧ w.rest = [] ∧ w.done = 1 ∧ w.code = Codes.ok ∧ w.cmd = none) ∧
        b.sb.busy = true ∧ b.mem = s.b.mem ∧ b.ctxs = s.b.ctxs)) ∧
    (∀ x : SbSlot, c.op = 1 → c.count = 1 → s.b.slot? c.tenant c.slot = some x → x.lost = false →
      (∀ j ∈ s.b.sb.jobs, j.id ≠ s.b.sb.nextSeq) →
      (x.place = none → (∃ b, exec (.slotRead .cmdPath) s = .next { s with b := b } ∧
        b.host.out = s.b.host.out ++ [.write c.addr x.data false] ∧ b.sb.busy = false ∧ b.sb.code = Codes.ok ∧
        b.sb.doneCount = 1 ∧ b.sb.readCount = sat32 s.b.sb.readCount 1 ∧ b.sb.slots = s.b.sb.slots ∧ b.mem = s.b.mem)) ∧
      (∀ p, x.place = some p → (∃ b, exec (.slotRead .cmdPath) s = .next { s with b := b } ∧
        (∃ r : SbRead, tabGet [] p.die b.sb.reads = tabGet [] p.die s.b.sb.reads ++ [r] ∧ r.owner = 8 ∧
          r.job = s.b.sb.nextSeq ∧ r.data = x.data ∧ r.place = p ∧ r.tenant = c.tenant ∧ r.slot = c.slot) ∧
        b.sb.busy = true ∧ b.host = s.b.host ∧ b.sb.slots = s.b.sb.slots ∧ b.mem = s.b.mem))) ∧
    (∀ (x : SbSlot) (d : Option ModelDecl) (a : Nat), c.op = 4 → c.count = 1 → s.b.slot? c.tenant c.slot = some x →
      x.lost = false → x.place = none → x.data.length = 4096 → (∀ j ∈ s.b.sb.jobs, j.id ≠ s.b.sb.nextSeq) →
      s.b.xlate c.tenant c.addr 4096 = some a → (∃ b, exec (.toObj .cmdPath d) s = .next { s with b := b } ∧
        (∀ i, i < 4096 → tabFind? (a + i) b.mem = x.data[i]?) ∧
        (∀ i, ¬(a ≤ i ∧ i < a + 4096) → tabFind? i b.mem = tabFind? i s.b.mem) ∧ b.sb.busy = false ∧
        b.sb.code = Codes.ok ∧ b.sb.slots = s.b.sb.slots))) ∧
  (∀ (s : State) (part : Nat) (w : SbWrite) (ws : List SbWrite), tabGet [] part s.b.sb.writes = w :: ws → w.rest = [] →
    w.cmd = none → (∃ b, exec (.writeCompletion part) s = .next { s with b := b } ∧
      tabGet [] part b.sb.writes = ws ∧ b.sb.busy = false ∧ b.sb.code = w.code ∧ b.sb.doneCount = w.done ∧
      b.sb.slots = s.b.sb.slots ∧ b.mem = s.b.mem)) ∧
  (∀ (s : State) (d : Nat) (r : SbRead) (j : SbJob), tabGet 0 d s.b.sb.turns % 2 = 0 →
    tabGet [] d s.b.sb.reads = [r] → r.owner = s.b.turnOwner d → r.place.die = d → r.index = 0 → s.b.sb.jobs = [j] →
    r.fetch = none → s.b.ske.works = [] → j.id = r.job → j.cmd = none → j.op = 1 → j.count = 1 → j.next = 0 → j.buf = [] → s.b.dieFenced d = false →
    (∃ b, exec (.readTurn d [.good]) s = .next { s with b := b } ∧
      b.host.out = s.b.host.out ++ [.write j.addr r.data false] ∧ b.sb.jobs = [] ∧ tabGet [] d b.sb.reads = [] ∧
      b.sb.busy = false ∧ b.sb.code = j.code ∧ b.sb.doneCount = 1 ∧ b.sb.readCount = sat32 s.b.sb.readCount 1 ∧
      b.sb.slots = s.b.sb.slots ∧ tabGet 0 d b.sb.turns = (tabGet 0 d s.b.sb.turns + 1) % 18)) ∧
  (∀ (s : State) (d block page part : Nat), tabGet 0 d s.b.sb.turns % 2 = 1 → parityPage d block page = false →
    (s.b.takePage d block page).isSome = true → tabGet [] part s.b.sb.writes = [] →
    (∃ b, exec (.programTurn d (.program part block page true)) s = .next { s with b := b } ∧
      (∀ (i key : Nat) (x : SbSlot), (s.b.toProgram part)[i]? = some key → (s.b.toProgram part).Nodup →
        tabFind? key s.b.sb.slots = some x → tabFind? key b.sb.slots = some { x with place := some ⟨d, block, page, i⟩ }) ∧
      (∀ key, key ∉ s.b.toProgram part → tabFind? key b.sb.slots = tabFind? key s.b.sb.slots) ∧
      tabGet 0 (blockKey d block) b.sb.blocks = page + 1 ∧ b.sb.writeBytes = sat32 s.b.sb.writeBytes 16384 ∧
      tabGet 0 d b.sb.turns = (tabGet 0 d s.b.sb.turns + 1) % 18 ∧ b.mem = s.b.mem)) ∧
  (∀ (s : State) (d block : Nat), tabGet 0 d s.b.sb.turns % 2 = 1 →
    (tabFind? (blockKey d block) s.b.sb.blocks).isSome = true → blockKey d block ∉ s.b.sb.retired →
    s.b.slotsIn d block = [] → s.b.readHolds d block = false → (∃ b, exec (.programTurn d (.erase block true)) s = .next { s with b := b } ∧
      b.sb.journal = s.b.sb.journal - (if s.b.sb.ckpt then s.b.sb.ckptFrom else 0) ∧
      tabFind? (blockKey d block) b.sb.blocks = none ∧ b.sb.erased = s.b.sb.erased + 1 ∧
      tabGet 0 (blockKey d block) b.sb.erases = tabGet 0 (blockKey d block) s.b.sb.erases + 1 ∧ b.sb.slots = s.b.sb.slots)) ∧
  (∀ s : State, (exec .mapCheckpoint s = .next { s with b := ({ s.b with sb := { s.b.sb with ckpt := true, ckptFrom := s.b.sb.journal } }) })) ∧
  (∀ (s : State) (d : Nat) (w : ProgramWork), tabGet 0 d s.b.sb.turns % 2 = 1 → s.b.sb.ckpt = true →
    (∃ b, exec (.programTurn d w) s = .next { s with b := b } ∧
      b.sb.ckpt = false ∧ b.sb.ckptFrom = 0))

/-- The drays (R519 to R536): COPY moves its bytes, DEINT and INT put each sample of each channel in its place, PLANE_SPLIT and PLANE_JOIN
each bit of each element; the read-back completes the descriptor with its bytes and accesses. -/
def Obligations.DrayCommands : Prop :=
  (∀ (s : State) (ch k : Nat) (c : UnitCmd) (rest : List UnitCmd) (x : List Byte) (a : Nat) (data : HostRead),
    (s.b.chan ch).queue = c :: rest → (s.b.chan ch).moved = none → OfTask s k c → s.b.fenced 9 ch = false →
    s.b.otherTransfers ch c = [] → c.srcHost = false → c.dstHost = false → c.drOperands = true → s.b.draySource c data = .ok x →
    (c.drOp = 1 → c.srcFix = false → c.dstFix = false → s.b.copyOverlap c x = x →
      s.b.xlate c.tenant c.drDst c.drLen = some a → (∃ b, exec (.copy ch data) s = .next { s with b := b } ∧
        TaskWrote s k a x b ∧ (b.chan ch).moved = some (c.drLen, c.drCount) ∧ (b.chan ch).queue = c :: rest ∧
        b.dr.byteCount = sat32 s.b.dr.byteCount c.drLen ∧ b.mem = s.b.mem ∧ OtherCoaches s k b)) ∧
    (c.drOp = 2 → (∀ n, n < c.drNch →
        s.b.xlate c.tenant (c.drDst + n * c.drStride) (c.drF * c.drS) = some (a + n * c.drStride)) →
      (∃ b, exec (.deint ch data) s = .next { s with b := b } ∧
        (∀ n i j, n < c.drNch → i < c.drF → j < c.drS →
          tabFind? (a + n * c.drStride + i * c.drS + j) (b.coach k).overlay = x[(i * c.drNch + n) * c.drS + j]?) ∧
        (b.chan ch).moved = some (c.drLen, c.drCount) ∧ b.dr.byteCount = sat32 s.b.dr.byteCount c.drLen ∧
        b.mem = s.b.mem ∧ OtherCoaches s k b)) ∧
    (c.drOp = 3 → s.b.xlate c.tenant c.drDst c.drLen = some a → (∃ b, exec (.int ch data) s = .next { s with b := b } ∧
      (∀ n i j, n < c.drNch → i < c.drF → j < c.drS →
        tabFind? (a + (i * c.drNch + n) * c.drS + j) (b.coach k).overlay = x[(n * c.drF + i) * c.drS + j]?) ∧
      (b.chan ch).moved = some (c.drLen, c.drCount) ∧ b.dr.byteCount = sat32 s.b.dr.byteCount c.drLen ∧
      b.mem = s.b.mem ∧ OtherCoaches s k b)) ∧
    (c.drOp = 4 → (∀ p, p < c.drW →
        s.b.xlate c.tenant (c.drDst + p * c.drStride) (c.drLen / c.drW) = some (a + p * c.drStride)) →
      (∃ b, exec (.planeSplit ch data) s = .next { s with b := b } ∧
        (∀ p m, p < c.drW → m < c.drLen / c.drW → ∃ y, tabFind? (a + p * c.drStride + m) (b.coach k).overlay = some y ∧
          ∀ i, i < 8 → y.getLsbD i = (unle x).testBit ((8 * m + i) * c.drW + p)) ∧
        (b.chan ch).moved = some (c.drLen, c.drCount) ∧ b.dr.byteCount = sat32 s.b.dr.byteCount c.drLen ∧
        b.mem = s.b.mem ∧ OtherCoaches s k b)) ∧
    (c.drOp = 5 → s.b.xlate c.tenant c.drDst c.drLen = some a → (∃ b, exec (.planeJoin ch data) s = .next { s with b := b } ∧
      (∀ m, m < c.drLen → ∃ y, tabFind? (a + m) (b.coach k).overlay = some y ∧ ∀ i, i < 8 →
        y.getLsbD i = (unle x).testBit ((8 * m + i) % c.drW * (8 * c.drLen / c.drW) + (8 * m + i) / c.drW)) ∧
      (b.chan ch).moved = some (c.drLen, c.drCount) ∧ b.dr.byteCount = sat32 s.b.dr.byteCount c.drLen ∧
      b.mem = s.b.mem ∧ OtherCoaches s k b))) ∧
  (∀ (s : State) (ch k : Nat) (c : UnitCmd) (rest : List UnitCmd) (n d : Nat), (s.b.chan ch).queue = c :: rest →
    (s.b.chan ch).moved = some (n, d) → OfTask s k c → (∃ b, exec (.drayReadback ch false) s = .next { s with b := b } ∧
      CommandDone s k c (le 4 Codes.ok.toNat ++ le 4 n ++ le 4 d) b ∧ (b.chan ch).queue = rest ∧ (b.chan ch).moved = none ∧
      b.dr.descCount = sat32 s.b.dr.descCount 1 ∧ b.dr.failCount = s.b.dr.failCount)) ∧
  (∀ (s : State) (ch : Nat) (c : UnitCmd) (rest : List UnitCmd) (n d : Nat), (s.b.chan ch).queue = c :: rest →
    (s.b.chan ch).moved = some (n, d) → c.deferred = true → c.dstHost = true →
    (∃ b, exec (.drayReadback ch true) s = .next { s with b := b } ∧
      (b.chan ch).queue = rest ∧ b.dr.failCount = sat32 s.b.dr.failCount 1 ∧ b.dr.failChan = c.channel ∧
      b.dr.failTenant = c.tenant ∧ b.dr.failCode = Codes.dmaError ∧ b.host.dmaErr = sat32 s.b.host.dmaErr 1 ∧
      b.coaches = s.b.coaches ∧ b.mem = s.b.mem))

/-- What arrives on a team port (R549 to R556, R299, R450, R561, R566): a flit taken moves the expected SEQ on and is answered ACK, and then
has its own effect; a failed word is answered NAK; idle words, training words and results do what their rules say. -/
def Obligations.TeamPortWords : Prop :=
  (∀ (s : State) (port ty : Nat) (w : LinkWord), s.b.takesFlit port ty w →
    let r := s.b.received port w
    (r.port port).rxSeq = (w.seq + 1) % 256 ∧ (∃ sent, r.cb.out = s.b.cb.out ++ sent ++ [.ackDecision port 1 w.seq 1]) ∧
    r.mem = s.b.mem ∧ r.ctxs = s.b.ctxs ∧ r.coaches = s.b.coaches ∧ r.tenants = s.b.tenants ∧ r.cb.colls = s.b.cb.colls ∧
    (w.ack = 0 → (r.port port).credits = min 512 ((s.b.port port).credits + w.credit) ∧
      (r.port port).replay = (s.b.port port).replay)) ∧
  (∀ (s : State) (port : Nat) (w : LinkWord) (hops : Nat), s.b.portUp port = true → s.b.cb.lockstep = true →
    s.b.wordOk w = true → w.type = 0 → (∃ b, exec (.idleWord port w hops) s = .next { s with b := b } ∧
      (b.port port).refHops = min 3 hops ∧ (∃ sent, b.cb.out = s.b.cb.out ++ sent ++ [.ackDecision port 0 0 0]) ∧
      b.mem = s.b.mem ∧ b.ctxs = s.b.ctxs ∧ b.coaches = s.b.coaches)) ∧
  (∀ (s : State) (port : Nat) (w : LinkWord) (key : List Byte), s.b.takesFlit port 2 w →
    s.b.coll? w.id (descMembers key) = none → (∃ b, exec (.coll port w key) s = .next { s with b := b } ∧
      (∃ c, b.coll? w.id (descMembers key) = some c ∧ c.parts = [(partKey w.src w.offset, w.payload)] ∧
        c.keys = [descKey key] ∧ c.send = none ∧ c.recv = none) ∧
      b = { s.b.received port w with cb := { (s.b.received port w).cb with colls := b.cb.colls } })) ∧
  (∀ (s : State) (port : Nat) (w : LinkWord) (addr units : Nat), s.b.takesFlit port 3 w →
    (∀ a, s.b.remotePlace addr (64 * units) = some a → (exec (.memRd port w addr units) s = .next { s with b := ((s.b.received port w).cbEmit (.memRsp w.src w.id
        ((List.range (64 * units)).map fun i => (s.b.received port w).byteAt (a + i)) (s.b.poisoned a (64 * units)))) })) ∧
    (s.b.remotePlace addr (64 * units) = none → (exec (.memRd port w addr units) s = .next { s with b := (((s.b.received port w).cbEmit (.memRsp w.src w.id [] false)).log 0x08 1 Codes.xlateFault none none addr) }))) ∧
  (∀ (s : State) (port : Nat) (w : LinkWord) (addr a : Nat) (data : List Byte), s.b.takesFlit port 4 w →
    s.b.remotePlace addr data.length = some a → (∃ b, exec (.memWr port w addr data) s = .next { s with b := b } ∧
      (∀ i, i < data.length → tabFind? (a + i) b.mem = data[i]?) ∧
      (∀ i, ¬(a ≤ i ∧ i < a + data.length) → tabFind? i b.mem = tabFind? i s.b.mem) ∧
      b = { s.b.received port w with mem := b.mem, rel := b.rel })) ∧
  (∀ (s : State) (port : Nat) (w : LinkWord) (data : List Byte), s.b.takesFlit port 5 w → (∃ b, exec (.memRsp port w data) s = .next { s with b := b } ∧ tabFind? w.id b.cb.memRsps = some data ∧
      b = { s.b.received port w with cb := { (s.b.received port w).cb with memRsps := b.cb.memRsps } })) ∧
  (∀ (s : State) (port : Nat) (w : LinkWord) (m : WorkMsg), s.b.takesFlit port 6 w →
    (∀ shard, m.body = .drop shard →
      (∀ x ∈ s.b.ske.works, ¬(x.2.msg.module = m.module ∧ x.2.msg.ctx = m.ctx ∧ x.2.msg.body.shard = some shard)) →
      (∃ b, exec (.work port w m) s = .next { s with b := b } ∧
      (∀ x, x ∈ b.ske.remote ↔ x ∈ s.b.ske.remote ∧ ¬(x.1 = m.module ∧ x.2.1 = m.ctx ∧ x.2.2.1 = shard)) ∧
      b = { s.b.received port w with ske := { s.b.ske with remote := b.ske.remote } })) ∧
    (∀ obj rows, m.body = .lookup obj rows →
      (m.version ≠ s.b.sec.svn ∨ s.b.clk.stage ≠ .ready → (∃ b, exec (.work port w m) s = .next { s with b := b } ∧
        ∃ x, b = (s.b.received port w).cbEmit (.result w.src false x) ∧ x.code = Codes.teamLost ∧ x.ctx = m.ctx ∧
          x.rows = [])) ∧
      (∀ (tb : Table) (q : Nat), m.version = s.b.sec.svn → s.b.clk.stage = .ready → (s.b.ten m.tenant).state = .on →
        s.b.kindGone 6 4 = false → (s.b.received port w).stepTable m.tenant obj = .ok tb → q = s.b.servedBy tb →
        (∃ b, exec (.work port w m) s = .next { s with b := b } ∧ ∃ c : UnitCmd, c.forwarded = some ⟨false, w.src, m⟩ ∧ c.gtuOp = 1 ∧
          c.tenant = m.tenant ∧ c.coach = none ∧ c.at 8 8 = tb.addr % 2 ^ 64 ∧
          (b.gtuQ q).queue = enqueue (s.b.gtuQ q).queue c ∧
          b = { s.b.received port w with gtu := b.gtu, arrivals := b.arrivals })))) ∧
  (∀ (s : State) (q : Nat) (c : UnitCmd) (w : Forward) (obj : Nat) (rows : List Nat) (tb : Table) (b' : Block)
      (got : List (Nat × List W32)), (s.b.gtuQ q).next = some c → c.gtuOp = 1 → c.forwarded = some w →
    w.msg.body = .lookup obj rows → w.domain = false → s.b.stepTable c.tenant obj = .ok tb →
    (s.b.modGtu q fun g => { g with queue := g.queue.erase c, cmdCount := sat32 g.cmdCount 1 }).fetchRows q c tb rows =
      .ok (b', got) → (∃ b, exec (.lookup q) s = .next { s with b := b } ∧ ∃ x, b.cb.out = b'.cb.out ++ [.result w.dest false x] ∧
        x.code = Codes.ok ∧ x.ctx = w.msg.ctx ∧ x.setIdx = w.msg.setIdx ∧ x.ids = rows ∧ x.rows = got.map (·.2) ∧
        x.gather = true ∧ (b.gtuQ q).queue = (s.b.gtuQ q).queue.erase c)) ∧
  (∀ (s : State) (port : Nat) (w : LinkWord) (m : ResultMsg) (x : GtuWait) (ids : List Nat), s.b.takesFlit port 7 w →
    m.gather = true → m.setIdx < 4 → (s.b.gtuQ m.setIdx).wait = some x → x.owed.lookup w.src = some ids →
    m.code = Codes.ok → (∃ o ∈ x.owed, o.1 ≠ w.src) → (∃ b, exec (.result port w m) s = .next { s with b := b } ∧
      (b.gtuQ m.setIdx).wait = some { x with owed := x.owed.filter (fun o => o.1 != w.src), got := x.got ++ ids.zip m.rows } ∧
      b = { s.b.received port w with gtu := b.gtu }))

/-- Errors, replay and training of a team port (R551 to R556): a failed word, a NAK, the replay timer, DOWN, retraining, and the TRAIN word
that brings a port UP, finds it MISWIRED, or carries the lead's lockstep. -/
def Obligations.TeamPortStates : Prop :=
  (∀ (s : State) (port : Nat) (w : LinkWord), s.b.portUp port = true → s.b.cb.lockstep = true → s.b.wordOk w = false →
    let bad := w.cycle != (s.b.cb.linkCycle + 65536 * 64 - s.b.cb.l) % 65536
    ((bad = false ∨ (s.b.port port).cycleFail < 7) → (∃ b, exec (.failedWord port w) s = .next { s with b := b } ∧
      b.port port = { s.b.port port with cycleFail := if bad then (s.b.port port).cycleFail + 1 else 0 } ∧
      (∀ q, q ≠ port → b.port q = s.b.port q) ∧ b.cb.out = s.b.cb.out ++ [.ackDecision port 2 (s.b.port port).rxSeq 0] ∧
      b.cb.flitErr = sat32 s.b.cb.flitErr 1 ∧ b.mem = s.b.mem ∧ b.ctxs = s.b.ctxs ∧ b.coaches = s.b.coaches)) ∧
    (bad = true → 7 ≤ (s.b.port port).cycleFail → (∃ b, exec (.failedWord port w) s = .next { s with b := b } ∧
      (b.port port).state = .down ∧ b.cb.flitErr = sat32 s.b.cb.flitErr 1 ∧ b.mem = s.b.mem ∧ b.ctxs = s.b.ctxs))) ∧
  (∀ (s : State) (port seq i : Nat), s.b.portUp port = true →
    (s.b.cb.retryLimit ≤ (if (s.b.port port).nakSeq = seq then (s.b.port port).nakRun + 1 else 1) →
      (∃ b, exec (.nak port seq) s = .next { s with b := b } ∧ (b.port port).state = .down ∧ (b.port port).replay = [] ∧ b.mem = s.b.mem)) ∧
    ((if (s.b.port port).nakSeq = seq then (s.b.port port).nakRun + 1 else 1) < s.b.cb.retryLimit →
      ((s.b.port port).replay.findIdx? fun f => f.word.seq == seq) = some i → (∃ b, exec (.nak port seq) s = .next { s with b := b } ∧
      b.cb.out = s.b.cb.out ++ ((s.b.port port).replay.drop i).map (fun f =>
        CbOut.word port { f.word with cycle := s.b.cb.linkCycle % 65536 }.sealed) ∧
      b.cb.replayCount = sat32 s.b.cb.replayCount 1 ∧ (b.port port).state = .up ∧
      (b.port port).replay.map (fun f => f.word.seq) = (s.b.port port).replay.map (fun f => f.word.seq) ∧ b.mem = s.b.mem))) ∧
  (∀ (s : State) (port : Nat) (f : SentFlit) (fs : List SentFlit), s.b.portUp port = true → (s.b.port port).replay = f :: fs →
    (f.cycle + 2 * s.b.cb.l + 1 ≤ s.b.cb.linkCycle → (∃ b, exec (.replayTimeout port) s = .next { s with b := b } ∧
      b.cb.out = s.b.cb.out ++ (f :: fs).map (fun f =>
        CbOut.word port { f.word with cycle := s.b.cb.linkCycle % 65536 }.sealed) ∧
      b.cb.replayCount = sat32 s.b.cb.replayCount 1 ∧ (∀ q, q ≠ port → b.port q = s.b.port q) ∧ b.mem = s.b.mem)) ∧
    (s.b.cb.linkCycle < f.cycle + 2 * s.b.cb.l + 1 → (exec (.replayTimeout port) s = .next { s with b := s.b }))) ∧
  (∀ (s : State) (port : Nat), s.b.cb.lockstep = true → s.b.portUp port = true →
    ((s.b.port port).lastValid + 64 ≤ s.b.cb.linkCycle → (∃ b, exec (.portDown port) s = .next { s with b := b } ∧
      (b.port port).state = .down ∧ (b.port port).downSince = s.b.cb.linkCycle ∧ (b.port port).replay = [] ∧
      (b.port port).sendQ = [] ∧ b.mem = s.b.mem ∧ b.ctxs = s.b.ctxs ∧ b.coaches = s.b.coaches)) ∧
    (s.b.cb.linkCycle < (s.b.port port).lastValid + 64 → (exec (.portDown port) s = .next { s with b := s.b }))) ∧
  (∀ (s : State) (port latency : Nat), (s.b.port port).state = .down →
    (s.b.port port).downSince + 65536 ≤ s.b.cb.linkCycle →
    ((∃ b, exec (.portRetrain port false latency) s = .next { s with b := b } ∧
      b.port port = { s.b.port port with downSince := s.b.cb.linkCycle } ∧ (∀ q, q ≠ port → b.port q = s.b.port q) ∧
      b.mem = s.b.mem ∧ b.cb.out = s.b.cb.out)) ∧
    (s.b.cb.l < latency → (∃ b, exec (.portRetrain port true latency) s = .next { s with b := b } ∧
      b.port port = { s.b.port port with state := .misfit, latency := latency, relaying := false } ∧
      (∀ q, q ≠ port → b.port q = s.b.port q) ∧ b.mem = s.b.mem ∧ b.cb.out = s.b.cb.out)) ∧
    (latency ≤ s.b.cb.l → (s.b.port port).sendQ = [] → (∃ b, exec (.portRetrain port true latency) s = .next { s with b := b } ∧
      (b.port port).state = .up ∧ (b.port port).txSeq = 0 ∧ (b.port port).rxSeq = 0 ∧ (b.port port).credits = 512 ∧
      (b.port port).latency = latency ∧ (∀ q, q ≠ port → b.port q = s.b.port q) ∧ b.mem = s.b.mem ∧
      b.cb.out = s.b.cb.out))) ∧
  (∀ (s : State) (port : Nat) (t : TrainInfo), s.b.clk.mainOn = true → s.b.solo = false →
    (s.b.port port).state = .training →
    ((t.pos, t.port) ≠ partnerOf s.b.position port → (∃ b, exec (.trainWord port t) s = .next { s with b := b } ∧
      b.port port = { s.b.port port with state := .miswired, partner := some t.pos } ∧
      (∀ q, q ≠ port → b.port q = s.b.port q) ∧ b.cb.teamMods = s.b.cb.teamMods ∧ b.mem = s.b.mem)) ∧
    ((t.pos, t.port) = partnerOf s.b.position port → (∀ m ∈ s.b.cb.teamMods, m.1 ≠ t.pos → m.2 ≠ t.module) →
      t.latency ≤ 64 → s.b.cb.lockstep = false →
      (t.lockstep = none → (∃ b, exec (.trainWord port t) s = .next { s with b := b } ∧
        (b.port port).state = .up ∧ (b.port port).credits = 512 ∧ (b.port port).rxSeq = 0 ∧ (b.port port).txSeq = 0 ∧
        (b.port port).partner = some t.pos ∧ (b.port port).latency = t.latency ∧ (b.port port).refHops = min 3 t.refHops ∧
        tabFind? t.pos b.cb.teamMods = some t.module ∧ b.cb.lockstep = false ∧ (∀ q, q ≠ port → b.port q = s.b.port q) ∧
        b.mem = s.b.mem)) ∧
      (∀ l e, t.lockstep = some (l, e) → t.pos = 0 → s.b.isLead = false → e < 256 → bit e 0 = true →
        bit e s.b.position = true → (∃ b, exec (.trainWord port t) s = .next { s with b := b } ∧
          b.cb.lockstep = true ∧ b.cb.l = l ∧ b.cb.linkCycle = l ∧ b.cb.expected = BitVec.ofNat 8 e ∧
          b.cb.present = s.b.cb.present ||| 1 ∧ (b.port port).state = .up ∧ b.mem = s.b.mem))))

/-- Team commits (R559): PREPARE is answered, the decision goes to every member, APPLY and ABORT act on the decision held, and a decision whose
cycle has come is applied; READY and the loss of a member (R568 to R571). -/
def Obligations.TeamCommitsAndLoss : Prop :=
  (∀ (s : State) (d : CommitMsg), s.b.inTeam = true → s.b.others.contains d.coordinator = true →
    (∀ code o, d.body = .order code o → s.b.position = 0 → (∃ b, exec (.prepare d) s = .next { s with b := b } ∧
      let e : CommitMsg := ⟨s.b.cb.nextCommit, 0, s.b.cb.linkCycle + 3 * s.b.cb.l + 16, d.body⟩
      b = { s.b with cb := { s.b.cb with
        nextCommit := s.b.cb.nextCommit + 1, commits := s.b.cb.commits ++ [⟨e, false, false, false⟩]
        out := s.b.cb.out ++ s.b.others.map fun p => CbOut.prepare p e } })) ∧
    ((∀ code o, d.body = .order code o → s.b.position ≠ 0) →
      (s.b.commitCheck d = Codes.ok → (exec (.prepare d) s = .next { s with b := ({ s.b with cb := { s.b.cb with
        commits := s.b.cb.commits ++ [⟨d, false, false, false⟩]
        out := s.b.cb.out ++ [.answer d.coordinator d.id Codes.ok] } }) })) ∧
      (s.b.commitCheck d ≠ Codes.ok → (exec (.prepare d) s = .next { s with b := ({ s.b with cb := { s.b.cb with
        out := s.b.cb.out ++ [.answer d.coordinator d.id (s.b.commitCheck d)] } }) })))) ∧
  (∀ (s : State) (c : Commit) (answers : List (Nat × Code)), c ∈ s.b.cb.commits → c.msg.coordinator = s.b.position →
    c.applied = false → 0 < c.msg.applyCycle → s.b.commitCheck c.msg = Codes.ok →
    (∀ x ∈ s.b.cb.commits, x.msg.coordinator = s.b.position → x.msg.id = c.msg.id → x = c) →
    ((∀ p ∈ s.b.others, answers.lookup p = some Codes.ok) → (exec (.commitDecision c.msg.id answers) s = .next { s with b := ({ s.b with cb := { s.b.cb with
        commits := s.b.cb.commits.map fun x => if x = c then { x with applied := true } else x
        out := s.b.cb.out ++ s.b.others.map fun p => CbOut.decision p c.msg.id true Codes.ok } }) })) ∧
    (∀ p k o, p ∈ s.b.others → (answers.lookup p).getD Codes.teamLost ≠ Codes.ok →
      (∀ q ∈ s.b.others, q < p → answers.lookup q = some Codes.ok) → c.msg.body = .order k o → c.own = true → c.silent = false →
      (exec (.commitDecision c.msg.id answers) s = .next { s with b := (({ s.b with cb := { s.b.cb with
            commits := s.b.cb.commits.filter fun x => !(x.msg.coordinator == s.b.position && x.msg.id == c.msg.id)
            out := s.b.cb.out ++ s.b.others.map fun q =>
              CbOut.decision q c.msg.id false ((answers.lookup p).getD Codes.teamLost) } }).orderReply o.issuer o.tag
          ((answers.lookup p).getD Codes.teamLost) 0) }))) ∧
  (∀ (s : State) (coord id : Nat), coord ≠ s.b.position → (∃ b, exec (.apply coord id) s = .next { s with b := b } ∧
    b = { s.b with cb := { s.b.cb with commits := b.cb.commits } } ∧
    ∀ c, c ∈ b.cb.commits ↔ (c ∈ s.b.cb.commits ∧ ¬(c.msg.coordinator = coord ∧ c.msg.id = id)) ∨
      ∃ d ∈ s.b.cb.commits, d.msg.coordinator = coord ∧ d.msg.id = id ∧ c = { d with applied := true })) ∧
  (∀ (s : State) (coord id : Nat) (code : Code), coord ≠ s.b.position → (∀ c ∈ s.b.cb.commits, c.own = false) →
    (∃ b, exec (.abort coord id code) s = .next { s with b := b } ∧
      b = { s.b with cb := { s.b.cb with commits := b.cb.commits } } ∧
      ∀ c, c ∈ b.cb.commits ↔ c ∈ s.b.cb.commits ∧ ¬(c.msg.coordinator = coord ∧ c.msg.id = id))) ∧
  (∀ (s : State) (c w : Commit) (k : Nat) (o : OrderIn) (code : Code), s.b.cb.commits = [w, c] →
    c.msg.coordinator ≠ s.b.position → c.own = false → w.msg.coordinator = s.b.position → w.own = true → w.silent = false →
    c.msg.body = .order k o → w.msg.body = c.msg.body → (exec (.abort c.msg.coordinator c.msg.id code) s = .next { s with b := (({ s.b with cb := { s.b.cb with commits := [] } }).orderReply o.issuer o.tag code 0) })) ∧
  (∀ s : State, ((∀ c ∈ s.b.cb.commits, c.applied = false ∨ s.b.cb.linkCycle < c.msg.applyCycle) →
      (exec .commitApplyCycle s = .next { s with b := s.b })) ∧
    (∀ (c : Commit) (ctx tenant gen : Nat), s.b.cb.commits = [c] → c.applied = true → c.msg.applyCycle ≤ s.b.cb.linkCycle →
      c.msg.body = .blocks ctx tenant gen 0 → c.msg.coordinator ≠ s.b.position → (∃ b, exec .commitApplyCycle s = .next { s with b := b } ∧
        b.cb.commits = [] ∧ tabFind? (c.msg.coordinator * 131072 + ctx) b.store.slices = none ∧
        (∀ j, j ≠ c.msg.coordinator * 131072 + ctx → tabFind? j b.store.slices = tabFind? j s.b.store.slices) ∧
        b.ctxs = s.b.ctxs ∧ b.coaches = s.b.coaches))) ∧
  (∀ s : State, s.b.clk.mainOn = true → s.b.cb.lockstep = true → s.b.cb.present = s.b.cb.expected →
    s.b.clk.stage = .teamJoin → s.b.ctxs = [] → s.b.store.slices = [] → (∃ b, exec .ready s = .next { s with b := b } ∧
      b.clk = { s.b.clk with stage := .ready, resetting := none } ∧ b.cb = { s.b.cb with broken := false } ∧
      b.host.attnBase = s.b.host.attnBase ||| BitVec.ofNat 8 (2 ^ attnTeamChange) ∧ b.mem = s.b.mem ∧
      b.coaches = s.b.coaches ∧ b.tenants = s.b.tenants)) ∧
  (∀ (s : State) (q : Nat), s.b.inTeam = true → s.b.isLead = true → q ∈ s.b.others →
    (∀ x ∈ s.b.cb.lostPending, x.1 ≠ q) →
    (∃ b, exec (.leave q) s = .next { s with b := b } ∧ DeclaredLost s q 1 b) ∧
    (∀ c bad, tabFind? q s.b.cb.noPath = some c → c + s.b.cb.lostWait.toNat ≤ s.b.cb.linkCycle →
      (∃ b, exec (.lostWaitExpiry q bad) s = .next { s with b := b } ∧ DeclaredLost s q 2 b)) ∧
    (∀ bad, tabFind? q s.b.cb.noPath = none → 2 ≤ bad → (∃ b, exec (.lostWaitExpiry q bad) s = .next { s with b := b } ∧ DeclaredLost s q 3 b)) ∧
    (∀ bad, tabFind? q s.b.cb.noPath = none → bad < 2 → (exec (.lostWaitExpiry q bad) s = .next { s with b := s.b }))) ∧
  (∀ (s : State) (c bad : Nat), s.b.inTeam = true → s.b.isLead = false → 0 ∈ s.b.others → s.b.teamQuiet →
    tabFind? 0 s.b.cb.noPath = some c → c + s.b.cb.lostWait.toNat ≤ s.b.cb.linkCycle → s.b.clk.stage = .ready →
    (∃ b, exec (.lostWaitExpiry 0 bad) s = .next { s with b := b } ∧
      b.cb.present = BitVec.ofNat 8 (2 ^ s.b.position) ∧ b.cb.lockstep = false ∧ b.clk.stage = .teamJoin ∧
      b.cb.broken = true ∧ b.mem = s.b.mem ∧ b.tenants = s.b.tenants ∧ b.coaches = s.b.coaches)) ∧
  (∀ (s : State) (q cycle : Nat), s.b.inTeam = true → q ∈ s.b.others → (∀ x ∈ s.b.cb.lostPending, x.1 ≠ q) →
    (exec (.lost q cycle) s = .next { s with b := ({ s.b with cb := { s.b.cb with lostPending := s.b.cb.lostPending ++ [(q, cycle)] } }) })) ∧
  (∀ (s : State) (q a : Nat), q < 8 → s.b.cb.lostPending = [(q, a)] → a ≤ s.b.cb.linkCycle →
    bit s.b.cb.present.toNat q = true →
    (s.b.teamQuiet → (∃ b, exec .lostApply s = .next { s with b := b } ∧
      b.cb.present = s.b.cb.present &&& ~~~BitVec.ofNat 8 (2 ^ q) ∧ b.cb.broken = true ∧ b.cb.lostPending = [] ∧
      b.host.attnBase = s.b.host.attnBase ||| BitVec.ofNat 8 (2 ^ attnTeamChange) ∧ b.clk = s.b.clk ∧ b.mem = s.b.mem ∧
      b.tenants = s.b.tenants ∧ b.coaches = s.b.coaches)) ∧
    (∀ (x : Coll) (k t : Nat), s.b.ctxs = [] → s.b.cb.commits = [] → s.b.store.slices = [] →
      s.b.ske.works = [] → (∀ u, u < 4 → (s.b.gtuQ u).wait = none) → s.b.cb.colls = [x] → bit x.members q = true → x.send = some (k, t) →
      x.recv = none → ((s.b.coach k).tag t).collective = true → (∃ b, exec .lostApply s = .next { s with b := b } ∧
        TagEnds s k t Codes.teamLost b ∧ b.cb.colls = [] ∧ OtherCoaches s k b)))

/-- Collectives (R561 to R565): with both descriptors and every contribution in place, the output goes to the RECV buffer and the tags
complete with OK; contributions are combined in ascending position order; a tag whose count has expired ends with CB_TIMEOUT. -/
def Obligations.CollectivesComplete : Prop :=
  let command : Nat → Nat → Nat → Instr := fun op cid members =>
    if op = 1 then .allReduce cid members else if op = 2 then .reduceScatter cid members
    else if op = 3 then .allGather cid members else if op = 4 then .broadcast cid members else .point cid members
  let pos : State → Nat := fun s => s.b.clk.straps.toNat % 8
  (∀ (s : State) (op cid members : Nat) (x : Coll), 1 ≤ op → op ≤ 5 → s.b.coll? cid members = some x → x.desc ≠ [] →
    descOp x.desc = op → x.mismatch = false → (∀ p ∈ x.needs (pos s), (x.contribOf p).isSome = true) →
    (∀ (k t buf : Nat), x.recv = some (k, t, buf) → (op ≤ 3 → x.send.isSome = true) →
      ((s.b.coach k).tag t).collective = true → ((s.b.coach k).tag t).desc + 128 ≤ sramEnd →
      buf + (x.output (pos s)).length ≤ sramEnd →
      (((s.b.coach k).tag t).desc + 128 ≤ buf ∨ buf + (x.output (pos s)).length ≤ ((s.b.coach k).tag t).desc + 64) →
      (∀ j u, x.send = some (j, u) → ((s.b.coach j).tag u).collective = true ∧ (j, u) ≠ (k, t) ∧
        ((s.b.coach j).tag u).desc + 128 ≤ sramEnd ∧ (j ≠ k ∨ (((s.b.coach j).tag u).desc + 128 ≤ buf ∨
          buf + (x.output (pos s)).length ≤ ((s.b.coach j).tag u).desc + 64))) →
      (∃ b, exec (command op cid members) s = .next { s with b := b } ∧
        b.readSram k buf (x.output (pos s)).length = x.output (pos s) ∧ tabFind? t (b.coach k).tags = none ∧
        (∀ j u, x.send = some (j, u) → tabFind? u (b.coach j).tags = none) ∧ b.coll? cid members = none ∧
        b.cb.collCount = sat32 s.b.cb.collCount 1 ∧ (∀ j, (b.coach j).s = (s.b.coach j).s ∧
          (b.coach j).a = (s.b.coach j).a ∧ (b.coach j).v = (s.b.coach j).v ∧ (b.coach j).pc = (s.b.coach j).pc) ∧
        b.ctxs = s.b.ctxs)) ∧
    (∀ (k t : Nat), 4 ≤ op → x.recv = none → x.send = some (k, t) → ((s.b.coach k).tag t).collective = true →
      (∃ b, exec (command op cid members) s = .next { s with b := b } ∧
        TagEnds s k t Codes.ok b ∧ b.coll? cid members = none ∧ b.cb.collCount = sat32 s.b.cb.collCount 1 ∧
        OtherCoaches s k b))) ∧
  (∀ (x : Coll) (p q r : Nat) (xs ys : List Byte), positions (descMembers x.desc) = [p, q] → x.contribOf p = some xs →
    x.contribOf q = some ys → descDtype x.desc = 0 →
    (descOp x.desc = 1 → descRop x.desc = 0 → lanes (x.output r) = List.zipWith addF32 (lanes xs) (lanes ys)) ∧
    (descOp x.desc = 1 → descRop x.desc = 1 → lanes (x.output r) = List.zipWith maxF32 (lanes xs) (lanes ys)) ∧
    (descOp x.desc = 3 → x.output r = xs ++ ys) ∧ (descOp x.desc = 4 → descPeer x.desc = p → x.output r = xs) ∧
    (descOp x.desc = 5 → descPeer x.desc = p → p ≠ q → x.output r = ys)) ∧
  (∀ (s : State) (k t : Nat) (x : Coll), x ∈ s.b.cb.colls → ((s.b.coach k).tag t).collective = true →
    (∀ y ∈ s.b.cb.colls, y = x ∨ (y.send ≠ some (k, t) ∧ ∀ buf, y.recv ≠ some (k, t, buf))) →
    (x.send = some (k, t) → x.sendCycle ≤ s.b.cb.linkCycle → (∃ b, exec (.cbTimeout k t) s = .next { s with b := b } ∧
      TagEnds s k t Codes.cbTimeout b ∧ OtherCoaches s k b ∧ b.ctxs = s.b.ctxs)) ∧
    (∀ buf, x.recv = some (k, t, buf) → x.send ≠ some (k, t) → x.recvCycle ≤ s.b.cb.linkCycle →
      (∃ b, exec (.cbTimeout k t) s = .next { s with b := b } ∧ TagEnds s k t Codes.cbTimeout b ∧ OtherCoaches s k b ∧ b.ctxs = s.b.ctxs)) ∧
    (s.b.cb.linkCycle < x.sendCycle → s.b.cb.linkCycle < x.recvCycle → (exec (.cbTimeout k t) s = .next { s with b := s.b })))

/-- The domain (R573 to R579): a frame that is taken is acknowledged and acts, another is discarded and counted; work and its results,
retransmission, the shard directory and its queries, the configuration registers of the team and the domain ports. -/
def Obligations.DomainFramesAndDirectory : Prop :=
  (∀ (s : State) (port kind : Nat) (f : DomFrame), s.b.takesFrame port kind f →
    let r := s.b.receivedFrame f
    (r.pair f.src).rxPsn = f.psn + 1 ∧ (∃ sent, r.cb.out = s.b.cb.out ++ sent ++ [.domAck f.src (f.psn + 1)]) ∧
    r.mem = s.b.mem ∧ r.ctxs = s.b.ctxs ∧ r.coaches = s.b.coaches ∧ r.tenants = s.b.tenants ∧ r.ske = s.b.ske ∧
    (∀ m, m ≠ f.src → m ≠ s.b.cb.domLead → r.pair m = s.b.pair m) ∧
    (r.pair f.src).deadUntil = (if (s.b.pair f.src).deadUntil ≤ s.b.clk.cclk then 0 else (s.b.pair f.src).deadUntil)) ∧
  (∀ (s : State) (port : Nat) (f : DomFrame), s.b.domPort port = true → s.b.frameOk port f = true → f.kind = 3 →
    (s.b.pair f.src).deadUntil = 0 →
    let p := s.b.pair f.src
    (0 < (f.ackPsn - p.ackPsn).toNat → (f.ackPsn - p.ackPsn).toNat ≤ (p.txPsn - p.ackPsn).toNat →
      (∃ b, exec (.ack port f) s = .next { s with b := b } ∧ b.pair f.src = { p with ackPsn := f.ackPsn, retries := 0, since := s.b.clk.cclk } ∧
        (∀ m, m ≠ f.src → b.pair m = s.b.pair m) ∧ b = { s.b with cb := { s.b.cb with pairs := b.cb.pairs } })) ∧
    (f.ackPsn = p.ackPsn → (∃ b, exec (.ack port f) s = .next { s with b := b } ∧ (∀ m, b.pair m = s.b.pair m) ∧
      b = { s.b with cb := { s.b.cb with pairs := b.cb.pairs } }))) ∧
  (∀ (s : State) (port : Nat) (f : DomFrame), s.b.domPort port = true →
    (s.b.frameOk port f = false → (exec (.discardedFrame port f) s = .next { s with b := ({ s.b with cb := { s.b.cb with domDrop := sat32 s.b.cb.domDrop 1 } }) }) ∧
      ∀ m, (exec (.domWork port f m) s = .next { s with b := ({ s.b with cb := { s.b.cb with domDrop := sat32 s.b.cb.domDrop 1 } }) })) ∧
    (s.b.frameOk port f = true → (exec (.discardedFrame port f) s = .next { s with b := s.b }))) ∧
  (∀ (s : State) (port : Nat) (f : DomFrame) (m : WorkMsg), s.b.takesFrame port 1 f →
    (∀ shard, m.body = .drop shard →
      (∀ x ∈ s.b.ske.works, ¬(x.2.msg.module = f.src ∧ x.2.msg.ctx = m.ctx ∧ x.2.msg.body.shard = some shard)) → (∃ b, exec (.domWork port f m) s = .next { s with b := b } ∧
      (∀ x, x ∈ b.ske.remote ↔ x ∈ s.b.ske.remote ∧ ¬(x.1 = f.src ∧ x.2.1 = m.ctx ∧ x.2.2.1 = shard)) ∧
      b = { s.b.receivedFrame f with ske := { s.b.ske with remote := b.ske.remote } })) ∧
    (∀ shard ids, m.body = .records shard ids →
      (m.version ≠ s.b.sec.svn ∨ s.b.clk.stage ≠ .ready → (∃ b, exec (.domWork port f m) s = .next { s with b := b } ∧
        ∃ x, b = (s.b.receivedFrame f).domSend f.src (.result f.src true x) ∧ x.code = Codes.shardUnreachable ∧
          x.ctx = m.ctx)) ∧
      (m.version = s.b.sec.svn → s.b.clk.stage = .ready →
        (f.dtid = 0 ∨ ∀ t ∈ s.b.tenants, t.2.state ≠ .on ∨ t.2.dtid ≠ f.dtid) → (∃ b, exec (.domWork port f m) s = .next { s with b := b } ∧
        ∃ x, b = (s.b.receivedFrame f).domSend f.src (.result f.src true x) ∧ x.code = Codes.shardAccess ∧
          x.ctx = m.ctx)))) ∧
  (∀ (s : State) (port : Nat) (f : DomFrame) (m : ResultMsg), s.b.takesFrame port 2 f → m.gather = true → m.setIdx < 4 →
    ((s.b.gtuQ m.setIdx).wait = none → (exec (.domResult port f m) s = .next { s with b := (s.b.receivedFrame f) })) ∧
    (∀ x ids, (s.b.gtuQ m.setIdx).wait = some x → x.owed.lookup f.src = some ids → m.code = Codes.ok →
      (∃ o ∈ x.owed, o.1 ≠ f.src) → (∃ b, exec (.domResult port f m) s = .next { s with b := b } ∧
        (b.gtuQ m.setIdx).wait = some { x with
          owed := x.owed.filter (fun o => o.1 != f.src), got := x.got ++ ids.zip m.rows } ∧
        b = { s.b.receivedFrame f with gtu := b.gtu }))) ∧
  (∀ (s : State) (m : Nat), (s.b.pair m).ackPsn ≠ (s.b.pair m).txPsn →
    let p := s.b.pair m
    (s.b.clk.cclk < p.since + s.b.cb.domRto * 768 → (exec (.domainRto m) s = .next { s with b := s.b })) ∧
    (p.since + s.b.cb.domRto * 768 ≤ s.b.clk.cclk → p.retries < 8 → (∃ b, exec (.domainRto m) s = .next { s with b := b } ∧
      let off := if p.retries = 4 then (p.portOff + 1) % 4 else p.portOff
      b.pair m = { p with retries := p.retries + 1, portOff := off, since := s.b.clk.cclk } ∧
      (∀ n, n ≠ m → b.pair n = s.b.pair n) ∧ b.cb.out = s.b.cb.out ++ [.retransmit m ((m + off) % 4) p.ackPsn] ∧
      b.ctxs = s.b.ctxs ∧ b.mem = s.b.mem)) ∧
    (p.since + s.b.cb.domRto * 768 ≤ s.b.clk.cclk → 8 ≤ p.retries → s.b.ctxs = [] → (∃ b, exec (.domainRto m) s = .next { s with b := b } ∧
      (b.pair m).deadUntil = s.b.clk.cclk + 64 * (s.b.cb.domRto * 768) ∧ (b.pair m).retries = 0 ∧
      (∀ n, n ≠ m → b.pair n = s.b.pair n) ∧ b.cb.out = s.b.cb.out ∧ b.mem = s.b.mem))) ∧
  (∀ (s : State) (port : Nat) (f : DomFrame),
    (∀ e : DirEntry, s.b.takesFrame port 4 f → s.b.cb.domLead = s.b.cb.module → f.src ≠ s.b.cb.domLead → e.state ≠ 0 → (∃ b, exec (.dirReport port f e) s = .next { s with b := b } ∧
      tabFind? (f.src * 64 + e.shard) b.cb.directory = some { e with module := f.src } ∧
      (∀ k, k ≠ f.src * 64 + e.shard → tabFind? k b.cb.directory = tabFind? k s.b.cb.directory) ∧
      b = { s.b.receivedFrame f with cb := { (s.b.receivedFrame f).cb with directory := b.cb.directory } })) ∧
    (∀ e : DirEntry, s.b.takesFrame port 4 f → s.b.cb.domLead ≠ s.b.cb.module → (exec (.dirReport port f e) s = .next { s with b := (s.b.receivedFrame f) })) ∧
    (∀ module shard, s.b.takesFrame port 5 f → s.b.cb.domLead = s.b.cb.module → f.src ≠ s.b.cb.domLead → (exec (.dirQuery port f module shard) s = .next { s with b := ((s.b.receivedFrame f).domSend f.src
        (.dirAnswer f.src (tabFind? (module * 64 + shard) s.b.cb.directory))) })) ∧
    (∀ e : DirEntry, s.b.takesFrame port 6 f → s.b.cb.dirBusy = true → f.src = s.b.cb.domLead → (∃ b, exec (.dirAnswer port f (some e)) s = .next { s with b := b } ∧
      b.cb.dirBusy = false ∧ b.cb.dirValid = true ∧ b.cb.dirCode = Codes.ok ∧ b.cb.dirData = dirWords e ∧
      b.mem = s.b.mem ∧ b.ctxs = s.b.ctxs)) ∧
    (s.b.takesFrame port 6 f → s.b.cb.dirBusy = true → f.src = s.b.cb.domLead → (∃ b, exec (.dirAnswer port f none) s = .next { s with b := b } ∧
      b.cb.dirBusy = false ∧ b.cb.dirValid = false ∧ b.cb.dirCode = Codes.ok ∧ b.mem = s.b.mem))) ∧
  (∀ (s : State) (v : W64), s.b.mainUp = true → s.b.clk.resetNow = false →
    (s.b.cb.dirBusy = true → (exec (.cbDirQuery v) s = .next { s with b := s.b })) ∧
    (s.b.cb.dirBusy = false → s.b.cb.domLead = s.b.cb.module → ∀ e,
      tabFind? (bits v.toNat 48 32 * 64 + bits v.toNat 5 0) s.b.cb.directory = some e → (exec (.cbDirQuery v) s = .next { s with b := ({ s.b with cb := { s.b.cb with
          dirBusy := false, dirValid := true, dirCode := Codes.ok, dirSince := s.b.clk.cclk, dirData := dirWords e } }) })) ∧
    (s.b.cb.dirBusy = false → s.b.cb.domLead ≠ s.b.cb.module → s.b.cb.domEnable ≠ 0 → (∃ b, exec (.cbDirQuery v) s = .next { s with b := b } ∧
      b.cb.dirBusy = true ∧ b.cb.dirValid = false ∧ b.cb.dirSince = s.b.clk.cclk ∧
      b.cb.out = s.b.cb.out ++ [.dirQuery s.b.cb.domLead (bits v.toNat 48 32) (bits v.toNat 5 0)] ∧
      (b.pair s.b.cb.domLead).txPsn = (s.b.pair s.b.cb.domLead).txPsn + 1 ∧ b.mem = s.b.mem)) ∧
    (v.getLsbD 0 = true → (exec (.cbTeamCfg v) s = .next { s with b := ({ s.b with flash := { s.b.flash with
        teamModule := bits v.toNat 48 32, teamExpected := BitVec.ofNat 8 (bits v.toNat 7 0) } }) })) ∧
    (v.getLsbD 0 = false → (exec (.cbTeamCfg v) s = .next { s with b := s.b })) ∧
    (∀ port pcs fec, s.b.laneOff (8 + port) = false → (∃ b, exec (.domainPcsLock port pcs fec) s = .next { s with b := b } ∧
      tabFind? port b.cb.dports = some ⟨pcs, fec⟩ ∧
      (∀ q, q ≠ port → tabFind? q b.cb.dports = tabFind? q s.b.cb.dports) ∧
      b = { s.b with cb := { s.b.cb with dports := b.cb.dports } }))) ∧
  (∀ s : State, s.b.cb.dirBusy = true →
    (s.b.cb.dirSince + 8 * (s.b.cb.domRto * 768) ≤ s.b.clk.cclk → (exec .dirQueryTimeout s = .next { s with b := ({ s.b with cb := { s.b.cb with dirBusy := false, dirValid := false, dirCode := Codes.cbDirDown } }) })) ∧
    (s.b.clk.cclk < s.b.cb.dirSince + 8 * (s.b.cb.domRto * 768) → (exec .dirQueryTimeout s = .next { s with b := s.b })))

/-- Attestation, debug unlock and SEC_LOCK (R597, R602 to R606), the loopback and boundary-scan registers (R653 to R656, R662, R665) and
writes of registers without a row of their own (R11, R83, R92). -/
def Obligations.AttestationDebugAndTestRegisters : Prop :=
  let answers1 : State → HostOut → HostSt := fun s o => { s.b.host with out := s.b.host.out ++ [o] }
  (∀ s : State, s.b.mainUp = true →
    (exec .getVersion s = .next { s with b := ({ s.b with
      sec := { s.b.sec with spdmVersion := true, spdmCaps := false, spdmAlgs := false }
      host := answers1 s (.spdm 0x84 [0x12] false) }) }) ∧
    (s.b.sec.spdmVersion = true → (exec .getCapabilities s = .next { s with b := ({ s.b with
      sec := { s.b.sec with spdmCaps := true, spdmAlgs := false }, host := answers1 s (.spdm 0xE1 [] false) }) })) ∧
    (s.b.sec.spdmVersion = false → (exec .getCapabilities s = .next { s with b := ({ s.b with host := answers1 s (.spdmError 0xE1) }) })) ∧
    (∀ asym hash, s.b.sec.spdmCaps = true → asym.testBit 7 = true → hash.testBit 1 = true →
      (exec (.negotiateAlgorithms asym hash) s = .next { s with b := ({ s.b with
        sec := { s.b.sec with spdmAlgs := true }, host := answers1 s (.spdm 0xE3 (le 4 0x80 ++ le 4 2) false) }) })) ∧
    (∀ asym hash, s.b.sec.spdmCaps = false ∨ asym.testBit 7 = false ∨ hash.testBit 1 = false →
      (exec (.negotiateAlgorithms asym hash) s = .next { s with b := ({ s.b with
        sec := { s.b.sec with spdmAlgs := false }, host := answers1 s (.spdmError 0xE3) }) })) ∧
    (s.b.sec.spdmAlgs = true →
      (exec .getDigests s = .next { s with b := ({ s.b with host := answers1 s (.spdm 0x81 (digest 0 s.b.runs) false) }) }) ∧
      (exec (.getCertificate 0) s = .next { s with b := ({ s.b with host := answers1 s (.spdm 0x82 (digest 0 0 ++ s.b.aliasCert) false) }) }) ∧
      (exec (.challenge 0) s = .next { s with b := ({ s.b with host := answers1 s (.spdm 0x83 (digest 0 s.b.runs) true) }) }) ∧
      (∀ i, 1 ≤ i → i ≤ 4 → (exec (.getMeasurements i) s = .next { s with b := ({ s.b with host := answers1 s (.spdm 0xE0 (digest i (if i = 1 then 0 else s.b.runs)) true) }) })) ∧
      (exec (.getMeasurements 5) s = .next { s with b := ({ s.b with host := answers1 s (.spdm 0xE0 (le 4 s.b.sec.svn.toNat ++
        le 4 s.b.flash.minSvn.toNat ++ le 4 (if s.b.sec.backup then 1 else 0)) true) }) }) ∧
      (exec (.getMeasurements 6) s = .next { s with b := ({ s.b with host := answers1 s (.spdm 0xE0 (le 1 s.b.sec.debug) true) }) }) ∧
      (exec (.getMeasurements 8) s = .next { s with b := ({ s.b with host := answers1 s (.spdm 0xE0 (le 4 s.b.clk.straps.toNat) true) }) }) ∧
      (∀ i, i = 0 ∨ 8 < i → i ≠ 0xFF → (exec (.getMeasurements i) s = .next { s with b := ({ s.b with host := answers1 s (.spdmError 0xE0) }) })) ∧
      (∀ i, i ≠ 0 → (exec (.getCertificate i) s = .next { s with b := ({ s.b with host := answers1 s (.spdmError 0x82) }) }) ∧
        (exec (.challenge i) s = .next { s with b := ({ s.b with host := answers1 s (.spdmError 0x83) }) }))) ∧
    (s.b.sec.spdmAlgs = false → (exec .getDigests s = .next { s with b := ({ s.b with host := answers1 s (.spdmError 0x81) }) }))) ∧
  (∀ s : State, s.b.clk.j1Up = true →
    (∀ level, level = 1 ∨ level = 2 → (exec (.debugChallenge level) s = .next { s with b := ({ s.b with
      sec := { s.b.sec with drawn := s.b.sec.drawn + 1, challenge := some (level, s.b.sec.drawn, s.b.ost.tick) }
      host := answers1 s (.debugChallenge level s.b.sec.drawn (digest 6 0) s.b.sec.svn) }) })) ∧
    (∀ level, level ≠ 1 → level ≠ 2 → (exec (.debugChallenge level) s = .next { s with b := ({ s.b with host := answers1 s .mctpError }) })) ∧
    (∀ (r : DebugResp) (asked : Nat), s.b.sec.challenge = some (r.level, r.nonce, asked) → r.sigOk = true →
      r.moduleOk = true → s.b.ost.tick ≤ asked + 30000000000 →
      ((∀ t ∈ s.b.tenants, t.2.state = .off) → (∃ b, exec (.debugResponse r) s = .next { s with b := b } ∧
        b.sec.debug = max s.b.sec.debug r.level ∧ b.sec.challenge = none ∧
        b.host.out = s.b.host.out ++ [.debugResult Codes.ok] ∧ b.mem = s.b.mem ∧ b.tenants = s.b.tenants)) ∧
      ((∃ t ∈ s.b.tenants, t.2.state ≠ .off) → (exec (.debugResponse r) s = .next { s with b := ({ s.b with sec := { s.b.sec with challenge := none }, host := answers1 s (.debugResult Codes.secTenantOn) }) }))) ∧
    (∀ (r : DebugResp) (level asked : Nat), s.b.sec.challenge = some (level, r.nonce, asked) →
      r.sigOk = false ∨ r.level ≠ level ∨ asked + 30000000000 < s.b.ost.tick → (∃ b, exec (.debugResponse r) s = .next { s with b := b } ∧
        b.sec = { s.b.sec with
          challenge := none, eventCount := sat32 s.b.sec.eventCount 1, lastEvent := 5, lastTenant := 0 } ∧
        b.host.out = s.b.host.out ++ [.debugResult Codes.secDebugBad] ∧ b.mem = s.b.mem))) ∧
  (∀ (s : State) (v : W64), s.b.mainUp = true → s.b.clk.resetNow = false →
    (v.getLsbD 0 = true → (∃ b, exec (.secLock v) s = .next { s with b := b } ∧ b.sec = { s.b.sec with isolate := true } ∧
      b.ske.shared = false ∧ b.mt.shared = false ∧ b.sb.shared = false ∧ (∀ q, (b.rnuQ q).shared = false) ∧ b.mem = s.b.mem ∧ b.ctxs = s.b.ctxs)) ∧
    (v.getLsbD 0 = false → (exec (.secLock v) s = .next { s with b := s.b }))) ∧
  (∀ (s : State) (v : W64), s.b.mainUp = true → s.b.clk.resetNow = false →
    (s.b.ost.lbOstlerCclk = some s.b.clk.cclk → (exec (.hubLbCtrl false v) s = .next { s with b := s.b })) ∧
    (s.b.ost.lbOstlerCclk ≠ some s.b.clk.cclk →
      (v.getLsbD 0 = false ∨ (s.b.loopOk (bits v.toNat 31 24) (bits v.toNat 23 8) (bits v.toNat 7 5) = true ∧
        bits v.toNat 4 1 ≤ 3) → (exec (.hubLbCtrl false v) s = .next { s with b := ({ s.b with ost := { s.b.ost with lbCtrl := v &&& 0xFFFFFFFF, lbLock := 0 } }) })) ∧
      (v.getLsbD 0 = true → s.b.loopOk (bits v.toNat 31 24) (bits v.toNat 23 8) (bits v.toNat 7 5) = false ∨
        3 < bits v.toNat 4 1 → (exec (.hubLbCtrl false v) s = .next { s with b := ({ s.b with ost := { s.b.ost with lbRefused := true, lbRefusedNow := true } }) }))) ∧
    (v.getLsbD 0 = false → (exec (.hubLbCtrl true v) s = .next { s with b := ({ s.b with ost := { s.b.ost with
      lbCtrl := v &&& 0xFFFFFFFF, lbLock := 0, lbOstlerCclk := some s.b.clk.cclk } }) })) ∧
    (v.getLsbD 16 = true → s.b.ost.lbRefusedNow = false → (exec (.hubLbStatus v) s = .next { s with b := ({ s.b with ost := { s.b.ost with lbRefused := false } }) })) ∧
    (v.getLsbD 16 = true → s.b.ost.lbRefusedNow = true → (∃ b, exec (.hubLbStatus v) s = .next { s with b := b } ∧
      b.ost.lbRefused = false ∧ b.clk.cclk = s.b.clk.cclk + 1)) ∧
    (v.getLsbD 16 = false → (exec (.hubLbStatus v) s = .next { s with b := s.b })) ∧
    (∀ on, (exec (.loopbackFollower on) s = .next { s with b := ({ s.b with ost := { s.b.ost with follower := on } }) }))) ∧
  (∀ (s : State) (lane errors : Nat) (locked : Bool), s.b.ost.lbCtrl.getLsbD 0 = true → lane < 16 →
    (∃ b, exec (.loopbackLaneLock lane locked errors) s = .next { s with b := b } ∧
      (∀ i, i < 16 → b.ost.lbLock.getLsbD i = if i = lane then locked else s.b.ost.lbLock.getLsbD i) ∧
      b.ost.lbErr = sat32 s.b.ost.lbErr errors ∧
      b = { s.b with ost := { s.b.ost with lbLock := b.ost.lbLock, lbErr := b.ost.lbErr } })) ∧
  (∀ s : State, s.b.testEntry = true → s.b.ost.scanBusy = true →
    let held : W64 := Config.scanBits s.b.ost.scanCount &&& BitVec.ofNat 64 (2 ^ s.b.ost.scanLen - 1)
    let after : W64 → Block := fun d => { s.b with ost := { s.b.ost with
      scanBusy := false, scanData := d, scanCount := s.b.ost.scanCount + 1 } }
    (s.b.ost.scanOp = 0 → (exec .scanReset s = .next { s with b := (after s.b.ost.scanData) })) ∧
    (s.b.ost.scanOp = 1 → (exec .shiftIr s = .next { s with b := (after held) })) ∧
    (s.b.ost.scanOp = 2 → (exec .shiftDr s = .next { s with b := (after held) })) ∧
    (s.b.ost.scanOp = 3 → (exec .runIdle s = .next { s with b := (after s.b.ost.scanData) }))) ∧
  (∀ (s : State) (v : W64), s.b.mainUp = true → s.b.clk.resetNow = false →
    (∀ p, s.b.pageOn p = true → s.b.pageReset p = false →
      ((s.b.page p).active = false →
        (∃ b, exec (.registerWrite ⟨some p, 0x08, 8, v⟩) s = .next { s with b := b } ∧ PageBecomes s p { s.b.page p with reqBase := v } b) ∧
        (∃ b, exec (.registerWrite ⟨some p, 0x18, 8, v⟩) s = .next { s with b := b } ∧ PageBecomes s p { s.b.page p with rplBase := v } b) ∧
        (∃ b, exec (.registerWrite ⟨some p, 0x08, 4, v⟩) s = .next { s with b := b } ∧
          (∀ i, i < 32 → (b.page p).reqBase.getLsbD i = v.getLsbD i) ∧
          (∀ i, 32 ≤ i → (b.page p).reqBase.getLsbD i = (s.b.page p).reqBase.getLsbD i))) ∧
      ((s.b.page p).active = true → (∃ b, exec (.registerWrite ⟨some p, 0x08, 8, v⟩) s = .next { s with b := b } ∧ PageBecomes s p ((s.b.page p).setErr 2) b))) ∧
    (exec (.registerWrite ⟨none, 0x2010, 8, v⟩) s = .next { s with b := ({ s.b with tp := { s.b.tp with queueLimit := BitVec.ofNat 32 v.toNat } }) }) ∧
    (50 ≤ v.toNat % 128 → v.toNat % 128 ≤ 100 → (exec (.registerWrite ⟨none, 0x2000, 8, v⟩) s = .next { s with b := ({ s.b with tp := { s.b.tp with ceiling := v.toNat % 128 } }) })) ∧
    (exec (.registerWrite ⟨none, 0xC010, 8, v⟩) s = .next { s with b := ({ s.b with sec := { s.b.sec with tenantSel := BitVec.ofNat 12 v.toNat } }) }) ∧
    (∀ page offset size, offset % 8 ≠ 0 → size ≠ 4 → (exec (.registerWrite ⟨page, offset, size, v⟩) s = .next { s with b := s.b })))

/-- Errors, power and the Ostler (R46, R611 to R617, R625 to R649): scrubbing, the periods and intervals, sensors, shutdown and restart, the
log, firmware update, out-of-band orders, calibration and maintenance. -/
def Obligations.ErrorsPowerAndOstler : Prop :=
  (∀ (s : State) (a : Nat), s.b.mainUp = true →
    (∀ u, s.b.memUnitOf (s.b.physical a) = some u → (∃ b, exec (.scrub [a] []) s = .next { s with b := b } ∧
      b.rel.errCorr = sat32 s.b.rel.errCorr 1 ∧ b.rel.memCe = tabMod 0 (memIndex u) (· + 1) s.b.rel.memCe ∧
      b = { s.b with rel := { s.b.rel with errCorr := b.rel.errCorr, memCe := b.rel.memCe } })) ∧
    (∀ k, coachOf a = some k → (exec (.scrub [a] []) s = .next { s with b := ({ s.b with rel := { s.b.rel with
      errCorr := sat32 s.b.rel.errCorr 1, coachCe := tabMod 0 k (· + 1) s.b.rel.coachCe } }) })) ∧
    (s.b.memUnitOf (s.b.physical a) = none → coachOf a = none → (∃ b, exec (.scrub [] [a]) s = .next { s with b := b } ∧
      b.rel.errUncorr = sat32 s.b.rel.errUncorr 1 ∧ (∀ l, l ∈ b.rel.poison ↔ l ∈ s.b.rel.poison ∨ l = a / 64) ∧
      b.poisoned a 1 = true ∧ b.mem = s.b.mem ∧ b.ctxs = s.b.ctxs ∧ b.ost.events.length = s.b.ost.events.length + 1))) ∧
  (∀ s : State, s.b.mainUp = true → s.b.rel.coachCe = [] → (∃ b, exec .cePeriod s = .next { s with b := b } ∧
    b.rel = { s.b.rel with memCe := [], coachCe := [] } ∧
    b.ost.events.length = s.b.ost.events.length + s.b.rel.memCe.length ∧
    ((∃ p ∈ s.b.rel.memCe, s.b.rel.ceLimitMem ≤ p.2) → (b.host.attnOf pf0Page).getLsbD attnMgmtEvent = true) ∧
    ((∀ p ∈ s.b.rel.memCe, p.2 < s.b.rel.ceLimitMem) → b.host = s.b.host) ∧ b.mem = s.b.mem ∧ b.ctxs = s.b.ctxs)) ∧
  (∀ (s : State) (k : Nat), s.b.mainUp = true → k < 512 → s.b.testOf ⟨1, k⟩ = none →
    (s.b.fenced 1 k = true → (exec (.coachFault k) s = .next { s with b := (({ s.b with rel := { s.b.rel with errUncorr := sat32 s.b.rel.errUncorr 1 } }).log 0x03 2 Codes.ok
        (some ⟨1, k⟩) none k) })) ∧
    (s.b.fenced 1 k = false → (s.b.coach k).task = none → (∀ x ∈ s.b.ctxs, x.2.step = none) →
      s.b.orderPasses 12 ⟨.ostler, 0, 5, 2 ^ 48 + k, le 1 1 ++ List.replicate 95 0⟩ → (∃ b, exec (.coachFault k) s = .next { s with b := b } ∧
        b.fenced 1 k = true ∧ b.rel.errUncorr = sat32 s.b.rel.errUncorr 1 ∧ b.mem = s.b.mem))) ∧
  (∀ (s : State) (vin iin watts : Nat), s.b.mainUp = true → vin < 65536 → iin < 65536 → watts < 65536 →
    let lim := min s.b.rel.capLimit (90 * vin / 100)
    (∃ b, exec (.powerInterval vin iin watts) s = .next { s with b := b } ∧
      b.rel.sPower = (if lim < watts then min 56 (s.b.rel.sPower + 2)
        else if 100 * watts < 97 * lim then s.b.rel.sPower - 1 else s.b.rel.sPower) ∧
      b.rel.sThermal = s.b.rel.sThermal ∧ b.rel.power = BitVec.ofNat 16 watts ∧ b.rel.vin = BitVec.ofNat 16 vin ∧
      b.rel.limitNow = s.b.rel.capLimit ∧
      b.rel.capFailRun = (if lim < watts ∧ s.b.rel.sPower = 56 then s.b.rel.capFailRun + 1 else 0) ∧
      b.rel.overVRun = (if 6200 < vin then s.b.rel.overVRun + 1 else 0) ∧
      b = { s.b with rel := b.rel, host := b.host, ost := { s.b.ost with events := b.ost.events } })) ∧
  (∀ s : State, s.b.mainUp = true →
    ((∃ n, n < 87 ∧ s.b.rel.throttles n = true) → (∃ b, exec .thermalInterval s = .next { s with b := b } ∧
      b.rel = { s.b.rel with sThermal := min 56 (s.b.rel.sThermal + 2) } ∧ b.mem = s.b.mem ∧ b.ctxs = s.b.ctxs)) ∧
    ((∀ n, n < 87 → s.b.rel.throttles n = false ∧ s.b.rel.coolBy 3 500 n = true) → (∃ b, exec .thermalInterval s = .next { s with b := b } ∧
      b.rel = { s.b.rel with sThermal := s.b.rel.sThermal - 1 } ∧ b.mem = s.b.mem)) ∧
    ((∀ n, n < 87 → s.b.rel.throttles n = false) → (∃ n, n < 87 ∧ s.b.rel.coolBy 3 500 n = false) →
      (∃ b, exec .thermalInterval s = .next { s with b := b } ∧ b.rel = s.b.rel ∧ b.mem = s.b.mem))) ∧
  (∀ (s : State) (n : Nat) (v : BitVec 16), s.b.clk.j1Up = true → n < 88 → n ≠ 87 → (84 ≤ n ∨ s.b.clk.mainOn = true) →
    (∃ b, exec (.sensorSample [(n, v)]) s = .next { s with b := b } ∧ tabFind? n b.rel.sensors = some v ∧
      (∀ m, m ≠ n → tabFind? m b.rel.sensors = tabFind? m s.b.rel.sensors) ∧
      b.rel.lowFlowMs = (if n = 86 then (if v ≠ 0x8000 ∧ v.toInt < 300 then s.b.rel.lowFlowMs + 1 else 0)
        else s.b.rel.lowFlowMs) ∧ b.mem = s.b.mem ∧ b.ctxs = s.b.ctxs)) ∧
  (∀ s : State, s.b.clk.j1Up = true → (∃ b, exec .leakSense s = .next { s with b := b } ∧
    b.rel = { s.b.rel with leak := true } ∧ (b.host.attnOf pf0Page).getLsbD attnMgmtEvent = true ∧ b.mem = s.b.mem)) ∧
  (∀ (s : State) (cause : Nat), s.b.clk.mainOn = true →
    (s.b.rel.shutdownDue cause = true → cause < 256 → (∃ b, exec (.shutdown cause) s = .next { s with b := b } ∧
      b.clk.mainOn = false ∧ b.clk.stage = .held ∧ b.rel.shutHold = true ∧ b.rel.shutTick = s.b.ost.tick ∧
      b.rel.lastShutdown.toNat / 256 = cause ∧
      b.rel.lastShutdown.toNat % 256 = min 255 (s.b.rel.lastShutdown.toNat % 256 + 1) ∧
      b.cb.out = s.b.cb.out ++ (if s.b.inTeam then [.leave] else []))) ∧
    (s.b.rel.shutdownDue cause = false → (exec (.shutdown cause) s = .next { s with b := s.b }))) ∧
  (∀ s : State, s.b.rel.shutHold = false ∨ s.b.ost.tick < s.b.rel.shutTick + 30000000000 → (exec .autoRestart s = .next { s with b := s.b })) ∧
  (∀ s : State, s.b.clk.j1Up = true → s.b.clk.mated = true → s.b.rel.shutHold = true → s.b.rel.autoRestart = true →
    s.b.rel.shutTick + 30000000000 ≤ s.b.ost.tick → (∀ n, n < 87 → s.b.rel.coolBy 10 600 n = true) →
    4800 ≤ s.b.rel.vin.toNat → s.b.rel.vin.toNat ≤ 6000 → (∃ b, exec .autoRestart s = .next { s with b := b } ∧
      b.clk.mainOn = true ∧ b.clk.cause = causeShutdown ∧ b.rel.shutHold = false)) ∧
  (∀ (s : State) (e : LogEvent) (es : List LogEvent), s.b.ost.events = e :: es → s.b.flash.log.length < 524288 →
    (∃ b, exec .logRecord s = .next { s with b := b } ∧ b.flash.log = s.b.flash.log ++ [s.b.logRec e] ∧ b.flash.nextSeq = s.b.flash.nextSeq + 1 ∧
      b.ost = { s.b.ost with events := es } ∧
      (2 ≤ e.severity → (b.host.attnOf pf0Page).getLsbD attnMgmtEvent = true) ∧
      (e.severity < 2 → b.host = s.b.host) ∧ b.mem = s.b.mem)) ∧
  (∀ (s : State) (v : W64), s.b.mainUp = true →
    (s.b.clk.resetNow = false → (exec (.ostLogAck v) s = .next { s with b := ({ s.b with ost := { s.b.ost with logAck := v, logFullArmed := true } }) })) ∧
    (exec .ostNow s = .next { s with b := ({ s.b with
      ost := { s.b.ost with
        nowLink := if s.b.cb.lockstep then BitVec.ofNat 64 s.b.cb.linkCycle else 0
        nowProg := BitVec.ofNat 64 s.b.tp.progSeq }
      host := { s.b.host with readData := BitVec.ofNat 64 s.b.ost.tick } }) })) ∧
  (∀ (s : State) (seq count : Nat), s.b.clk.j1Up = true → (∃ b, exec (.logRead seq count) s = .next { s with b := b } ∧
    ∃ rs : List LogRec, b = s.b.emit (.logRecords (rs.map LogRec.bytes)) ∧
      (∀ r, r ∈ rs ↔ r ∈ s.b.flash.log ∧ seq ≤ r.seq ∧ r.seq < seq + count) ∧ ∀ r ∈ rs, r.bytes.length = 64)) ∧
  (∀ (s : State) (cage watts : Nat), s.b.clk.j1Up = true → cage < 12 →
    let noted : Block → Prop := fun b => tabFind? cage b.ost.cages = some ⟨true, watts, decide (18 < watts)⟩ ∧
      ∀ c, c ≠ cage → tabFind? c b.ost.cages = tabFind? c s.b.ost.cages
    (watts ≤ 18 → s.b.laneOff cage = false → (∃ b, exec (.cageModulePlugged cage watts) s = .next { s with b := b } ∧
      noted b ∧ b = { s.b with ost := { s.b.ost with cages := b.ost.cages } })) ∧
    (watts ≤ 18 → s.b.laneOff cage = true → cage < 8 → s.b.solo = false → s.b.fenced 13 cage = false →
      s.b.clk.stage = .ready → (∃ b, exec (.cageModulePlugged cage watts) s = .next { s with b := b } ∧
      noted b ∧ b.port cage = { s.b.port cage with state := .training } ∧ ∀ q, q ≠ cage → b.port q = s.b.port q)) ∧
    (18 < watts → 8 ≤ cage → (∃ b, exec (.cageModulePlugged cage watts) s = .next { s with b := b } ∧
      noted b ∧ tabFind? (cage - 8) b.cb.dports = none ∧ b.ost.events.length = s.b.ost.events.length + 1 ∧
      b = { s.b with
        cb := { s.b.cb with dports := b.cb.dports }
        ost := { s.b.ost with cages := b.ost.cages, events := b.ost.events } })) ∧
    (18 < watts → cage < 8 → (∃ b, exec (.cageModulePlugged cage watts) s = .next { s with b := b } ∧
      noted b ∧ (b.port cage).state = .disabled ∧ s.b.ost.events.length < b.ost.events.length ∧ b.mem = s.b.mem ∧
      b.ctxs = s.b.ctxs))) ∧
  (∀ (s : State) (r : List Byte), s.b.clk.j1Up = true → r.length = 128 → recordRsvd r = true → recordOk r = true →
    fieldAt r 0 1 = 2 →
    (s.b.mainUp = true → 1 ≤ fieldAt r 0x10 2 → fieldAt r 0x10 2 ≤ 15 → (∃ b, exec (.order r) s = .next { s with b := b } ∧
      b = { s.b with host := { s.b.host with port := s.b.host.port ++ [⟨fieldAt r 0x10 2,
        ⟨.ostler, BitVec.ofNat 64 (fieldAt r 8 8), fieldAt r 0x1F 1, fieldAt r 0x18 7, r.drop 0x20⟩⟩] } })) ∧
    (s.b.mainUp = false → fieldAt r 0x10 2 ≠ 15 → (exec (.order r) s = .next { s with b := (s.b.orderReply .ostler (BitVec.ofNat 64 (fieldAt r 8 8)) Codes.ostMainOff 0) }))) ∧
  (∀ s : State, s.b.mainUp = true → s.b.clk.resetNow = false →
    (s.b.ost.updState = .idle ∨ s.b.ost.updState = .staged → (∃ b, exec .fetch s = .next { s with b := b } ∧
      b.ost.updState = .receiving ∧ b.ost.updSvn = 0 ∧ b.ost.updHost = true ∧ tabFind? s.b.flash.staging b.flash.images = none ∧ b.mem = s.b.mem)) ∧
    (s.b.ost.updState ≠ .idle → s.b.ost.updState ≠ .staged → (exec .fetch s = .next { s with b := ({ s.b with ost := { s.b.ost with updResult := 0x0B } }) })) ∧
    (s.b.ost.updState = .staged → (∃ b, exec .discard s = .next { s with b := b } ∧
      b.ost.updState = .idle ∧ tabFind? s.b.flash.staging b.flash.images = none ∧ b.mem = s.b.mem)) ∧
    (s.b.ost.updState ≠ .staged → (exec .discard s = .next { s with b := s.b }))) ∧
  (∀ s : State, s.b.clk.j1Up = true →
    (s.b.ost.updState = .idle ∨ s.b.ost.updState = .staged → (∃ b, exec .pldmTransfer s = .next { s with b := b } ∧
      b.ost.updState = .receiving ∧ b.ost.updHost = false ∧ b.host.out = s.b.host.out ++ [.pldm Codes.ok] ∧ b.mem = s.b.mem)) ∧
    (s.b.ost.updState ≠ .idle → s.b.ost.updState ≠ .staged → (exec .pldmTransfer s = .next { s with b := ({ s.b with
      ost := { s.b.ost with updResult := 0x0B }, host := { s.b.host with out := s.b.host.out ++ [.pldm Codes.updBusy] } }) })) ∧
    (s.b.ost.updState = .staged → (∃ b, exec .cancelUpdate s = .next { s with b := b } ∧
      b.ost.updState = .idle ∧ tabFind? s.b.flash.staging b.flash.images = none ∧
      b.host.out = s.b.host.out ++ [.pldm Codes.ok] ∧ b.mem = s.b.mem))) ∧
  (∀ s : State, s.b.clk.j1Up = true →
    (s.b.ost.updState = .receiving →
      (∀ ok svn len test, (∃ b, exec (.transferComplete (.image ok svn len test)) s = .next { s with b := b } ∧
        b.ost.updState = .verifying ∧ tabFind? s.b.flash.staging b.flash.images = some ⟨ok, svn, len, test, s.b.epoch + 1⟩ ∧
        (∀ i, i ≠ s.b.flash.staging → tabFind? i b.flash.images = tabFind? i s.b.flash.images) ∧ b.mem = s.b.mem)) ∧
      (∃ b, exec (.transferComplete .error) s = .next { s with b := b } ∧ b.ost.updState = .idle ∧ b.flash = s.b.flash ∧
        b.host.dmaErr = (if s.b.ost.updHost then sat32 s.b.host.dmaErr 1 else s.b.host.dmaErr) ∧ b.mem = s.b.mem)) ∧
    (s.b.ost.updState = .verifying →
      (s.b.imageOk s.b.flash.staging = true → (∃ b, exec .verificationComplete s = .next { s with b := b } ∧
        b.ost.updState = .staged ∧ b.ost.updResult = 0 ∧ b.ost.updSvn = (s.b.image s.b.flash.staging).svn ∧
        (b.host.attnOf pf0Page).getLsbD attnUpdateStaged = true ∧ b.flash = s.b.flash ∧ b.mem = s.b.mem)) ∧
      (s.b.imageOk s.b.flash.staging = false → (∃ b, exec .verificationComplete s = .next { s with b := b } ∧
        b.ost.updState = .idle ∧ b.ost.updResult = 0x0A ∧ tabFind? s.b.flash.staging b.flash.images = none ∧
        b.mem = s.b.mem)))) ∧
  (∀ s : State, s.b.orderPasses 2 ⟨.ostler, 0, 1, 0, List.replicate 96 0⟩ →
    (s.b.ost.updState ≠ .staged → (∃ b, exec .activateFirmware s = .next { s with b := b } ∧ Answered b ⟨.ostler, 0, 1, 0, List.replicate 96 0⟩ s Codes.updNone 0 fun b => b.flash = s.b.flash ∧ b.ost.updState = s.b.ost.updState ∧ b.mem = s.b.mem)) ∧
    (s.b.ost.updState = .staged → (∃ b, exec .activateFirmware s = .next { s with b := b } ∧
      b.flash.primary = s.b.flash.staging ∧ b.flash.backup = s.b.flash.primary ∧ b.flash.staging = s.b.flash.backup))) ∧
  (∀ (s : State) (chan slots : Nat), s.b.mainUp = true → chan < 8 → s.b.fenced 2 chan = false →
    let used := if s.b.ost.calWindow = s.b.ost.tick / 500000 then s.b.ost.calUsed else []
    (100000 < slots → (exec (.calibrationStep true chan slots) s = .next { s with b := (s.b.defer ⟨2, chan⟩) })) ∧
    (slots ≤ 100000 → tabGet 0 chan used + slots ≤ 100000 → (∃ b, exec (.calibrationStep true chan slots) s = .next { s with b := b } ∧
      tabGet 0 chan b.ost.calUsed = tabGet 0 chan used + slots ∧ b.ost.calWindow = s.b.ost.tick / 500000 ∧
      b = { s.b with ost := { s.b.ost with calWindow := b.ost.calWindow, calUsed := b.ost.calUsed } })) ∧
    (slots ≤ 100000 → 100000 < tabGet 0 chan used + slots → (exec (.calibrationStep true chan slots) s = .next { s with b := s.b }))) ∧
  (∀ (s : State) (k due : Nat), s.b.mainUp = true → k < 512 → s.b.fenced 1 k = false → k ∉ s.b.ost.withdrawn →
    s.b.testOf ⟨1, k⟩ = none →
    (s.b.mayWithdraw = true → (s.b.coach k).task = none → (exec (.maintenanceWithdrawal k due) s = .next { s with b := ({ s.b with ost := { s.b.ost with withdrawn := s.b.ost.withdrawn ++ [k] } }) })) ∧
    (s.b.mayWithdraw = false → due + s.b.ost.calDeferMs * 500000 ≤ s.b.ost.tick →
      (exec (.maintenanceWithdrawal k due) s = .next { s with b := (s.b.defer ⟨1, k⟩) })) ∧
    (s.b.mayWithdraw = false → s.b.ost.tick < due + s.b.ost.calDeferMs * 500000 →
      (exec (.maintenanceWithdrawal k due) s = .next { s with b := s.b }))) ∧
  (∀ (s : State) (k : Nat), k ∈ s.b.ost.withdrawn → s.b.testOf ⟨1, k⟩ = none → (∃ b, exec (.withdrawalEnd k) s = .next { s with b := b } ∧
    (∀ j, j ∈ b.ost.withdrawn ↔ j ∈ s.b.ost.withdrawn ∧ j ≠ k) ∧
    b = { s.b with ost := { s.b.ost with withdrawn := b.ost.withdrawn } }))
end

