-- ==== Sys2Proof/Laws/Tab.lean ====
section
/-!
SUPPORT. Laws/Tab.lean: the laws of the sorted tables: what is read after a write, that every update keeps the numbers strictly
rising, and that two such tables which answer alike are equal.
-/
namespace Sys2Proof.Machine

/-! ### What is read after an update -/

theorem tabFind?_cons {α : Type} (k j : Nat) (v : α) (t : Tab α) :
    tabFind? k ((j, v) :: t) = if k = j then some v else tabFind? k t := by rw [tabFind?]

@[simp] theorem tabFind?_tabSet_self {α : Type} (i : Nat) (v : α) (t : Tab α) : tabFind? i (tabSet i v t) = some v := by
  induction t with
  | nil => simp [tabSet, tabFind?]
  | cons c t ih =>
    obtain ⟨j, w⟩ := c
    rw [tabSet]
    split
    · simp [tabFind?]
    · split
      · simp [tabFind?]
      · rw [tabFind?_cons, if_neg ‹_›, ih]

theorem tabFind?_tabSet_ne {α : Type} {k i : Nat} (h : k ≠ i) (v : α) (t : Tab α) :
    tabFind? k (tabSet i v t) = tabFind? k t := by
  induction t with
  | nil => simp [tabSet, tabFind?, h]
  | cons c t ih =>
    obtain ⟨j, w⟩ := c
    rw [tabSet]
    split
    · rw [tabFind?_cons, if_neg h]
    · split
      · rename_i e; subst e; rw [tabFind?_cons, tabFind?_cons, if_neg h, if_neg h]
      · rw [tabFind?_cons, tabFind?_cons, ih]

/-- Reading `k` after a write at `i`. -/
theorem tabFind?_tabSet {α : Type} (k i : Nat) (v : α) (t : Tab α) :
    tabFind? k (tabSet i v t) = if k = i then some v else tabFind? k t := by
  split
  · rename_i e; subst e; exact tabFind?_tabSet_self _ _ _
  · exact tabFind?_tabSet_ne ‹_› _ _

theorem tabFind?_filter {α : Type} (q : Nat → Bool) (k : Nat) (t : Tab α) :
    tabFind? k (t.filter fun p => q p.1) = if q k then tabFind? k t else none := by
  induction t with
  | nil => simp [tabFind?]
  | cons c t ih =>
    obtain ⟨j, w⟩ := c
    rw [List.filter_cons]
    by_cases hj : q j = true
    · rw [if_pos hj, tabFind?_cons, tabFind?_cons, ih]
      by_cases e : k = j
      · subst e; simp [hj]
      · simp [e]
    · rw [if_neg hj, ih, tabFind?_cons]
      by_cases e : k = j
      · subst e; simp [hj]
      · simp [e]

/-- Reading `k` once the entry at `i` is taken out. -/
theorem tabFind?_tabErase {α : Type} (k i : Nat) (t : Tab α) :
    tabFind? k (tabErase i t) = if k = i then none else tabFind? k t := by
  rw [tabErase, tabFind?_filter (fun n => n != i)]
  by_cases e : k = i <;> simp [e]

/-- Putting a table in canonical form changes no reading. -/
@[simp] theorem tabFind?_tabCanon {α : Type} (k : Nat) (t : Tab α) : tabFind? k (tabCanon t) = tabFind? k t := by
  induction t with
  | nil => rfl
  | cons c t ih =>
    obtain ⟨j, w⟩ := c
    have e : tabCanon ((j, w) :: t) = tabSet j w (tabCanon t) := rfl
    rw [e, tabFind?_tabSet, ih, tabFind?_cons]

theorem tabGet_tabMod {α : Type} (d : α) (k i : Nat) (f : α → α) (t : Tab α) :
    tabGet d k (tabMod d i f t) = if k = i then f (tabGet d k t) else tabGet d k t := by
  unfold tabGet tabMod
  rw [tabFind?_tabSet]
  by_cases e : k = i
  · subst e; simp [tabGet]
  · simp [e]

@[simp] theorem tabGet_tabMod_self {α : Type} (d : α) (i : Nat) (f : α → α) (t : Tab α) :
    tabGet d i (tabMod d i f t) = f (tabGet d i t) := by rw [tabGet_tabMod, if_pos rfl]

theorem tabGet_tabMod_ne {α : Type} (d : α) {k i : Nat} (h : k ≠ i) (f : α → α) (t : Tab α) :
    tabGet d k (tabMod d i f t) = tabGet d k t := by rw [tabGet_tabMod, if_neg h]

/-! ### Every update keeps the numbers strictly rising -/

theorem tabWf_cons {α : Type} (i : Nat) (v : α) (t : Tab α) :
    tabWf ((i, v) :: t) = true ↔ (∀ p ∈ t, i < p.1) ∧ tabWf t = true := by
  induction t generalizing i v with
  | nil => simp [tabWf]
  | cons c t ih =>
    obtain ⟨j, w⟩ := c
    rw [tabWf, Bool.and_eq_true, decide_eq_true_eq]
    constructor
    · rintro ⟨hij, h⟩
      refine ⟨?_, h⟩
      intro p hp
      rcases List.mem_cons.1 hp with rfl | hp
      · exact hij
      · exact Nat.lt_trans hij (((ih j w).1 h).1 p hp)
    · rintro ⟨hall, h⟩
      exact ⟨hall (j, w) (List.mem_cons.2 (.inl rfl)), h⟩

theorem mem_tabSet {α : Type} {i : Nat} {v : α} {t : Tab α} {p : Nat × α} (h : p ∈ tabSet i v t) :
    p = (i, v) ∨ p ∈ t := by
  induction t with
  | nil => exact .inl (by simpa [tabSet] using h)
  | cons c t ih =>
    obtain ⟨j, w⟩ := c
    rw [tabSet] at h
    split at h
    · exact List.mem_cons.1 h
    · split at h
      · rcases List.mem_cons.1 h with h | h
        · exact .inl h
        · exact .inr (List.mem_cons_of_mem _ h)
      · rcases List.mem_cons.1 h with h | h
        · exact .inr (h ▸ List.mem_cons.2 (.inl rfl))
        · exact (ih h).imp id (List.mem_cons_of_mem _)

theorem tabSet_wf {α : Type} (i : Nat) (v : α) {t : Tab α} (h : tabWf t = true) : tabWf (tabSet i v t) = true := by
  induction t with
  | nil => rfl
  | cons c t ih =>
    obtain ⟨j, w⟩ := c
    have hc := (tabWf_cons j w t).1 h
    rw [tabSet]
    split
    · rename_i hij
      refine (tabWf_cons i v _).2 ⟨?_, h⟩
      intro p hp
      rcases List.mem_cons.1 hp with rfl | hp
      · exact hij
      · exact Nat.lt_trans hij (hc.1 p hp)
    · split
      · rename_i e; subst e; exact (tabWf_cons i v t).2 hc
      · refine (tabWf_cons j w _).2 ⟨?_, ih hc.2⟩
        intro p hp
        rcases mem_tabSet hp with rfl | hp
        · show j < i
          omega
        · exact hc.1 p hp

theorem tabFilter_wf {α : Type} (q : Nat × α → Bool) {t : Tab α} (h : tabWf t = true) : tabWf (t.filter q) = true := by
  induction t with
  | nil => rfl
  | cons c t ih =>
    obtain ⟨j, w⟩ := c
    have hc := (tabWf_cons j w t).1 h
    rw [List.filter_cons]
    split
    · exact (tabWf_cons j w _).2 ⟨fun p hp => hc.1 p (List.mem_filter.1 hp).1, ih hc.2⟩
    · exact ih hc.2

theorem tabErase_wf {α : Type} (i : Nat) {t : Tab α} (h : tabWf t = true) : tabWf (tabErase i t) = true :=
  tabFilter_wf _ h

theorem tabMod_wf {α : Type} (d : α) (i : Nat) (f : α → α) {t : Tab α} (h : tabWf t = true) :
    tabWf (tabMod d i f t) = true := tabSet_wf _ _ h

/-- The canonical form is one, whatever the table was. -/
theorem tabCanon_wf {α : Type} (t : Tab α) : tabWf (tabCanon t) = true := by
  induction t with
  | nil => rfl
  | cons c t ih => exact tabSet_wf c.1 c.2 ih

/-! ### Equal readings are equal tables -/

theorem tabFind?_eq_none_of_lt {α : Type} {i : Nat} {t : Tab α} (h : ∀ p ∈ t, i < p.1) : tabFind? i t = none := by
  induction t with
  | nil => rfl
  | cons c t ih =>
    obtain ⟨j, w⟩ := c
    have hj : i < j := h (j, w) (List.mem_cons.2 (.inl rfl))
    rw [tabFind?_cons, if_neg (by omega), ih fun p hp => h p (List.mem_cons_of_mem _ hp)]

theorem tab_ext {α : Type} {t u : Tab α} (ht : tabWf t = true) (hu : tabWf u = true)
    (h : ∀ k, tabFind? k t = tabFind? k u) : t = u := by
  induction t generalizing u with
  | nil =>
    cases u with
    | nil => rfl
    | cons c u => obtain ⟨j, w⟩ := c; have := h j; simp [tabFind?] at this
  | cons c t ih =>
    obtain ⟨i, v⟩ := c
    have hc := (tabWf_cons i v t).1 ht
    cases u with
    | nil => have := h i; simp [tabFind?] at this
    | cons d u =>
      obtain ⟨j, w⟩ := d
      have hd := (tabWf_cons j w u).1 hu
      have hij : i = j := by
        have hi := h i
        have hj := h j
        rw [tabFind?_cons, tabFind?_cons, if_pos rfl] at hi
        rw [tabFind?_cons, tabFind?_cons, if_pos rfl] at hj
        by_cases e : i = j
        · exact e
        · exfalso
          rw [if_neg e] at hi
          rw [if_neg (Ne.symm e)] at hj
          rcases Nat.lt_or_gt_of_ne e with l | l
          · rw [tabFind?_eq_none_of_lt fun p hp => Nat.lt_trans l (hd.1 p hp)] at hi; exact absurd hi (by simp)
          · rw [tabFind?_eq_none_of_lt fun p hp => Nat.lt_trans l (hc.1 p hp)] at hj; exact absurd hj (by simp)
      subst hij
      have hvw : v = w := by simpa [tabFind?] using h i
      subst hvw
      rw [ih hc.2 hd.2 fun k => ?_]
      have hk := h k
      rw [tabFind?_cons, tabFind?_cons] at hk
      by_cases e : k = i
      · subst e; rw [tabFind?_eq_none_of_lt hc.1, tabFind?_eq_none_of_lt hd.1]
      · simpa [e] using hk

/-- A table already in canonical form is its own canonical form. -/
theorem tabCanon_of_wf {α : Type} {t : Tab α} (h : tabWf t = true) : tabCanon t = t :=
  tab_ext (tabCanon_wf t) h fun k => tabFind?_tabCanon k t

end Sys2Proof.Machine
end

