-- ==== Sys2Proof/Laws/Memory.lean ====
section
/-!
SUPPORT. Laws/Memory.lean: the laws of memory by device address: a read after a write, what a write and an erasure leave
alone, and that each of them, and each command's outcome, keeps the canonical form.
-/
namespace Sys2Proof.Machine

/-! ### Canonical form -/

theorem writeCells_wf (m : List Host.Cell) (a : Nat) (xs : List Byte) (h : Memory.wf m = true) :
    Memory.wf (writeCells m a xs) = true := by
  induction xs generalizing m a with
  | nil => exact h
  | cons x xs ih => exact ih _ _ (tabSet_wf a x h)

theorem writeMem_wf (b : Block) (a : Nat) (xs : List Byte) (h : Memory.wf b.mem = true) :
    Memory.wf (b.writeMem a xs).mem = true := writeCells_wf b.mem a xs h

theorem eraseMem_wf (b : Block) (a n : Nat) (h : Memory.wf b.mem = true) : Memory.wf (b.eraseMem a n).mem = true :=
  tabFilter_wf _ h

/-- What a command leaves is in canonical form where it was before, whatever the command did to memory. -/
theorem settled_wf (old b : Block) (h : Memory.wf old.mem = true) : Memory.wf (Block.settled old b).mem = true := by
  show Memory.wf (if b.mem = old.mem then b.mem else tabCanon b.mem) = true
  split
  · rename_i e; rw [e]; exact h
  · exact tabCanon_wf b.mem

/-- Settling changes no reading of memory. -/
@[simp] theorem settled_find (old b : Block) (a : Nat) : tabFind? a (Block.settled old b).mem = tabFind? a b.mem := by
  show tabFind? a (if b.mem = old.mem then b.mem else tabCanon b.mem) = _
  split
  · rfl
  · exact tabFind?_tabCanon a b.mem

/-- Settling a block whose memory is canonical changes nothing. -/
theorem settled_of_wf (old b : Block) (h : Memory.wf b.mem = true) : Block.settled old b = b := by
  have e : (if b.mem = old.mem then b.mem else tabCanon b.mem) = b.mem := by
    split
    · rfl
    · exact tabCanon_of_wf h
  unfold Block.settled
  rw [e]

/-- Settling a block whose memory the command did not change changes nothing. -/
theorem settled_of_mem_eq (old b : Block) (h : b.mem = old.mem) : Block.settled old b = b := by
  unfold Block.settled
  rw [if_pos h]

/-! ### What is read after a write -/

/-- A write of bytes from `a` on: inside them the byte written, outside them what was there. -/
theorem tabFind?_writeCells (m : List Host.Cell) (a : Nat) (xs : List Byte) (k : Nat) :
    tabFind? k (writeCells m a xs) = if a ≤ k ∧ k < a + xs.length then xs[k - a]? else tabFind? k m := by
  induction xs generalizing m a with
  | nil => rw [if_neg (by simp only [List.length_nil]; omega)]; rfl
  | cons x xs ih =>
    show tabFind? k (writeCells (tabSet a x m) (a + 1) xs) = _
    rw [ih, tabFind?_tabSet, List.length_cons]
    by_cases e : k = a
    · subst e
      rw [if_neg (by omega), if_pos rfl, if_pos (by omega), Nat.sub_self]
      rfl
    · rw [if_neg e]
      by_cases hin : a + 1 ≤ k ∧ k < a + 1 + xs.length
      · rw [if_pos hin, if_pos (by omega), show k - a = (k - (a + 1)) + 1 by omega, List.getElem?_cons_succ]
      · rw [if_neg hin, if_neg (by omega)]

theorem tabFind?_writeMem (b : Block) (a : Nat) (xs : List Byte) (k : Nat) :
    tabFind? k (b.writeMem a xs).mem = if a ≤ k ∧ k < a + xs.length then xs[k - a]? else tabFind? k b.mem :=
  tabFind?_writeCells b.mem a xs k

/-- A byte outside the bytes written reads as before. -/
theorem readByte_writeMem_outside (b : Block) (a : Nat) (xs : List Byte) (k : Nat) (h : k < a ∨ a + xs.length ≤ k) :
    (b.writeMem a xs).readByte k = b.readByte k := by
  show (tabFind? k (b.writeMem a xs).mem).getD _ = _
  rw [tabFind?_writeMem, if_neg (by omega)]
  rfl

/-- A byte written reads as the byte written. -/
theorem readByte_writeMem_inside (b : Block) (a : Nat) (xs : List Byte) (i : Nat) (h : i < xs.length) :
    (b.writeMem a xs).readByte (a + i) = xs[i] := by
  show (tabFind? (a + i) (b.writeMem a xs).mem).getD _ = _
  rw [tabFind?_writeMem, if_pos (by omega), show a + i - a = i by omega, List.getElem?_eq_getElem h]
  rfl

/-- The bytes just written are read back. -/
theorem readMem_writeMem (b : Block) (a : Nat) (xs : List Byte) : (b.writeMem a xs).readMem a xs.length = xs := by
  apply List.ext_getElem
  · simp [Block.readMem]
  · intro i h1 h2
    simp only [Block.readMem, List.getElem_map, List.getElem_range]
    exact readByte_writeMem_inside b a xs i h2

/-- Erasure: nothing is listed inside, and outside all reads as before. -/
theorem tabFind?_eraseMem (b : Block) (a n k : Nat) :
    tabFind? k (b.eraseMem a n).mem = if a ≤ k ∧ k < a + n then none else tabFind? k b.mem := by
  show tabFind? k (b.mem.filter fun c => !(decide (a ≤ c.1) && decide (c.1 < a + n))) = _
  rw [tabFind?_filter (fun j => !(decide (a ≤ j) && decide (j < a + n)))]
  by_cases h : a ≤ k ∧ k < a + n
  · rw [if_pos h, if_neg]; simp [h.1, h.2]
  · rw [if_neg h, if_pos]
    by_cases h1 : a ≤ k
    · have h2 : ¬ k < a + n := fun h2 => h ⟨h1, h2⟩
      simp [h2]
    · simp [h1]

theorem readByte_eraseMem_outside (b : Block) (a n k : Nat) (h : k < a ∨ a + n ≤ k) :
    (b.eraseMem a n).readByte k = b.readByte k := by
  show (tabFind? k (b.eraseMem a n).mem).getD _ = _
  rw [tabFind?_eraseMem, if_neg (by omega)]
  rfl

/-- Poison after a write: a line of 64 bytes keeps it unless the write covers the whole line (R612). -/
theorem mem_clearPoison (p : List Nat) (a n l : Nat) :
    l ∈ clearPoison p a n ↔ l ∈ p ∧ ¬(a ≤ l * 64 ∧ l * 64 + 64 ≤ a + n) := by
  rw [clearPoison, List.mem_filter]
  by_cases h1 : a ≤ l * 64 <;> by_cases h2 : l * 64 + 64 ≤ a + n <;> simp [h1, h2]

/-! ### The outcome of a command -/

/-- A meaning written with `State.run` answers a next state, with the queue that it found. -/
theorem run_next (s : State) (f : Block → Block) : s.run f = .next { s with b := s.b.settled (f s.b) } := rfl

/-- The memory stays canonical through such a meaning. -/
theorem run_wf (s t : State) (f : Block → Block) (h : Memory.wf s.b.mem = true) (e : s.run f = .next t) :
    Memory.wf t.b.mem = true := by
  cases e
  exact settled_wf s.b (f s.b) h

/-- Such a meaning completes, and what it leaves is what `f` makes of the block, with its memory settled. -/
theorem completes_of_run {c : Instr} {s : State} {f : Block → Block} {P : Block → Prop} (e : exec c s = s.run f)
    (h : P (s.b.settled (f s.b))) : Completes c s P := ⟨_, e, rfl, h⟩

/-- The same where the command leaves memory alone: nothing is settled. -/
theorem completes_of_run_mem_eq {c : Instr} {s : State} {f : Block → Block} {P : Block → Prop} (e : exec c s = s.run f)
    (hm : (f s.b).mem = s.b.mem) (h : P (f s.b)) : Completes c s P :=
  completes_of_run e (by rw [settled_of_mem_eq s.b (f s.b) hm]; exact h)

end Sys2Proof.Machine
end

