-- ==== Sys2Proof/Laws/Links.lean ====
section
/-!
SUPPORT. Laws/Links.lean: what the two receivers (words of a team port, frames of a domain port) do with input that they do not
take.
-/
namespace Sys2Proof.Machine

/-- A port that is not UP, or a team out of lockstep, takes no word. -/
theorem recvWord_off (b : Block) (port ty : Nat) (w : LinkWord) (f : Block → Block)
    (h : b.portUp port = false ∨ b.cb.lockstep = false) : b.recvWord port ty w f = b := by
  unfold Block.recvWord
  rw [if_pos (by rcases h with h | h <;> simp [h])]

/-- A word that fails its checks acts as a failed word, whatever its TYPE (R552). -/
theorem recvWord_fails (b : Block) (port ty : Nat) (w : LinkWord) (f : Block → Block) (hu : b.portUp port = true)
    (hl : b.cb.lockstep = true) (h : b.wordOk w = false) : b.recvWord port ty w f = b.failWord port w := by
  unfold Block.recvWord
  rw [if_neg (by simp [hu, hl]), if_pos (by simp [h])]

/-- A row's receiver leaves a word of another TYPE to that TYPE's row. -/
theorem recvWord_other (b : Block) (port ty : Nat) (w : LinkWord) (f : Block → Block) (hu : b.portUp port = true)
    (hl : b.cb.lockstep = true) (h : b.wordOk w = true) (ht : w.type ≠ ty) : b.recvWord port ty w f = b := by
  unfold Block.recvWord
  rw [if_neg (by simp [hu, hl]), if_neg (by simp [h]), if_pos ht]

/-- A port that receives nothing takes no frame (R573). -/
theorem recvFrame_off (b : Block) (port kind : Nat) (f : DomFrame) (g : Block → Block)
    (h : b.domPort port = false) : b.recvFrame port kind f g = b := by
  unfold Block.recvFrame
  rw [if_pos (by simp [h])]

/-- A frame that fails its checks is counted and does nothing else (R575). -/
theorem recvFrame_bad (b : Block) (port kind : Nat) (f : DomFrame) (g : Block → Block)
    (hp : b.domPort port = true) (h : b.frameOk port f = false) :
    b.recvFrame port kind f g = { b with cb := { b.cb with domDrop := sat32 b.cb.domDrop 1 } } := by
  unfold Block.recvFrame
  rw [if_neg (by simp [hp]), if_pos (by simp [h])]

/-- A row's receiver leaves a frame of another KIND to that KIND's row. -/
theorem recvFrame_other (b : Block) (port kind : Nat) (f : DomFrame) (g : Block → Block) (hp : b.domPort port = true)
    (h : b.frameOk port f = true) (hk : f.kind ≠ kind) : b.recvFrame port kind f g = b := by
  unfold Block.recvFrame
  rw [if_neg (by simp [hp]), if_neg (by simp [h]), if_pos hk]

/-- An ACK frame moves the window and does nothing else (R576). -/
theorem recvFrame_ack (b : Block) (port : Nat) (f : DomFrame) (g : Block → Block) (hp : b.domPort port = true)
    (h : b.frameOk port f = true) (hk : f.kind = 3) : b.recvFrame port 3 f g = b.ackWindow f := by
  unfold Block.recvFrame
  rw [if_neg (by simp [hp]), if_neg (by simp [h]), if_neg (by simp [hk])]
  rfl

/-- A frame with content that is not the next one moves the window and is answered with the PSN that is expected (R576). -/
theorem recvFrame_again (b : Block) (port kind : Nat) (f : DomFrame) (g : Block → Block) (hp : b.domPort port = true)
    (h : b.frameOk port f = true) (hk : f.kind = kind) (hc : kind ≠ 3)
    (hs : f.psn ≠ ((b.ackWindow f).pair f.src).rxPsn) :
    b.recvFrame port kind f g =
      (b.ackWindow f).cbEmit (.domAck f.src ((b.ackWindow f).pair f.src).rxPsn) := by
  unfold Block.recvFrame
  rw [if_neg (by simp [hp]), if_neg (by simp [h]), if_neg (by simp [hk]), if_neg hc, if_pos hs]

/-- A frame with content that is the next one is acknowledged and acts (R576). -/
theorem recvFrame_next (b : Block) (port kind : Nat) (f : DomFrame) (g : Block → Block) (hp : b.domPort port = true)
    (h : b.frameOk port f = true) (hk : f.kind = kind) (hc : kind ≠ 3)
    (hs : f.psn = ((b.ackWindow f).pair f.src).rxPsn) :
    b.recvFrame port kind f g =
      g (((b.ackWindow f).modPair f.src fun p => { p with rxPsn := p.rxPsn + 1 }).cbEmit (.domAck f.src (f.psn + 1))) := by
  unfold Block.recvFrame
  rw [if_neg (by simp [hp]), if_neg (by simp [h]), if_neg (by simp [hk]), if_neg hc, if_neg (by simp [hs])]

end Sys2Proof.Machine
end

