-- ==== Sys2Proof/Laws/State.lean ====
section
/-!
SUPPORT. Laws/State.lean: for each of the shared updates of Machine/Ops.lean, one lemma for each part of the block that it leaves
alone, and what is read from the part that it changes.
-/
namespace Sys2Proof.Machine

/-! ### `Block.settled` -/

@[simp] theorem settled_clk (old b : Block) : (Block.settled old b).clk = b.clk := rfl
@[simp] theorem settled_flash (old b : Block) : (Block.settled old b).flash = b.flash := rfl
@[simp] theorem settled_ost (old b : Block) : (Block.settled old b).ost = b.ost := rfl
@[simp] theorem settled_rel (old b : Block) : (Block.settled old b).rel = b.rel := rfl
@[simp] theorem settled_sec (old b : Block) : (Block.settled old b).sec = b.sec := rfl
@[simp] theorem settled_host (old b : Block) : (Block.settled old b).host = b.host := rfl
@[simp] theorem settled_tp (old b : Block) : (Block.settled old b).tp = b.tp := rfl
@[simp] theorem settled_store (old b : Block) : (Block.settled old b).store = b.store := rfl
@[simp] theorem settled_mt (old b : Block) : (Block.settled old b).mt = b.mt := rfl
@[simp] theorem settled_ske (old b : Block) : (Block.settled old b).ske = b.ske := rfl
@[simp] theorem settled_txu (old b : Block) : (Block.settled old b).txu = b.txu := rfl
@[simp] theorem settled_slu (old b : Block) : (Block.settled old b).slu = b.slu := rfl
@[simp] theorem settled_rnu (old b : Block) : (Block.settled old b).rnu = b.rnu := rfl
@[simp] theorem settled_gtu (old b : Block) : (Block.settled old b).gtu = b.gtu := rfl
@[simp] theorem settled_sb (old b : Block) : (Block.settled old b).sb = b.sb := rfl
@[simp] theorem settled_dr (old b : Block) : (Block.settled old b).dr = b.dr := rfl
@[simp] theorem settled_cb (old b : Block) : (Block.settled old b).cb = b.cb := rfl
@[simp] theorem settled_tenants (old b : Block) : (Block.settled old b).tenants = b.tenants := rfl
@[simp] theorem settled_slotKeys (old b : Block) : (Block.settled old b).slotKeys = b.slotKeys := rfl
@[simp] theorem settled_ctxs (old b : Block) : (Block.settled old b).ctxs = b.ctxs := rfl
@[simp] theorem settled_otherQ (old b : Block) : (Block.settled old b).otherQ = b.otherQ := rfl
@[simp] theorem settled_arrivals (old b : Block) : (Block.settled old b).arrivals = b.arrivals := rfl
@[simp] theorem settled_coaches (old b : Block) : (Block.settled old b).coaches = b.coaches := rfl
@[simp] theorem settled_epoch (old b : Block) : (Block.settled old b).epoch = b.epoch := rfl

/-! ### `Block.setCtx` -/

@[simp] theorem setCtx_clk (b : Block) (n : Nat) (c : Ctx) : (b.setCtx n c).clk = b.clk := rfl
@[simp] theorem setCtx_flash (b : Block) (n : Nat) (c : Ctx) : (b.setCtx n c).flash = b.flash := rfl
@[simp] theorem setCtx_ost (b : Block) (n : Nat) (c : Ctx) : (b.setCtx n c).ost = b.ost := rfl
@[simp] theorem setCtx_rel (b : Block) (n : Nat) (c : Ctx) : (b.setCtx n c).rel = b.rel := rfl
@[simp] theorem setCtx_sec (b : Block) (n : Nat) (c : Ctx) : (b.setCtx n c).sec = b.sec := rfl
@[simp] theorem setCtx_host (b : Block) (n : Nat) (c : Ctx) : (b.setCtx n c).host = b.host := rfl
@[simp] theorem setCtx_tp (b : Block) (n : Nat) (c : Ctx) : (b.setCtx n c).tp = b.tp := rfl
@[simp] theorem setCtx_store (b : Block) (n : Nat) (c : Ctx) : (b.setCtx n c).store = b.store := rfl
@[simp] theorem setCtx_mt (b : Block) (n : Nat) (c : Ctx) : (b.setCtx n c).mt = b.mt := rfl
@[simp] theorem setCtx_ske (b : Block) (n : Nat) (c : Ctx) : (b.setCtx n c).ske = b.ske := rfl
@[simp] theorem setCtx_txu (b : Block) (n : Nat) (c : Ctx) : (b.setCtx n c).txu = b.txu := rfl
@[simp] theorem setCtx_slu (b : Block) (n : Nat) (c : Ctx) : (b.setCtx n c).slu = b.slu := rfl
@[simp] theorem setCtx_rnu (b : Block) (n : Nat) (c : Ctx) : (b.setCtx n c).rnu = b.rnu := rfl
@[simp] theorem setCtx_gtu (b : Block) (n : Nat) (c : Ctx) : (b.setCtx n c).gtu = b.gtu := rfl
@[simp] theorem setCtx_sb (b : Block) (n : Nat) (c : Ctx) : (b.setCtx n c).sb = b.sb := rfl
@[simp] theorem setCtx_dr (b : Block) (n : Nat) (c : Ctx) : (b.setCtx n c).dr = b.dr := rfl
@[simp] theorem setCtx_cb (b : Block) (n : Nat) (c : Ctx) : (b.setCtx n c).cb = b.cb := rfl
@[simp] theorem setCtx_tenants (b : Block) (n : Nat) (c : Ctx) : (b.setCtx n c).tenants = b.tenants := rfl
@[simp] theorem setCtx_slotKeys (b : Block) (n : Nat) (c : Ctx) : (b.setCtx n c).slotKeys = b.slotKeys := rfl
@[simp] theorem setCtx_otherQ (b : Block) (n : Nat) (c : Ctx) : (b.setCtx n c).otherQ = b.otherQ := rfl
@[simp] theorem setCtx_arrivals (b : Block) (n : Nat) (c : Ctx) : (b.setCtx n c).arrivals = b.arrivals := rfl
@[simp] theorem setCtx_coaches (b : Block) (n : Nat) (c : Ctx) : (b.setCtx n c).coaches = b.coaches := rfl
@[simp] theorem setCtx_mem (b : Block) (n : Nat) (c : Ctx) : (b.setCtx n c).mem = b.mem := rfl
@[simp] theorem setCtx_epoch (b : Block) (n : Nat) (c : Ctx) : (b.setCtx n c).epoch = b.epoch := rfl

/-! ### `Block.modCtx` -/

@[simp] theorem modCtx_clk (b : Block) (n : Nat) (f : Ctx → Ctx) : (b.modCtx n f).clk = b.clk := rfl
@[simp] theorem modCtx_flash (b : Block) (n : Nat) (f : Ctx → Ctx) : (b.modCtx n f).flash = b.flash := rfl
@[simp] theorem modCtx_ost (b : Block) (n : Nat) (f : Ctx → Ctx) : (b.modCtx n f).ost = b.ost := rfl
@[simp] theorem modCtx_rel (b : Block) (n : Nat) (f : Ctx → Ctx) : (b.modCtx n f).rel = b.rel := rfl
@[simp] theorem modCtx_sec (b : Block) (n : Nat) (f : Ctx → Ctx) : (b.modCtx n f).sec = b.sec := rfl
@[simp] theorem modCtx_host (b : Block) (n : Nat) (f : Ctx → Ctx) : (b.modCtx n f).host = b.host := rfl
@[simp] theorem modCtx_tp (b : Block) (n : Nat) (f : Ctx → Ctx) : (b.modCtx n f).tp = b.tp := rfl
@[simp] theorem modCtx_store (b : Block) (n : Nat) (f : Ctx → Ctx) : (b.modCtx n f).store = b.store := rfl
@[simp] theorem modCtx_mt (b : Block) (n : Nat) (f : Ctx → Ctx) : (b.modCtx n f).mt = b.mt := rfl
@[simp] theorem modCtx_ske (b : Block) (n : Nat) (f : Ctx → Ctx) : (b.modCtx n f).ske = b.ske := rfl
@[simp] theorem modCtx_txu (b : Block) (n : Nat) (f : Ctx → Ctx) : (b.modCtx n f).txu = b.txu := rfl
@[simp] theorem modCtx_slu (b : Block) (n : Nat) (f : Ctx → Ctx) : (b.modCtx n f).slu = b.slu := rfl
@[simp] theorem modCtx_rnu (b : Block) (n : Nat) (f : Ctx → Ctx) : (b.modCtx n f).rnu = b.rnu := rfl
@[simp] theorem modCtx_gtu (b : Block) (n : Nat) (f : Ctx → Ctx) : (b.modCtx n f).gtu = b.gtu := rfl
@[simp] theorem modCtx_sb (b : Block) (n : Nat) (f : Ctx → Ctx) : (b.modCtx n f).sb = b.sb := rfl
@[simp] theorem modCtx_dr (b : Block) (n : Nat) (f : Ctx → Ctx) : (b.modCtx n f).dr = b.dr := rfl
@[simp] theorem modCtx_cb (b : Block) (n : Nat) (f : Ctx → Ctx) : (b.modCtx n f).cb = b.cb := rfl
@[simp] theorem modCtx_tenants (b : Block) (n : Nat) (f : Ctx → Ctx) : (b.modCtx n f).tenants = b.tenants := rfl
@[simp] theorem modCtx_slotKeys (b : Block) (n : Nat) (f : Ctx → Ctx) : (b.modCtx n f).slotKeys = b.slotKeys := rfl
@[simp] theorem modCtx_otherQ (b : Block) (n : Nat) (f : Ctx → Ctx) : (b.modCtx n f).otherQ = b.otherQ := rfl
@[simp] theorem modCtx_arrivals (b : Block) (n : Nat) (f : Ctx → Ctx) : (b.modCtx n f).arrivals = b.arrivals := rfl
@[simp] theorem modCtx_coaches (b : Block) (n : Nat) (f : Ctx → Ctx) : (b.modCtx n f).coaches = b.coaches := rfl
@[simp] theorem modCtx_mem (b : Block) (n : Nat) (f : Ctx → Ctx) : (b.modCtx n f).mem = b.mem := rfl
@[simp] theorem modCtx_epoch (b : Block) (n : Nat) (f : Ctx → Ctx) : (b.modCtx n f).epoch = b.epoch := rfl

/-! ### `Block.modTen` -/

@[simp] theorem modTen_clk (b : Block) (t : Nat) (f : Tenant → Tenant) : (b.modTen t f).clk = b.clk := rfl
@[simp] theorem modTen_flash (b : Block) (t : Nat) (f : Tenant → Tenant) : (b.modTen t f).flash = b.flash := rfl
@[simp] theorem modTen_ost (b : Block) (t : Nat) (f : Tenant → Tenant) : (b.modTen t f).ost = b.ost := rfl
@[simp] theorem modTen_rel (b : Block) (t : Nat) (f : Tenant → Tenant) : (b.modTen t f).rel = b.rel := rfl
@[simp] theorem modTen_sec (b : Block) (t : Nat) (f : Tenant → Tenant) : (b.modTen t f).sec = b.sec := rfl
@[simp] theorem modTen_host (b : Block) (t : Nat) (f : Tenant → Tenant) : (b.modTen t f).host = b.host := rfl
@[simp] theorem modTen_tp (b : Block) (t : Nat) (f : Tenant → Tenant) : (b.modTen t f).tp = b.tp := rfl
@[simp] theorem modTen_store (b : Block) (t : Nat) (f : Tenant → Tenant) : (b.modTen t f).store = b.store := rfl
@[simp] theorem modTen_mt (b : Block) (t : Nat) (f : Tenant → Tenant) : (b.modTen t f).mt = b.mt := rfl
@[simp] theorem modTen_ske (b : Block) (t : Nat) (f : Tenant → Tenant) : (b.modTen t f).ske = b.ske := rfl
@[simp] theorem modTen_txu (b : Block) (t : Nat) (f : Tenant → Tenant) : (b.modTen t f).txu = b.txu := rfl
@[simp] theorem modTen_slu (b : Block) (t : Nat) (f : Tenant → Tenant) : (b.modTen t f).slu = b.slu := rfl
@[simp] theorem modTen_rnu (b : Block) (t : Nat) (f : Tenant → Tenant) : (b.modTen t f).rnu = b.rnu := rfl
@[simp] theorem modTen_gtu (b : Block) (t : Nat) (f : Tenant → Tenant) : (b.modTen t f).gtu = b.gtu := rfl
@[simp] theorem modTen_sb (b : Block) (t : Nat) (f : Tenant → Tenant) : (b.modTen t f).sb = b.sb := rfl
@[simp] theorem modTen_dr (b : Block) (t : Nat) (f : Tenant → Tenant) : (b.modTen t f).dr = b.dr := rfl
@[simp] theorem modTen_cb (b : Block) (t : Nat) (f : Tenant → Tenant) : (b.modTen t f).cb = b.cb := rfl
@[simp] theorem modTen_slotKeys (b : Block) (t : Nat) (f : Tenant → Tenant) : (b.modTen t f).slotKeys = b.slotKeys := rfl
@[simp] theorem modTen_ctxs (b : Block) (t : Nat) (f : Tenant → Tenant) : (b.modTen t f).ctxs = b.ctxs := rfl
@[simp] theorem modTen_otherQ (b : Block) (t : Nat) (f : Tenant → Tenant) : (b.modTen t f).otherQ = b.otherQ := rfl
@[simp] theorem modTen_arrivals (b : Block) (t : Nat) (f : Tenant → Tenant) : (b.modTen t f).arrivals = b.arrivals := rfl
@[simp] theorem modTen_coaches (b : Block) (t : Nat) (f : Tenant → Tenant) : (b.modTen t f).coaches = b.coaches := rfl
@[simp] theorem modTen_mem (b : Block) (t : Nat) (f : Tenant → Tenant) : (b.modTen t f).mem = b.mem := rfl
@[simp] theorem modTen_epoch (b : Block) (t : Nat) (f : Tenant → Tenant) : (b.modTen t f).epoch = b.epoch := rfl

/-! ### `Block.modCoach` -/

@[simp] theorem modCoach_clk (b : Block) (n : Nat) (f : Coach → Coach) : (b.modCoach n f).clk = b.clk := rfl
@[simp] theorem modCoach_flash (b : Block) (n : Nat) (f : Coach → Coach) : (b.modCoach n f).flash = b.flash := rfl
@[simp] theorem modCoach_ost (b : Block) (n : Nat) (f : Coach → Coach) : (b.modCoach n f).ost = b.ost := rfl
@[simp] theorem modCoach_rel (b : Block) (n : Nat) (f : Coach → Coach) : (b.modCoach n f).rel = b.rel := rfl
@[simp] theorem modCoach_sec (b : Block) (n : Nat) (f : Coach → Coach) : (b.modCoach n f).sec = b.sec := rfl
@[simp] theorem modCoach_host (b : Block) (n : Nat) (f : Coach → Coach) : (b.modCoach n f).host = b.host := rfl
@[simp] theorem modCoach_tp (b : Block) (n : Nat) (f : Coach → Coach) : (b.modCoach n f).tp = b.tp := rfl
@[simp] theorem modCoach_store (b : Block) (n : Nat) (f : Coach → Coach) : (b.modCoach n f).store = b.store := rfl
@[simp] theorem modCoach_mt (b : Block) (n : Nat) (f : Coach → Coach) : (b.modCoach n f).mt = b.mt := rfl
@[simp] theorem modCoach_ske (b : Block) (n : Nat) (f : Coach → Coach) : (b.modCoach n f).ske = b.ske := rfl
@[simp] theorem modCoach_txu (b : Block) (n : Nat) (f : Coach → Coach) : (b.modCoach n f).txu = b.txu := rfl
@[simp] theorem modCoach_slu (b : Block) (n : Nat) (f : Coach → Coach) : (b.modCoach n f).slu = b.slu := rfl
@[simp] theorem modCoach_rnu (b : Block) (n : Nat) (f : Coach → Coach) : (b.modCoach n f).rnu = b.rnu := rfl
@[simp] theorem modCoach_gtu (b : Block) (n : Nat) (f : Coach → Coach) : (b.modCoach n f).gtu = b.gtu := rfl
@[simp] theorem modCoach_sb (b : Block) (n : Nat) (f : Coach → Coach) : (b.modCoach n f).sb = b.sb := rfl
@[simp] theorem modCoach_dr (b : Block) (n : Nat) (f : Coach → Coach) : (b.modCoach n f).dr = b.dr := rfl
@[simp] theorem modCoach_cb (b : Block) (n : Nat) (f : Coach → Coach) : (b.modCoach n f).cb = b.cb := rfl
@[simp] theorem modCoach_tenants (b : Block) (n : Nat) (f : Coach → Coach) : (b.modCoach n f).tenants = b.tenants := rfl
@[simp] theorem modCoach_slotKeys (b : Block) (n : Nat) (f : Coach → Coach) : (b.modCoach n f).slotKeys = b.slotKeys := rfl
@[simp] theorem modCoach_ctxs (b : Block) (n : Nat) (f : Coach → Coach) : (b.modCoach n f).ctxs = b.ctxs := rfl
@[simp] theorem modCoach_otherQ (b : Block) (n : Nat) (f : Coach → Coach) : (b.modCoach n f).otherQ = b.otherQ := rfl
@[simp] theorem modCoach_arrivals (b : Block) (n : Nat) (f : Coach → Coach) : (b.modCoach n f).arrivals = b.arrivals := rfl
@[simp] theorem modCoach_mem (b : Block) (n : Nat) (f : Coach → Coach) : (b.modCoach n f).mem = b.mem := rfl
@[simp] theorem modCoach_epoch (b : Block) (n : Nat) (f : Coach → Coach) : (b.modCoach n f).epoch = b.epoch := rfl

/-! ### `Block.modPage` -/

@[simp] theorem modPage_clk (b : Block) (p : Nat) (f : Page → Page) : (b.modPage p f).clk = b.clk := rfl
@[simp] theorem modPage_flash (b : Block) (p : Nat) (f : Page → Page) : (b.modPage p f).flash = b.flash := rfl
@[simp] theorem modPage_ost (b : Block) (p : Nat) (f : Page → Page) : (b.modPage p f).ost = b.ost := rfl
@[simp] theorem modPage_rel (b : Block) (p : Nat) (f : Page → Page) : (b.modPage p f).rel = b.rel := rfl
@[simp] theorem modPage_sec (b : Block) (p : Nat) (f : Page → Page) : (b.modPage p f).sec = b.sec := rfl
@[simp] theorem modPage_tp (b : Block) (p : Nat) (f : Page → Page) : (b.modPage p f).tp = b.tp := rfl
@[simp] theorem modPage_store (b : Block) (p : Nat) (f : Page → Page) : (b.modPage p f).store = b.store := rfl
@[simp] theorem modPage_mt (b : Block) (p : Nat) (f : Page → Page) : (b.modPage p f).mt = b.mt := rfl
@[simp] theorem modPage_ske (b : Block) (p : Nat) (f : Page → Page) : (b.modPage p f).ske = b.ske := rfl
@[simp] theorem modPage_txu (b : Block) (p : Nat) (f : Page → Page) : (b.modPage p f).txu = b.txu := rfl
@[simp] theorem modPage_slu (b : Block) (p : Nat) (f : Page → Page) : (b.modPage p f).slu = b.slu := rfl
@[simp] theorem modPage_rnu (b : Block) (p : Nat) (f : Page → Page) : (b.modPage p f).rnu = b.rnu := rfl
@[simp] theorem modPage_gtu (b : Block) (p : Nat) (f : Page → Page) : (b.modPage p f).gtu = b.gtu := rfl
@[simp] theorem modPage_sb (b : Block) (p : Nat) (f : Page → Page) : (b.modPage p f).sb = b.sb := rfl
@[simp] theorem modPage_dr (b : Block) (p : Nat) (f : Page → Page) : (b.modPage p f).dr = b.dr := rfl
@[simp] theorem modPage_cb (b : Block) (p : Nat) (f : Page → Page) : (b.modPage p f).cb = b.cb := rfl
@[simp] theorem modPage_tenants (b : Block) (p : Nat) (f : Page → Page) : (b.modPage p f).tenants = b.tenants := rfl
@[simp] theorem modPage_slotKeys (b : Block) (p : Nat) (f : Page → Page) : (b.modPage p f).slotKeys = b.slotKeys := rfl
@[simp] theorem modPage_ctxs (b : Block) (p : Nat) (f : Page → Page) : (b.modPage p f).ctxs = b.ctxs := rfl
@[simp] theorem modPage_otherQ (b : Block) (p : Nat) (f : Page → Page) : (b.modPage p f).otherQ = b.otherQ := rfl
@[simp] theorem modPage_arrivals (b : Block) (p : Nat) (f : Page → Page) : (b.modPage p f).arrivals = b.arrivals := rfl
@[simp] theorem modPage_coaches (b : Block) (p : Nat) (f : Page → Page) : (b.modPage p f).coaches = b.coaches := rfl
@[simp] theorem modPage_mem (b : Block) (p : Nat) (f : Page → Page) : (b.modPage p f).mem = b.mem := rfl
@[simp] theorem modPage_epoch (b : Block) (p : Nat) (f : Page → Page) : (b.modPage p f).epoch = b.epoch := rfl

/-! ### `Block.modSlu` -/

@[simp] theorem modSlu_clk (b : Block) (q : Nat) (f : Slu → Slu) : (b.modSlu q f).clk = b.clk := rfl
@[simp] theorem modSlu_flash (b : Block) (q : Nat) (f : Slu → Slu) : (b.modSlu q f).flash = b.flash := rfl
@[simp] theorem modSlu_ost (b : Block) (q : Nat) (f : Slu → Slu) : (b.modSlu q f).ost = b.ost := rfl
@[simp] theorem modSlu_rel (b : Block) (q : Nat) (f : Slu → Slu) : (b.modSlu q f).rel = b.rel := rfl
@[simp] theorem modSlu_sec (b : Block) (q : Nat) (f : Slu → Slu) : (b.modSlu q f).sec = b.sec := rfl
@[simp] theorem modSlu_host (b : Block) (q : Nat) (f : Slu → Slu) : (b.modSlu q f).host = b.host := rfl
@[simp] theorem modSlu_tp (b : Block) (q : Nat) (f : Slu → Slu) : (b.modSlu q f).tp = b.tp := rfl
@[simp] theorem modSlu_store (b : Block) (q : Nat) (f : Slu → Slu) : (b.modSlu q f).store = b.store := rfl
@[simp] theorem modSlu_mt (b : Block) (q : Nat) (f : Slu → Slu) : (b.modSlu q f).mt = b.mt := rfl
@[simp] theorem modSlu_ske (b : Block) (q : Nat) (f : Slu → Slu) : (b.modSlu q f).ske = b.ske := rfl
@[simp] theorem modSlu_txu (b : Block) (q : Nat) (f : Slu → Slu) : (b.modSlu q f).txu = b.txu := rfl
@[simp] theorem modSlu_rnu (b : Block) (q : Nat) (f : Slu → Slu) : (b.modSlu q f).rnu = b.rnu := rfl
@[simp] theorem modSlu_gtu (b : Block) (q : Nat) (f : Slu → Slu) : (b.modSlu q f).gtu = b.gtu := rfl
@[simp] theorem modSlu_sb (b : Block) (q : Nat) (f : Slu → Slu) : (b.modSlu q f).sb = b.sb := rfl
@[simp] theorem modSlu_dr (b : Block) (q : Nat) (f : Slu → Slu) : (b.modSlu q f).dr = b.dr := rfl
@[simp] theorem modSlu_cb (b : Block) (q : Nat) (f : Slu → Slu) : (b.modSlu q f).cb = b.cb := rfl
@[simp] theorem modSlu_tenants (b : Block) (q : Nat) (f : Slu → Slu) : (b.modSlu q f).tenants = b.tenants := rfl
@[simp] theorem modSlu_slotKeys (b : Block) (q : Nat) (f : Slu → Slu) : (b.modSlu q f).slotKeys = b.slotKeys := rfl
@[simp] theorem modSlu_ctxs (b : Block) (q : Nat) (f : Slu → Slu) : (b.modSlu q f).ctxs = b.ctxs := rfl
@[simp] theorem modSlu_otherQ (b : Block) (q : Nat) (f : Slu → Slu) : (b.modSlu q f).otherQ = b.otherQ := rfl
@[simp] theorem modSlu_arrivals (b : Block) (q : Nat) (f : Slu → Slu) : (b.modSlu q f).arrivals = b.arrivals := rfl
@[simp] theorem modSlu_coaches (b : Block) (q : Nat) (f : Slu → Slu) : (b.modSlu q f).coaches = b.coaches := rfl
@[simp] theorem modSlu_mem (b : Block) (q : Nat) (f : Slu → Slu) : (b.modSlu q f).mem = b.mem := rfl
@[simp] theorem modSlu_epoch (b : Block) (q : Nat) (f : Slu → Slu) : (b.modSlu q f).epoch = b.epoch := rfl

/-! ### `Block.modRnu` -/

@[simp] theorem modRnu_clk (b : Block) (q : Nat) (f : Rnu → Rnu) : (b.modRnu q f).clk = b.clk := rfl
@[simp] theorem modRnu_flash (b : Block) (q : Nat) (f : Rnu → Rnu) : (b.modRnu q f).flash = b.flash := rfl
@[simp] theorem modRnu_ost (b : Block) (q : Nat) (f : Rnu → Rnu) : (b.modRnu q f).ost = b.ost := rfl
@[simp] theorem modRnu_rel (b : Block) (q : Nat) (f : Rnu → Rnu) : (b.modRnu q f).rel = b.rel := rfl
@[simp] theorem modRnu_sec (b : Block) (q : Nat) (f : Rnu → Rnu) : (b.modRnu q f).sec = b.sec := rfl
@[simp] theorem modRnu_host (b : Block) (q : Nat) (f : Rnu → Rnu) : (b.modRnu q f).host = b.host := rfl
@[simp] theorem modRnu_tp (b : Block) (q : Nat) (f : Rnu → Rnu) : (b.modRnu q f).tp = b.tp := rfl
@[simp] theorem modRnu_store (b : Block) (q : Nat) (f : Rnu → Rnu) : (b.modRnu q f).store = b.store := rfl
@[simp] theorem modRnu_mt (b : Block) (q : Nat) (f : Rnu → Rnu) : (b.modRnu q f).mt = b.mt := rfl
@[simp] theorem modRnu_ske (b : Block) (q : Nat) (f : Rnu → Rnu) : (b.modRnu q f).ske = b.ske := rfl
@[simp] theorem modRnu_txu (b : Block) (q : Nat) (f : Rnu → Rnu) : (b.modRnu q f).txu = b.txu := rfl
@[simp] theorem modRnu_slu (b : Block) (q : Nat) (f : Rnu → Rnu) : (b.modRnu q f).slu = b.slu := rfl
@[simp] theorem modRnu_gtu (b : Block) (q : Nat) (f : Rnu → Rnu) : (b.modRnu q f).gtu = b.gtu := rfl
@[simp] theorem modRnu_sb (b : Block) (q : Nat) (f : Rnu → Rnu) : (b.modRnu q f).sb = b.sb := rfl
@[simp] theorem modRnu_dr (b : Block) (q : Nat) (f : Rnu → Rnu) : (b.modRnu q f).dr = b.dr := rfl
@[simp] theorem modRnu_cb (b : Block) (q : Nat) (f : Rnu → Rnu) : (b.modRnu q f).cb = b.cb := rfl
@[simp] theorem modRnu_tenants (b : Block) (q : Nat) (f : Rnu → Rnu) : (b.modRnu q f).tenants = b.tenants := rfl
@[simp] theorem modRnu_slotKeys (b : Block) (q : Nat) (f : Rnu → Rnu) : (b.modRnu q f).slotKeys = b.slotKeys := rfl
@[simp] theorem modRnu_ctxs (b : Block) (q : Nat) (f : Rnu → Rnu) : (b.modRnu q f).ctxs = b.ctxs := rfl
@[simp] theorem modRnu_otherQ (b : Block) (q : Nat) (f : Rnu → Rnu) : (b.modRnu q f).otherQ = b.otherQ := rfl
@[simp] theorem modRnu_arrivals (b : Block) (q : Nat) (f : Rnu → Rnu) : (b.modRnu q f).arrivals = b.arrivals := rfl
@[simp] theorem modRnu_coaches (b : Block) (q : Nat) (f : Rnu → Rnu) : (b.modRnu q f).coaches = b.coaches := rfl
@[simp] theorem modRnu_mem (b : Block) (q : Nat) (f : Rnu → Rnu) : (b.modRnu q f).mem = b.mem := rfl
@[simp] theorem modRnu_epoch (b : Block) (q : Nat) (f : Rnu → Rnu) : (b.modRnu q f).epoch = b.epoch := rfl

/-! ### `Block.modGtu` -/

@[simp] theorem modGtu_clk (b : Block) (q : Nat) (f : Gtu → Gtu) : (b.modGtu q f).clk = b.clk := rfl
@[simp] theorem modGtu_flash (b : Block) (q : Nat) (f : Gtu → Gtu) : (b.modGtu q f).flash = b.flash := rfl
@[simp] theorem modGtu_ost (b : Block) (q : Nat) (f : Gtu → Gtu) : (b.modGtu q f).ost = b.ost := rfl
@[simp] theorem modGtu_rel (b : Block) (q : Nat) (f : Gtu → Gtu) : (b.modGtu q f).rel = b.rel := rfl
@[simp] theorem modGtu_sec (b : Block) (q : Nat) (f : Gtu → Gtu) : (b.modGtu q f).sec = b.sec := rfl
@[simp] theorem modGtu_host (b : Block) (q : Nat) (f : Gtu → Gtu) : (b.modGtu q f).host = b.host := rfl
@[simp] theorem modGtu_tp (b : Block) (q : Nat) (f : Gtu → Gtu) : (b.modGtu q f).tp = b.tp := rfl
@[simp] theorem modGtu_store (b : Block) (q : Nat) (f : Gtu → Gtu) : (b.modGtu q f).store = b.store := rfl
@[simp] theorem modGtu_mt (b : Block) (q : Nat) (f : Gtu → Gtu) : (b.modGtu q f).mt = b.mt := rfl
@[simp] theorem modGtu_ske (b : Block) (q : Nat) (f : Gtu → Gtu) : (b.modGtu q f).ske = b.ske := rfl
@[simp] theorem modGtu_txu (b : Block) (q : Nat) (f : Gtu → Gtu) : (b.modGtu q f).txu = b.txu := rfl
@[simp] theorem modGtu_slu (b : Block) (q : Nat) (f : Gtu → Gtu) : (b.modGtu q f).slu = b.slu := rfl
@[simp] theorem modGtu_rnu (b : Block) (q : Nat) (f : Gtu → Gtu) : (b.modGtu q f).rnu = b.rnu := rfl
@[simp] theorem modGtu_sb (b : Block) (q : Nat) (f : Gtu → Gtu) : (b.modGtu q f).sb = b.sb := rfl
@[simp] theorem modGtu_dr (b : Block) (q : Nat) (f : Gtu → Gtu) : (b.modGtu q f).dr = b.dr := rfl
@[simp] theorem modGtu_cb (b : Block) (q : Nat) (f : Gtu → Gtu) : (b.modGtu q f).cb = b.cb := rfl
@[simp] theorem modGtu_tenants (b : Block) (q : Nat) (f : Gtu → Gtu) : (b.modGtu q f).tenants = b.tenants := rfl
@[simp] theorem modGtu_slotKeys (b : Block) (q : Nat) (f : Gtu → Gtu) : (b.modGtu q f).slotKeys = b.slotKeys := rfl
@[simp] theorem modGtu_ctxs (b : Block) (q : Nat) (f : Gtu → Gtu) : (b.modGtu q f).ctxs = b.ctxs := rfl
@[simp] theorem modGtu_otherQ (b : Block) (q : Nat) (f : Gtu → Gtu) : (b.modGtu q f).otherQ = b.otherQ := rfl
@[simp] theorem modGtu_arrivals (b : Block) (q : Nat) (f : Gtu → Gtu) : (b.modGtu q f).arrivals = b.arrivals := rfl
@[simp] theorem modGtu_coaches (b : Block) (q : Nat) (f : Gtu → Gtu) : (b.modGtu q f).coaches = b.coaches := rfl
@[simp] theorem modGtu_mem (b : Block) (q : Nat) (f : Gtu → Gtu) : (b.modGtu q f).mem = b.mem := rfl
@[simp] theorem modGtu_epoch (b : Block) (q : Nat) (f : Gtu → Gtu) : (b.modGtu q f).epoch = b.epoch := rfl

/-! ### `Block.modPort` -/

@[simp] theorem modPort_clk (b : Block) (p : Nat) (f : Port → Port) : (b.modPort p f).clk = b.clk := rfl
@[simp] theorem modPort_flash (b : Block) (p : Nat) (f : Port → Port) : (b.modPort p f).flash = b.flash := rfl
@[simp] theorem modPort_ost (b : Block) (p : Nat) (f : Port → Port) : (b.modPort p f).ost = b.ost := rfl
@[simp] theorem modPort_rel (b : Block) (p : Nat) (f : Port → Port) : (b.modPort p f).rel = b.rel := rfl
@[simp] theorem modPort_sec (b : Block) (p : Nat) (f : Port → Port) : (b.modPort p f).sec = b.sec := rfl
@[simp] theorem modPort_host (b : Block) (p : Nat) (f : Port → Port) : (b.modPort p f).host = b.host := rfl
@[simp] theorem modPort_tp (b : Block) (p : Nat) (f : Port → Port) : (b.modPort p f).tp = b.tp := rfl
@[simp] theorem modPort_store (b : Block) (p : Nat) (f : Port → Port) : (b.modPort p f).store = b.store := rfl
@[simp] theorem modPort_mt (b : Block) (p : Nat) (f : Port → Port) : (b.modPort p f).mt = b.mt := rfl
@[simp] theorem modPort_ske (b : Block) (p : Nat) (f : Port → Port) : (b.modPort p f).ske = b.ske := rfl
@[simp] theorem modPort_txu (b : Block) (p : Nat) (f : Port → Port) : (b.modPort p f).txu = b.txu := rfl
@[simp] theorem modPort_slu (b : Block) (p : Nat) (f : Port → Port) : (b.modPort p f).slu = b.slu := rfl
@[simp] theorem modPort_rnu (b : Block) (p : Nat) (f : Port → Port) : (b.modPort p f).rnu = b.rnu := rfl
@[simp] theorem modPort_gtu (b : Block) (p : Nat) (f : Port → Port) : (b.modPort p f).gtu = b.gtu := rfl
@[simp] theorem modPort_sb (b : Block) (p : Nat) (f : Port → Port) : (b.modPort p f).sb = b.sb := rfl
@[simp] theorem modPort_dr (b : Block) (p : Nat) (f : Port → Port) : (b.modPort p f).dr = b.dr := rfl
@[simp] theorem modPort_tenants (b : Block) (p : Nat) (f : Port → Port) : (b.modPort p f).tenants = b.tenants := rfl
@[simp] theorem modPort_slotKeys (b : Block) (p : Nat) (f : Port → Port) : (b.modPort p f).slotKeys = b.slotKeys := rfl
@[simp] theorem modPort_ctxs (b : Block) (p : Nat) (f : Port → Port) : (b.modPort p f).ctxs = b.ctxs := rfl
@[simp] theorem modPort_otherQ (b : Block) (p : Nat) (f : Port → Port) : (b.modPort p f).otherQ = b.otherQ := rfl
@[simp] theorem modPort_arrivals (b : Block) (p : Nat) (f : Port → Port) : (b.modPort p f).arrivals = b.arrivals := rfl
@[simp] theorem modPort_coaches (b : Block) (p : Nat) (f : Port → Port) : (b.modPort p f).coaches = b.coaches := rfl
@[simp] theorem modPort_mem (b : Block) (p : Nat) (f : Port → Port) : (b.modPort p f).mem = b.mem := rfl
@[simp] theorem modPort_epoch (b : Block) (p : Nat) (f : Port → Port) : (b.modPort p f).epoch = b.epoch := rfl

/-! ### `Block.modEngine` -/

@[simp] theorem modEngine_clk (b : Block) (e : Nat) (f : Engine → Engine) : (b.modEngine e f).clk = b.clk := rfl
@[simp] theorem modEngine_flash (b : Block) (e : Nat) (f : Engine → Engine) : (b.modEngine e f).flash = b.flash := rfl
@[simp] theorem modEngine_ost (b : Block) (e : Nat) (f : Engine → Engine) : (b.modEngine e f).ost = b.ost := rfl
@[simp] theorem modEngine_rel (b : Block) (e : Nat) (f : Engine → Engine) : (b.modEngine e f).rel = b.rel := rfl
@[simp] theorem modEngine_sec (b : Block) (e : Nat) (f : Engine → Engine) : (b.modEngine e f).sec = b.sec := rfl
@[simp] theorem modEngine_host (b : Block) (e : Nat) (f : Engine → Engine) : (b.modEngine e f).host = b.host := rfl
@[simp] theorem modEngine_tp (b : Block) (e : Nat) (f : Engine → Engine) : (b.modEngine e f).tp = b.tp := rfl
@[simp] theorem modEngine_store (b : Block) (e : Nat) (f : Engine → Engine) : (b.modEngine e f).store = b.store := rfl
@[simp] theorem modEngine_mt (b : Block) (e : Nat) (f : Engine → Engine) : (b.modEngine e f).mt = b.mt := rfl
@[simp] theorem modEngine_txu (b : Block) (e : Nat) (f : Engine → Engine) : (b.modEngine e f).txu = b.txu := rfl
@[simp] theorem modEngine_slu (b : Block) (e : Nat) (f : Engine → Engine) : (b.modEngine e f).slu = b.slu := rfl
@[simp] theorem modEngine_rnu (b : Block) (e : Nat) (f : Engine → Engine) : (b.modEngine e f).rnu = b.rnu := rfl
@[simp] theorem modEngine_gtu (b : Block) (e : Nat) (f : Engine → Engine) : (b.modEngine e f).gtu = b.gtu := rfl
@[simp] theorem modEngine_sb (b : Block) (e : Nat) (f : Engine → Engine) : (b.modEngine e f).sb = b.sb := rfl
@[simp] theorem modEngine_dr (b : Block) (e : Nat) (f : Engine → Engine) : (b.modEngine e f).dr = b.dr := rfl
@[simp] theorem modEngine_cb (b : Block) (e : Nat) (f : Engine → Engine) : (b.modEngine e f).cb = b.cb := rfl
@[simp] theorem modEngine_tenants (b : Block) (e : Nat) (f : Engine → Engine) : (b.modEngine e f).tenants = b.tenants := rfl
@[simp] theorem modEngine_slotKeys (b : Block) (e : Nat) (f : Engine → Engine) : (b.modEngine e f).slotKeys = b.slotKeys := rfl
@[simp] theorem modEngine_ctxs (b : Block) (e : Nat) (f : Engine → Engine) : (b.modEngine e f).ctxs = b.ctxs := rfl
@[simp] theorem modEngine_otherQ (b : Block) (e : Nat) (f : Engine → Engine) : (b.modEngine e f).otherQ = b.otherQ := rfl
@[simp] theorem modEngine_arrivals (b : Block) (e : Nat) (f : Engine → Engine) : (b.modEngine e f).arrivals = b.arrivals := rfl
@[simp] theorem modEngine_coaches (b : Block) (e : Nat) (f : Engine → Engine) : (b.modEngine e f).coaches = b.coaches := rfl
@[simp] theorem modEngine_mem (b : Block) (e : Nat) (f : Engine → Engine) : (b.modEngine e f).mem = b.mem := rfl
@[simp] theorem modEngine_epoch (b : Block) (e : Nat) (f : Engine → Engine) : (b.modEngine e f).epoch = b.epoch := rfl

/-! ### `Block.modPair` -/

@[simp] theorem modPair_clk (b : Block) (m : Nat) (f : Pair → Pair) : (b.modPair m f).clk = b.clk := rfl
@[simp] theorem modPair_flash (b : Block) (m : Nat) (f : Pair → Pair) : (b.modPair m f).flash = b.flash := rfl
@[simp] theorem modPair_ost (b : Block) (m : Nat) (f : Pair → Pair) : (b.modPair m f).ost = b.ost := rfl
@[simp] theorem modPair_rel (b : Block) (m : Nat) (f : Pair → Pair) : (b.modPair m f).rel = b.rel := rfl
@[simp] theorem modPair_sec (b : Block) (m : Nat) (f : Pair → Pair) : (b.modPair m f).sec = b.sec := rfl
@[simp] theorem modPair_host (b : Block) (m : Nat) (f : Pair → Pair) : (b.modPair m f).host = b.host := rfl
@[simp] theorem modPair_tp (b : Block) (m : Nat) (f : Pair → Pair) : (b.modPair m f).tp = b.tp := rfl
@[simp] theorem modPair_store (b : Block) (m : Nat) (f : Pair → Pair) : (b.modPair m f).store = b.store := rfl
@[simp] theorem modPair_mt (b : Block) (m : Nat) (f : Pair → Pair) : (b.modPair m f).mt = b.mt := rfl
@[simp] theorem modPair_ske (b : Block) (m : Nat) (f : Pair → Pair) : (b.modPair m f).ske = b.ske := rfl
@[simp] theorem modPair_txu (b : Block) (m : Nat) (f : Pair → Pair) : (b.modPair m f).txu = b.txu := rfl
@[simp] theorem modPair_slu (b : Block) (m : Nat) (f : Pair → Pair) : (b.modPair m f).slu = b.slu := rfl
@[simp] theorem modPair_rnu (b : Block) (m : Nat) (f : Pair → Pair) : (b.modPair m f).rnu = b.rnu := rfl
@[simp] theorem modPair_gtu (b : Block) (m : Nat) (f : Pair → Pair) : (b.modPair m f).gtu = b.gtu := rfl
@[simp] theorem modPair_sb (b : Block) (m : Nat) (f : Pair → Pair) : (b.modPair m f).sb = b.sb := rfl
@[simp] theorem modPair_dr (b : Block) (m : Nat) (f : Pair → Pair) : (b.modPair m f).dr = b.dr := rfl
@[simp] theorem modPair_tenants (b : Block) (m : Nat) (f : Pair → Pair) : (b.modPair m f).tenants = b.tenants := rfl
@[simp] theorem modPair_slotKeys (b : Block) (m : Nat) (f : Pair → Pair) : (b.modPair m f).slotKeys = b.slotKeys := rfl
@[simp] theorem modPair_ctxs (b : Block) (m : Nat) (f : Pair → Pair) : (b.modPair m f).ctxs = b.ctxs := rfl
@[simp] theorem modPair_otherQ (b : Block) (m : Nat) (f : Pair → Pair) : (b.modPair m f).otherQ = b.otherQ := rfl
@[simp] theorem modPair_arrivals (b : Block) (m : Nat) (f : Pair → Pair) : (b.modPair m f).arrivals = b.arrivals := rfl
@[simp] theorem modPair_coaches (b : Block) (m : Nat) (f : Pair → Pair) : (b.modPair m f).coaches = b.coaches := rfl
@[simp] theorem modPair_mem (b : Block) (m : Nat) (f : Pair → Pair) : (b.modPair m f).mem = b.mem := rfl
@[simp] theorem modPair_epoch (b : Block) (m : Nat) (f : Pair → Pair) : (b.modPair m f).epoch = b.epoch := rfl

/-! ### `Block.emit` -/

@[simp] theorem emit_clk (b : Block) (o : HostOut) : (b.emit o).clk = b.clk := rfl
@[simp] theorem emit_flash (b : Block) (o : HostOut) : (b.emit o).flash = b.flash := rfl
@[simp] theorem emit_ost (b : Block) (o : HostOut) : (b.emit o).ost = b.ost := rfl
@[simp] theorem emit_rel (b : Block) (o : HostOut) : (b.emit o).rel = b.rel := rfl
@[simp] theorem emit_sec (b : Block) (o : HostOut) : (b.emit o).sec = b.sec := rfl
@[simp] theorem emit_tp (b : Block) (o : HostOut) : (b.emit o).tp = b.tp := rfl
@[simp] theorem emit_store (b : Block) (o : HostOut) : (b.emit o).store = b.store := rfl
@[simp] theorem emit_mt (b : Block) (o : HostOut) : (b.emit o).mt = b.mt := rfl
@[simp] theorem emit_ske (b : Block) (o : HostOut) : (b.emit o).ske = b.ske := rfl
@[simp] theorem emit_txu (b : Block) (o : HostOut) : (b.emit o).txu = b.txu := rfl
@[simp] theorem emit_slu (b : Block) (o : HostOut) : (b.emit o).slu = b.slu := rfl
@[simp] theorem emit_rnu (b : Block) (o : HostOut) : (b.emit o).rnu = b.rnu := rfl
@[simp] theorem emit_gtu (b : Block) (o : HostOut) : (b.emit o).gtu = b.gtu := rfl
@[simp] theorem emit_sb (b : Block) (o : HostOut) : (b.emit o).sb = b.sb := rfl
@[simp] theorem emit_dr (b : Block) (o : HostOut) : (b.emit o).dr = b.dr := rfl
@[simp] theorem emit_cb (b : Block) (o : HostOut) : (b.emit o).cb = b.cb := rfl
@[simp] theorem emit_tenants (b : Block) (o : HostOut) : (b.emit o).tenants = b.tenants := rfl
@[simp] theorem emit_slotKeys (b : Block) (o : HostOut) : (b.emit o).slotKeys = b.slotKeys := rfl
@[simp] theorem emit_ctxs (b : Block) (o : HostOut) : (b.emit o).ctxs = b.ctxs := rfl
@[simp] theorem emit_otherQ (b : Block) (o : HostOut) : (b.emit o).otherQ = b.otherQ := rfl
@[simp] theorem emit_arrivals (b : Block) (o : HostOut) : (b.emit o).arrivals = b.arrivals := rfl
@[simp] theorem emit_coaches (b : Block) (o : HostOut) : (b.emit o).coaches = b.coaches := rfl
@[simp] theorem emit_mem (b : Block) (o : HostOut) : (b.emit o).mem = b.mem := rfl
@[simp] theorem emit_epoch (b : Block) (o : HostOut) : (b.emit o).epoch = b.epoch := rfl

/-! ### `Block.cbEmit` -/

@[simp] theorem cbEmit_clk (b : Block) (o : CbOut) : (b.cbEmit o).clk = b.clk := rfl
@[simp] theorem cbEmit_flash (b : Block) (o : CbOut) : (b.cbEmit o).flash = b.flash := rfl
@[simp] theorem cbEmit_ost (b : Block) (o : CbOut) : (b.cbEmit o).ost = b.ost := rfl
@[simp] theorem cbEmit_rel (b : Block) (o : CbOut) : (b.cbEmit o).rel = b.rel := rfl
@[simp] theorem cbEmit_sec (b : Block) (o : CbOut) : (b.cbEmit o).sec = b.sec := rfl
@[simp] theorem cbEmit_host (b : Block) (o : CbOut) : (b.cbEmit o).host = b.host := rfl
@[simp] theorem cbEmit_tp (b : Block) (o : CbOut) : (b.cbEmit o).tp = b.tp := rfl
@[simp] theorem cbEmit_store (b : Block) (o : CbOut) : (b.cbEmit o).store = b.store := rfl
@[simp] theorem cbEmit_mt (b : Block) (o : CbOut) : (b.cbEmit o).mt = b.mt := rfl
@[simp] theorem cbEmit_ske (b : Block) (o : CbOut) : (b.cbEmit o).ske = b.ske := rfl
@[simp] theorem cbEmit_txu (b : Block) (o : CbOut) : (b.cbEmit o).txu = b.txu := rfl
@[simp] theorem cbEmit_slu (b : Block) (o : CbOut) : (b.cbEmit o).slu = b.slu := rfl
@[simp] theorem cbEmit_rnu (b : Block) (o : CbOut) : (b.cbEmit o).rnu = b.rnu := rfl
@[simp] theorem cbEmit_gtu (b : Block) (o : CbOut) : (b.cbEmit o).gtu = b.gtu := rfl
@[simp] theorem cbEmit_sb (b : Block) (o : CbOut) : (b.cbEmit o).sb = b.sb := rfl
@[simp] theorem cbEmit_dr (b : Block) (o : CbOut) : (b.cbEmit o).dr = b.dr := rfl
@[simp] theorem cbEmit_tenants (b : Block) (o : CbOut) : (b.cbEmit o).tenants = b.tenants := rfl
@[simp] theorem cbEmit_slotKeys (b : Block) (o : CbOut) : (b.cbEmit o).slotKeys = b.slotKeys := rfl
@[simp] theorem cbEmit_ctxs (b : Block) (o : CbOut) : (b.cbEmit o).ctxs = b.ctxs := rfl
@[simp] theorem cbEmit_otherQ (b : Block) (o : CbOut) : (b.cbEmit o).otherQ = b.otherQ := rfl
@[simp] theorem cbEmit_arrivals (b : Block) (o : CbOut) : (b.cbEmit o).arrivals = b.arrivals := rfl
@[simp] theorem cbEmit_coaches (b : Block) (o : CbOut) : (b.cbEmit o).coaches = b.coaches := rfl
@[simp] theorem cbEmit_mem (b : Block) (o : CbOut) : (b.cbEmit o).mem = b.mem := rfl
@[simp] theorem cbEmit_epoch (b : Block) (o : CbOut) : (b.cbEmit o).epoch = b.epoch := rfl

/-! ### `Block.nextEpoch` -/

@[simp] theorem nextEpoch_clk (b : Block) : (b.nextEpoch).clk = b.clk := rfl
@[simp] theorem nextEpoch_flash (b : Block) : (b.nextEpoch).flash = b.flash := rfl
@[simp] theorem nextEpoch_ost (b : Block) : (b.nextEpoch).ost = b.ost := rfl
@[simp] theorem nextEpoch_rel (b : Block) : (b.nextEpoch).rel = b.rel := rfl
@[simp] theorem nextEpoch_sec (b : Block) : (b.nextEpoch).sec = b.sec := rfl
@[simp] theorem nextEpoch_host (b : Block) : (b.nextEpoch).host = b.host := rfl
@[simp] theorem nextEpoch_tp (b : Block) : (b.nextEpoch).tp = b.tp := rfl
@[simp] theorem nextEpoch_store (b : Block) : (b.nextEpoch).store = b.store := rfl
@[simp] theorem nextEpoch_mt (b : Block) : (b.nextEpoch).mt = b.mt := rfl
@[simp] theorem nextEpoch_ske (b : Block) : (b.nextEpoch).ske = b.ske := rfl
@[simp] theorem nextEpoch_txu (b : Block) : (b.nextEpoch).txu = b.txu := rfl
@[simp] theorem nextEpoch_slu (b : Block) : (b.nextEpoch).slu = b.slu := rfl
@[simp] theorem nextEpoch_rnu (b : Block) : (b.nextEpoch).rnu = b.rnu := rfl
@[simp] theorem nextEpoch_gtu (b : Block) : (b.nextEpoch).gtu = b.gtu := rfl
@[simp] theorem nextEpoch_sb (b : Block) : (b.nextEpoch).sb = b.sb := rfl
@[simp] theorem nextEpoch_dr (b : Block) : (b.nextEpoch).dr = b.dr := rfl
@[simp] theorem nextEpoch_cb (b : Block) : (b.nextEpoch).cb = b.cb := rfl
@[simp] theorem nextEpoch_tenants (b : Block) : (b.nextEpoch).tenants = b.tenants := rfl
@[simp] theorem nextEpoch_slotKeys (b : Block) : (b.nextEpoch).slotKeys = b.slotKeys := rfl
@[simp] theorem nextEpoch_ctxs (b : Block) : (b.nextEpoch).ctxs = b.ctxs := rfl
@[simp] theorem nextEpoch_otherQ (b : Block) : (b.nextEpoch).otherQ = b.otherQ := rfl
@[simp] theorem nextEpoch_arrivals (b : Block) : (b.nextEpoch).arrivals = b.arrivals := rfl
@[simp] theorem nextEpoch_coaches (b : Block) : (b.nextEpoch).coaches = b.coaches := rfl
@[simp] theorem nextEpoch_mem (b : Block) : (b.nextEpoch).mem = b.mem := rfl

/-! ### `Block.attnSet` -/

@[simp] theorem attnSet_clk (b : Block) (n p : Nat) : (b.attnSet n p).clk = b.clk := rfl
@[simp] theorem attnSet_flash (b : Block) (n p : Nat) : (b.attnSet n p).flash = b.flash := rfl
@[simp] theorem attnSet_ost (b : Block) (n p : Nat) : (b.attnSet n p).ost = b.ost := rfl
@[simp] theorem attnSet_rel (b : Block) (n p : Nat) : (b.attnSet n p).rel = b.rel := rfl
@[simp] theorem attnSet_sec (b : Block) (n p : Nat) : (b.attnSet n p).sec = b.sec := rfl
@[simp] theorem attnSet_tp (b : Block) (n p : Nat) : (b.attnSet n p).tp = b.tp := rfl
@[simp] theorem attnSet_store (b : Block) (n p : Nat) : (b.attnSet n p).store = b.store := rfl
@[simp] theorem attnSet_mt (b : Block) (n p : Nat) : (b.attnSet n p).mt = b.mt := rfl
@[simp] theorem attnSet_ske (b : Block) (n p : Nat) : (b.attnSet n p).ske = b.ske := rfl
@[simp] theorem attnSet_txu (b : Block) (n p : Nat) : (b.attnSet n p).txu = b.txu := rfl
@[simp] theorem attnSet_slu (b : Block) (n p : Nat) : (b.attnSet n p).slu = b.slu := rfl
@[simp] theorem attnSet_rnu (b : Block) (n p : Nat) : (b.attnSet n p).rnu = b.rnu := rfl
@[simp] theorem attnSet_gtu (b : Block) (n p : Nat) : (b.attnSet n p).gtu = b.gtu := rfl
@[simp] theorem attnSet_sb (b : Block) (n p : Nat) : (b.attnSet n p).sb = b.sb := rfl
@[simp] theorem attnSet_dr (b : Block) (n p : Nat) : (b.attnSet n p).dr = b.dr := rfl
@[simp] theorem attnSet_cb (b : Block) (n p : Nat) : (b.attnSet n p).cb = b.cb := rfl
@[simp] theorem attnSet_tenants (b : Block) (n p : Nat) : (b.attnSet n p).tenants = b.tenants := rfl
@[simp] theorem attnSet_slotKeys (b : Block) (n p : Nat) : (b.attnSet n p).slotKeys = b.slotKeys := rfl
@[simp] theorem attnSet_ctxs (b : Block) (n p : Nat) : (b.attnSet n p).ctxs = b.ctxs := rfl
@[simp] theorem attnSet_otherQ (b : Block) (n p : Nat) : (b.attnSet n p).otherQ = b.otherQ := rfl
@[simp] theorem attnSet_arrivals (b : Block) (n p : Nat) : (b.attnSet n p).arrivals = b.arrivals := rfl
@[simp] theorem attnSet_coaches (b : Block) (n p : Nat) : (b.attnSet n p).coaches = b.coaches := rfl
@[simp] theorem attnSet_mem (b : Block) (n p : Nat) : (b.attnSet n p).mem = b.mem := rfl
@[simp] theorem attnSet_epoch (b : Block) (n p : Nat) : (b.attnSet n p).epoch = b.epoch := rfl

/-! ### `Block.attnPf0` -/

@[simp] theorem attnPf0_clk (b : Block) (n : Nat) : (b.attnPf0 n).clk = b.clk := rfl
@[simp] theorem attnPf0_flash (b : Block) (n : Nat) : (b.attnPf0 n).flash = b.flash := rfl
@[simp] theorem attnPf0_ost (b : Block) (n : Nat) : (b.attnPf0 n).ost = b.ost := rfl
@[simp] theorem attnPf0_rel (b : Block) (n : Nat) : (b.attnPf0 n).rel = b.rel := rfl
@[simp] theorem attnPf0_sec (b : Block) (n : Nat) : (b.attnPf0 n).sec = b.sec := rfl
@[simp] theorem attnPf0_tp (b : Block) (n : Nat) : (b.attnPf0 n).tp = b.tp := rfl
@[simp] theorem attnPf0_store (b : Block) (n : Nat) : (b.attnPf0 n).store = b.store := rfl
@[simp] theorem attnPf0_mt (b : Block) (n : Nat) : (b.attnPf0 n).mt = b.mt := rfl
@[simp] theorem attnPf0_ske (b : Block) (n : Nat) : (b.attnPf0 n).ske = b.ske := rfl
@[simp] theorem attnPf0_txu (b : Block) (n : Nat) : (b.attnPf0 n).txu = b.txu := rfl
@[simp] theorem attnPf0_slu (b : Block) (n : Nat) : (b.attnPf0 n).slu = b.slu := rfl
@[simp] theorem attnPf0_rnu (b : Block) (n : Nat) : (b.attnPf0 n).rnu = b.rnu := rfl
@[simp] theorem attnPf0_gtu (b : Block) (n : Nat) : (b.attnPf0 n).gtu = b.gtu := rfl
@[simp] theorem attnPf0_sb (b : Block) (n : Nat) : (b.attnPf0 n).sb = b.sb := rfl
@[simp] theorem attnPf0_dr (b : Block) (n : Nat) : (b.attnPf0 n).dr = b.dr := rfl
@[simp] theorem attnPf0_cb (b : Block) (n : Nat) : (b.attnPf0 n).cb = b.cb := rfl
@[simp] theorem attnPf0_tenants (b : Block) (n : Nat) : (b.attnPf0 n).tenants = b.tenants := rfl
@[simp] theorem attnPf0_slotKeys (b : Block) (n : Nat) : (b.attnPf0 n).slotKeys = b.slotKeys := rfl
@[simp] theorem attnPf0_ctxs (b : Block) (n : Nat) : (b.attnPf0 n).ctxs = b.ctxs := rfl
@[simp] theorem attnPf0_otherQ (b : Block) (n : Nat) : (b.attnPf0 n).otherQ = b.otherQ := rfl
@[simp] theorem attnPf0_arrivals (b : Block) (n : Nat) : (b.attnPf0 n).arrivals = b.arrivals := rfl
@[simp] theorem attnPf0_coaches (b : Block) (n : Nat) : (b.attnPf0 n).coaches = b.coaches := rfl
@[simp] theorem attnPf0_mem (b : Block) (n : Nat) : (b.attnPf0 n).mem = b.mem := rfl
@[simp] theorem attnPf0_epoch (b : Block) (n : Nat) : (b.attnPf0 n).epoch = b.epoch := rfl

/-! ### `Block.attnTen` -/

@[simp] theorem attnTen_clk (b : Block) (n t : Nat) : (b.attnTen n t).clk = b.clk := rfl
@[simp] theorem attnTen_flash (b : Block) (n t : Nat) : (b.attnTen n t).flash = b.flash := rfl
@[simp] theorem attnTen_ost (b : Block) (n t : Nat) : (b.attnTen n t).ost = b.ost := rfl
@[simp] theorem attnTen_rel (b : Block) (n t : Nat) : (b.attnTen n t).rel = b.rel := rfl
@[simp] theorem attnTen_sec (b : Block) (n t : Nat) : (b.attnTen n t).sec = b.sec := rfl
@[simp] theorem attnTen_tp (b : Block) (n t : Nat) : (b.attnTen n t).tp = b.tp := rfl
@[simp] theorem attnTen_store (b : Block) (n t : Nat) : (b.attnTen n t).store = b.store := rfl
@[simp] theorem attnTen_mt (b : Block) (n t : Nat) : (b.attnTen n t).mt = b.mt := rfl
@[simp] theorem attnTen_ske (b : Block) (n t : Nat) : (b.attnTen n t).ske = b.ske := rfl
@[simp] theorem attnTen_txu (b : Block) (n t : Nat) : (b.attnTen n t).txu = b.txu := rfl
@[simp] theorem attnTen_slu (b : Block) (n t : Nat) : (b.attnTen n t).slu = b.slu := rfl
@[simp] theorem attnTen_rnu (b : Block) (n t : Nat) : (b.attnTen n t).rnu = b.rnu := rfl
@[simp] theorem attnTen_gtu (b : Block) (n t : Nat) : (b.attnTen n t).gtu = b.gtu := rfl
@[simp] theorem attnTen_sb (b : Block) (n t : Nat) : (b.attnTen n t).sb = b.sb := rfl
@[simp] theorem attnTen_dr (b : Block) (n t : Nat) : (b.attnTen n t).dr = b.dr := rfl
@[simp] theorem attnTen_cb (b : Block) (n t : Nat) : (b.attnTen n t).cb = b.cb := rfl
@[simp] theorem attnTen_tenants (b : Block) (n t : Nat) : (b.attnTen n t).tenants = b.tenants := rfl
@[simp] theorem attnTen_slotKeys (b : Block) (n t : Nat) : (b.attnTen n t).slotKeys = b.slotKeys := rfl
@[simp] theorem attnTen_ctxs (b : Block) (n t : Nat) : (b.attnTen n t).ctxs = b.ctxs := rfl
@[simp] theorem attnTen_otherQ (b : Block) (n t : Nat) : (b.attnTen n t).otherQ = b.otherQ := rfl
@[simp] theorem attnTen_arrivals (b : Block) (n t : Nat) : (b.attnTen n t).arrivals = b.arrivals := rfl
@[simp] theorem attnTen_coaches (b : Block) (n t : Nat) : (b.attnTen n t).coaches = b.coaches := rfl
@[simp] theorem attnTen_mem (b : Block) (n t : Nat) : (b.attnTen n t).mem = b.mem := rfl
@[simp] theorem attnTen_epoch (b : Block) (n t : Nat) : (b.attnTen n t).epoch = b.epoch := rfl

/-! ### `Block.writeMem` -/

@[simp] theorem writeMem_clk (b : Block) (a : Nat) (xs : List Byte) : (b.writeMem a xs).clk = b.clk := rfl
@[simp] theorem writeMem_flash (b : Block) (a : Nat) (xs : List Byte) : (b.writeMem a xs).flash = b.flash := rfl
@[simp] theorem writeMem_ost (b : Block) (a : Nat) (xs : List Byte) : (b.writeMem a xs).ost = b.ost := rfl
@[simp] theorem writeMem_sec (b : Block) (a : Nat) (xs : List Byte) : (b.writeMem a xs).sec = b.sec := rfl
@[simp] theorem writeMem_host (b : Block) (a : Nat) (xs : List Byte) : (b.writeMem a xs).host = b.host := rfl
@[simp] theorem writeMem_tp (b : Block) (a : Nat) (xs : List Byte) : (b.writeMem a xs).tp = b.tp := rfl
@[simp] theorem writeMem_store (b : Block) (a : Nat) (xs : List Byte) : (b.writeMem a xs).store = b.store := rfl
@[simp] theorem writeMem_mt (b : Block) (a : Nat) (xs : List Byte) : (b.writeMem a xs).mt = b.mt := rfl
@[simp] theorem writeMem_ske (b : Block) (a : Nat) (xs : List Byte) : (b.writeMem a xs).ske = b.ske := rfl
@[simp] theorem writeMem_txu (b : Block) (a : Nat) (xs : List Byte) : (b.writeMem a xs).txu = b.txu := rfl
@[simp] theorem writeMem_slu (b : Block) (a : Nat) (xs : List Byte) : (b.writeMem a xs).slu = b.slu := rfl
@[simp] theorem writeMem_rnu (b : Block) (a : Nat) (xs : List Byte) : (b.writeMem a xs).rnu = b.rnu := rfl
@[simp] theorem writeMem_gtu (b : Block) (a : Nat) (xs : List Byte) : (b.writeMem a xs).gtu = b.gtu := rfl
@[simp] theorem writeMem_sb (b : Block) (a : Nat) (xs : List Byte) : (b.writeMem a xs).sb = b.sb := rfl
@[simp] theorem writeMem_dr (b : Block) (a : Nat) (xs : List Byte) : (b.writeMem a xs).dr = b.dr := rfl
@[simp] theorem writeMem_cb (b : Block) (a : Nat) (xs : List Byte) : (b.writeMem a xs).cb = b.cb := rfl
@[simp] theorem writeMem_tenants (b : Block) (a : Nat) (xs : List Byte) : (b.writeMem a xs).tenants = b.tenants := rfl
@[simp] theorem writeMem_slotKeys (b : Block) (a : Nat) (xs : List Byte) : (b.writeMem a xs).slotKeys = b.slotKeys := rfl
@[simp] theorem writeMem_ctxs (b : Block) (a : Nat) (xs : List Byte) : (b.writeMem a xs).ctxs = b.ctxs := rfl
@[simp] theorem writeMem_otherQ (b : Block) (a : Nat) (xs : List Byte) : (b.writeMem a xs).otherQ = b.otherQ := rfl
@[simp] theorem writeMem_arrivals (b : Block) (a : Nat) (xs : List Byte) : (b.writeMem a xs).arrivals = b.arrivals := rfl
@[simp] theorem writeMem_coaches (b : Block) (a : Nat) (xs : List Byte) : (b.writeMem a xs).coaches = b.coaches := rfl
@[simp] theorem writeMem_epoch (b : Block) (a : Nat) (xs : List Byte) : (b.writeMem a xs).epoch = b.epoch := rfl

/-! ### `Block.eraseMem` -/

@[simp] theorem eraseMem_clk (b : Block) (a n : Nat) : (b.eraseMem a n).clk = b.clk := rfl
@[simp] theorem eraseMem_flash (b : Block) (a n : Nat) : (b.eraseMem a n).flash = b.flash := rfl
@[simp] theorem eraseMem_ost (b : Block) (a n : Nat) : (b.eraseMem a n).ost = b.ost := rfl
@[simp] theorem eraseMem_sec (b : Block) (a n : Nat) : (b.eraseMem a n).sec = b.sec := rfl
@[simp] theorem eraseMem_host (b : Block) (a n : Nat) : (b.eraseMem a n).host = b.host := rfl
@[simp] theorem eraseMem_tp (b : Block) (a n : Nat) : (b.eraseMem a n).tp = b.tp := rfl
@[simp] theorem eraseMem_store (b : Block) (a n : Nat) : (b.eraseMem a n).store = b.store := rfl
@[simp] theorem eraseMem_mt (b : Block) (a n : Nat) : (b.eraseMem a n).mt = b.mt := rfl
@[simp] theorem eraseMem_ske (b : Block) (a n : Nat) : (b.eraseMem a n).ske = b.ske := rfl
@[simp] theorem eraseMem_txu (b : Block) (a n : Nat) : (b.eraseMem a n).txu = b.txu := rfl
@[simp] theorem eraseMem_slu (b : Block) (a n : Nat) : (b.eraseMem a n).slu = b.slu := rfl
@[simp] theorem eraseMem_rnu (b : Block) (a n : Nat) : (b.eraseMem a n).rnu = b.rnu := rfl
@[simp] theorem eraseMem_gtu (b : Block) (a n : Nat) : (b.eraseMem a n).gtu = b.gtu := rfl
@[simp] theorem eraseMem_sb (b : Block) (a n : Nat) : (b.eraseMem a n).sb = b.sb := rfl
@[simp] theorem eraseMem_dr (b : Block) (a n : Nat) : (b.eraseMem a n).dr = b.dr := rfl
@[simp] theorem eraseMem_cb (b : Block) (a n : Nat) : (b.eraseMem a n).cb = b.cb := rfl
@[simp] theorem eraseMem_tenants (b : Block) (a n : Nat) : (b.eraseMem a n).tenants = b.tenants := rfl
@[simp] theorem eraseMem_slotKeys (b : Block) (a n : Nat) : (b.eraseMem a n).slotKeys = b.slotKeys := rfl
@[simp] theorem eraseMem_ctxs (b : Block) (a n : Nat) : (b.eraseMem a n).ctxs = b.ctxs := rfl
@[simp] theorem eraseMem_otherQ (b : Block) (a n : Nat) : (b.eraseMem a n).otherQ = b.otherQ := rfl
@[simp] theorem eraseMem_arrivals (b : Block) (a n : Nat) : (b.eraseMem a n).arrivals = b.arrivals := rfl
@[simp] theorem eraseMem_coaches (b : Block) (a n : Nat) : (b.eraseMem a n).coaches = b.coaches := rfl
@[simp] theorem eraseMem_epoch (b : Block) (a n : Nat) : (b.eraseMem a n).epoch = b.epoch := rfl

/-! ### `Block.domSend` -/

@[simp] theorem domSend_clk (b : Block) (m : Nat) (o : CbOut) : (b.domSend m o).clk = b.clk := rfl
@[simp] theorem domSend_flash (b : Block) (m : Nat) (o : CbOut) : (b.domSend m o).flash = b.flash := rfl
@[simp] theorem domSend_ost (b : Block) (m : Nat) (o : CbOut) : (b.domSend m o).ost = b.ost := rfl
@[simp] theorem domSend_rel (b : Block) (m : Nat) (o : CbOut) : (b.domSend m o).rel = b.rel := rfl
@[simp] theorem domSend_sec (b : Block) (m : Nat) (o : CbOut) : (b.domSend m o).sec = b.sec := rfl
@[simp] theorem domSend_host (b : Block) (m : Nat) (o : CbOut) : (b.domSend m o).host = b.host := rfl
@[simp] theorem domSend_tp (b : Block) (m : Nat) (o : CbOut) : (b.domSend m o).tp = b.tp := rfl
@[simp] theorem domSend_store (b : Block) (m : Nat) (o : CbOut) : (b.domSend m o).store = b.store := rfl
@[simp] theorem domSend_mt (b : Block) (m : Nat) (o : CbOut) : (b.domSend m o).mt = b.mt := rfl
@[simp] theorem domSend_ske (b : Block) (m : Nat) (o : CbOut) : (b.domSend m o).ske = b.ske := rfl
@[simp] theorem domSend_txu (b : Block) (m : Nat) (o : CbOut) : (b.domSend m o).txu = b.txu := rfl
@[simp] theorem domSend_slu (b : Block) (m : Nat) (o : CbOut) : (b.domSend m o).slu = b.slu := rfl
@[simp] theorem domSend_rnu (b : Block) (m : Nat) (o : CbOut) : (b.domSend m o).rnu = b.rnu := rfl
@[simp] theorem domSend_gtu (b : Block) (m : Nat) (o : CbOut) : (b.domSend m o).gtu = b.gtu := rfl
@[simp] theorem domSend_sb (b : Block) (m : Nat) (o : CbOut) : (b.domSend m o).sb = b.sb := rfl
@[simp] theorem domSend_dr (b : Block) (m : Nat) (o : CbOut) : (b.domSend m o).dr = b.dr := rfl
@[simp] theorem domSend_tenants (b : Block) (m : Nat) (o : CbOut) : (b.domSend m o).tenants = b.tenants := rfl
@[simp] theorem domSend_slotKeys (b : Block) (m : Nat) (o : CbOut) : (b.domSend m o).slotKeys = b.slotKeys := rfl
@[simp] theorem domSend_ctxs (b : Block) (m : Nat) (o : CbOut) : (b.domSend m o).ctxs = b.ctxs := rfl
@[simp] theorem domSend_otherQ (b : Block) (m : Nat) (o : CbOut) : (b.domSend m o).otherQ = b.otherQ := rfl
@[simp] theorem domSend_arrivals (b : Block) (m : Nat) (o : CbOut) : (b.domSend m o).arrivals = b.arrivals := rfl
@[simp] theorem domSend_coaches (b : Block) (m : Nat) (o : CbOut) : (b.domSend m o).coaches = b.coaches := rfl
@[simp] theorem domSend_mem (b : Block) (m : Nat) (o : CbOut) : (b.domSend m o).mem = b.mem := rfl
@[simp] theorem domSend_epoch (b : Block) (m : Nat) (o : CbOut) : (b.domSend m o).epoch = b.epoch := rfl

/-! ### `Block.log` -/

@[simp] theorem log_clk (b : Block) (cls severity : Nat) (c : Code) (u : Option UnitId) (t : Option Nat) (d : Nat) : (b.log cls severity c u t d).clk = b.clk := rfl
@[simp] theorem log_flash (b : Block) (cls severity : Nat) (c : Code) (u : Option UnitId) (t : Option Nat) (d : Nat) : (b.log cls severity c u t d).flash = b.flash := rfl
@[simp] theorem log_rel (b : Block) (cls severity : Nat) (c : Code) (u : Option UnitId) (t : Option Nat) (d : Nat) : (b.log cls severity c u t d).rel = b.rel := rfl
@[simp] theorem log_sec (b : Block) (cls severity : Nat) (c : Code) (u : Option UnitId) (t : Option Nat) (d : Nat) : (b.log cls severity c u t d).sec = b.sec := rfl
@[simp] theorem log_host (b : Block) (cls severity : Nat) (c : Code) (u : Option UnitId) (t : Option Nat) (d : Nat) : (b.log cls severity c u t d).host = b.host := rfl
@[simp] theorem log_tp (b : Block) (cls severity : Nat) (c : Code) (u : Option UnitId) (t : Option Nat) (d : Nat) : (b.log cls severity c u t d).tp = b.tp := rfl
@[simp] theorem log_store (b : Block) (cls severity : Nat) (c : Code) (u : Option UnitId) (t : Option Nat) (d : Nat) : (b.log cls severity c u t d).store = b.store := rfl
@[simp] theorem log_mt (b : Block) (cls severity : Nat) (c : Code) (u : Option UnitId) (t : Option Nat) (d : Nat) : (b.log cls severity c u t d).mt = b.mt := rfl
@[simp] theorem log_ske (b : Block) (cls severity : Nat) (c : Code) (u : Option UnitId) (t : Option Nat) (d : Nat) : (b.log cls severity c u t d).ske = b.ske := rfl
@[simp] theorem log_txu (b : Block) (cls severity : Nat) (c : Code) (u : Option UnitId) (t : Option Nat) (d : Nat) : (b.log cls severity c u t d).txu = b.txu := rfl
@[simp] theorem log_slu (b : Block) (cls severity : Nat) (c : Code) (u : Option UnitId) (t : Option Nat) (d : Nat) : (b.log cls severity c u t d).slu = b.slu := rfl
@[simp] theorem log_rnu (b : Block) (cls severity : Nat) (c : Code) (u : Option UnitId) (t : Option Nat) (d : Nat) : (b.log cls severity c u t d).rnu = b.rnu := rfl
@[simp] theorem log_gtu (b : Block) (cls severity : Nat) (c : Code) (u : Option UnitId) (t : Option Nat) (d : Nat) : (b.log cls severity c u t d).gtu = b.gtu := rfl
@[simp] theorem log_sb (b : Block) (cls severity : Nat) (c : Code) (u : Option UnitId) (t : Option Nat) (d : Nat) : (b.log cls severity c u t d).sb = b.sb := rfl
@[simp] theorem log_dr (b : Block) (cls severity : Nat) (c : Code) (u : Option UnitId) (t : Option Nat) (d : Nat) : (b.log cls severity c u t d).dr = b.dr := rfl
@[simp] theorem log_cb (b : Block) (cls severity : Nat) (c : Code) (u : Option UnitId) (t : Option Nat) (d : Nat) : (b.log cls severity c u t d).cb = b.cb := rfl
@[simp] theorem log_tenants (b : Block) (cls severity : Nat) (c : Code) (u : Option UnitId) (t : Option Nat) (d : Nat) : (b.log cls severity c u t d).tenants = b.tenants := rfl
@[simp] theorem log_slotKeys (b : Block) (cls severity : Nat) (c : Code) (u : Option UnitId) (t : Option Nat) (d : Nat) : (b.log cls severity c u t d).slotKeys = b.slotKeys := rfl
@[simp] theorem log_ctxs (b : Block) (cls severity : Nat) (c : Code) (u : Option UnitId) (t : Option Nat) (d : Nat) : (b.log cls severity c u t d).ctxs = b.ctxs := rfl
@[simp] theorem log_otherQ (b : Block) (cls severity : Nat) (c : Code) (u : Option UnitId) (t : Option Nat) (d : Nat) : (b.log cls severity c u t d).otherQ = b.otherQ := rfl
@[simp] theorem log_arrivals (b : Block) (cls severity : Nat) (c : Code) (u : Option UnitId) (t : Option Nat) (d : Nat) : (b.log cls severity c u t d).arrivals = b.arrivals := rfl
@[simp] theorem log_coaches (b : Block) (cls severity : Nat) (c : Code) (u : Option UnitId) (t : Option Nat) (d : Nat) : (b.log cls severity c u t d).coaches = b.coaches := rfl
@[simp] theorem log_mem (b : Block) (cls severity : Nat) (c : Code) (u : Option UnitId) (t : Option Nat) (d : Nat) : (b.log cls severity c u t d).mem = b.mem := rfl
@[simp] theorem log_epoch (b : Block) (cls severity : Nat) (c : Code) (u : Option UnitId) (t : Option Nat) (d : Nat) : (b.log cls severity c u t d).epoch = b.epoch := rfl

/-! ### What is read after an update of one entry -/

theorem modSlu_sluQ (b : Block) (i k : Nat) (f : Slu → Slu) :
    (b.modSlu i f).sluQ k = if k = i then f (b.sluQ k) else b.sluQ k := tabGet_tabMod _ k i f _
@[simp] theorem modSlu_sluQ_self (b : Block) (i : Nat) (f : Slu → Slu) : (b.modSlu i f).sluQ i = f (b.sluQ i) :=
  tabGet_tabMod_self _ i f _

theorem modRnu_rnuQ (b : Block) (i k : Nat) (f : Rnu → Rnu) :
    (b.modRnu i f).rnuQ k = if k = i then f (b.rnuQ k) else b.rnuQ k := tabGet_tabMod _ k i f _
@[simp] theorem modRnu_rnuQ_self (b : Block) (i : Nat) (f : Rnu → Rnu) : (b.modRnu i f).rnuQ i = f (b.rnuQ i) :=
  tabGet_tabMod_self _ i f _

theorem modGtu_gtuQ (b : Block) (i k : Nat) (f : Gtu → Gtu) :
    (b.modGtu i f).gtuQ k = if k = i then f (b.gtuQ k) else b.gtuQ k := tabGet_tabMod _ k i f _
@[simp] theorem modGtu_gtuQ_self (b : Block) (i : Nat) (f : Gtu → Gtu) : (b.modGtu i f).gtuQ i = f (b.gtuQ i) :=
  tabGet_tabMod_self _ i f _

theorem modPair_pair (b : Block) (i k : Nat) (f : Pair → Pair) :
    (b.modPair i f).pair k = if k = i then f (b.pair k) else b.pair k := tabGet_tabMod _ k i f _
@[simp] theorem modPair_pair_self (b : Block) (i : Nat) (f : Pair → Pair) : (b.modPair i f).pair i = f (b.pair i) :=
  tabGet_tabMod_self _ i f _

theorem modPage_page (b : Block) (i k : Nat) (f : Page → Page) :
    (b.modPage i f).page k = if k = i then f (b.page k) else b.page k := tabGet_tabMod _ k i f _
@[simp] theorem modPage_page_self (b : Block) (i : Nat) (f : Page → Page) : (b.modPage i f).page i = f (b.page i) :=
  tabGet_tabMod_self _ i f _

theorem modPort_port (b : Block) (i k : Nat) (f : Port → Port) :
    (b.modPort i f).port k = if k = i then f (b.port k) else b.port k := tabGet_tabMod _ k i f _
@[simp] theorem modPort_port_self (b : Block) (i : Nat) (f : Port → Port) : (b.modPort i f).port i = f (b.port i) :=
  tabGet_tabMod_self _ i f _

theorem modTen_ten (b : Block) (i k : Nat) (f : Tenant → Tenant) :
    (b.modTen i f).ten k = if k = i then f (b.ten k) else b.ten k := tabGet_tabMod _ k i f _
@[simp] theorem modTen_ten_self (b : Block) (i : Nat) (f : Tenant → Tenant) : (b.modTen i f).ten i = f (b.ten i) :=
  tabGet_tabMod_self _ i f _

theorem modCoach_coach (b : Block) (i k : Nat) (f : Coach → Coach) :
    (b.modCoach i f).coach k = if k = i then f (b.coach k) else b.coach k := tabGet_tabMod _ k i f _
@[simp] theorem modCoach_coach_self (b : Block) (i : Nat) (f : Coach → Coach) : (b.modCoach i f).coach i = f (b.coach i) :=
  tabGet_tabMod_self _ i f _

theorem modEngine_engine (b : Block) (i k : Nat) (f : Engine → Engine) :
    (b.modEngine i f).engine k = if k = i then f (b.engine k) else b.engine k := by
  by_cases h : k = i
  · subst h; rw [if_pos rfl]; exact tabGet_tabMod_self _ k f _
  · rw [if_neg h]
    show tabGet (Engine.new k) k (tabSet i _ b.ske.engines) = _
    unfold tabGet
    rw [tabFind?_tabSet_ne h]
    rfl

theorem setCtx_ctx_ne (b : Block) {n k : Nat} (h : k ≠ n) (c : Ctx) : (b.setCtx n c).ctx k = b.ctx k := by
  show tabGet Ctx.new k (if c.state = .free then tabErase n b.ctxs else tabSet n c b.ctxs) = _
  split
  · unfold tabGet; rw [tabFind?_tabErase, if_neg h]; rfl
  · unfold tabGet; rw [tabFind?_tabSet_ne h]; rfl

theorem setCtx_ctx_self (b : Block) (n : Nat) (c : Ctx) (h : c.state ≠ .free) : (b.setCtx n c).ctx n = c := by
  show tabGet Ctx.new n (if c.state = .free then tabErase n b.ctxs else tabSet n c b.ctxs) = _
  rw [if_neg h]
  unfold tabGet
  rw [tabFind?_tabSet_self]
  rfl

/-- A context table entry written FREE reads as an entry never allocated. -/
theorem setCtx_ctx_free (b : Block) (n : Nat) (c : Ctx) (h : c.state = .free) : (b.setCtx n c).ctx n = Ctx.new := by
  show tabGet Ctx.new n (if c.state = .free then tabErase n b.ctxs else tabSet n c b.ctxs) = _
  rw [if_pos h]
  unfold tabGet
  rw [tabFind?_tabErase, if_pos rfl]
  rfl

end Sys2Proof.Machine
end

