-- ==== Sys2Proof/Laws/Words.lean ====
section
/-!
SUPPORT. Laws/Words.lean: a sealed word passes its CRC check, and a lane's descrambler takes back what its scrambler did.
-/
namespace Sys2Proof

open Sys2Proof.Machine

@[simp] theorem LinkWord.sealed_type (w : LinkWord) : w.sealed.type = w.type := by cases w; unfold LinkWord.sealed; rfl
@[simp] theorem LinkWord.sealed_cycle (w : LinkWord) : w.sealed.cycle = w.cycle := by cases w; unfold LinkWord.sealed; rfl
theorem LinkWord.sealed_crc (w : LinkWord) : w.sealed.crc = w.crcOf := by unfold LinkWord.sealed; rfl
@[simp] theorem LinkWord.sealed_crcOf (w : LinkWord) : w.sealed.crcOf = w.crcOf := by
  unfold LinkWord.sealed LinkWord.crcOf LinkWord.covered LinkWord.header LinkWord.trailerTop
  rfl
@[simp] theorem LinkWord.sealed_crcOk (w : LinkWord) : w.sealed.crcOk = true := by
  unfold LinkWord.crcOk
  rw [LinkWord.sealed_crcOf, LinkWord.sealed_crc]
  exact beq_self_eq_true _

/-- A word that a port sealed passes the receiver's checks if its TYPE and CYCLE do (R549). -/
theorem Machine.Block.wordOk_sealed (b : Block) (w : LinkWord) (ht : w.type < 10)
    (hc : w.cycle = (b.cb.linkCycle + 65536 * 64 - b.cb.l) % 65536) : b.wordOk w.sealed = true := by
  simp [Block.wordOk, ht, hc]

theorem Machine.Block.wordOk_cycle (b : Block) (w : LinkWord)
    (hc : w.cycle ≠ (b.cb.linkCycle + 65536 * 64 - b.cb.l) % 65536) : b.wordOk w = false := by
  simp [Block.wordOk, hc]

/-- A word whose CRC bits are all wrong fails (R549). -/
theorem Machine.Block.wordOk_crc (b : Block) (w : LinkWord) : b.wordOk { w with crc := ~~~w.crcOf } = false := by
  have h : LinkWord.crcOf { w with crc := ~~~w.crcOf } = w.crcOf := by
    unfold LinkWord.crcOf LinkWord.covered LinkWord.header LinkWord.trailerTop
    rfl
  have n : ∀ x : BitVec 32, ¬(~~~x = x) := by
    intro x e
    have := congrArg (fun y => y.getLsbD 0) e
    simp at this
  unfold Block.wordOk LinkWord.crcOk
  rw [h]
  simp [n]

/-- Descrambling what was scrambled from the same 58 bits gives the bits (R547). -/
theorem descramble_scramble (xs : List Bool) (s : List Bool) : descramble s (scramble s xs) = xs := by
  induction xs generalizing s with
  | nil => rfl
  | cons x xs ih => 
    rw [scramble, descramble, ih]
    rw [Bool.xor_assoc, Bool.xor_self, Bool.xor_false]

end Sys2Proof
end

