-- ==== Sys2Proof/Tests/Slice0.lean ====
section
/-!
SUPPORT. Tests/Slice0.lean: ill-formed terms that WellFormed refuses, small steps with results worked out from the spec by
hand, and for each statement with hypotheses a state and operands that meet them.
-/
namespace Sys2Proof.Tests
open Sys2Proof Sys2Proof.Machine

-- One theorem after another: many at once take a thread each, and their stacks fill the memory of the check.
set_option Elab.async false


/-- A module in READY with its PLL locked, open straps. -/
def ready : Block :=
  { Block.new with clk := { Block.new.clk with
    j1Up := true, mainOn := true, mated := true, perstHigh := true, locked := true, stage := .ready } }

/-- A state with an empty queue. -/
def st (b : Block) : State := ⟨[], b⟩

/-- The state after a step. -/
def next (s : State) : State :=
  match step s with
  | .next t => t
  | _ => s

/-- An order of tag 7 with operand bytes `ops` from offset 0x20 on. -/
def ord (i : Issuer) (kind target : Nat) (ops : List Byte) : OrderIn := ⟨i, 7, kind, target, (ops ++ List.replicate 96 0).take 96⟩

/-- Tenant 3, ON, with contexts 32 to 63 and large quotas. -/
def tenant3 : Tenant :=
  { Tenant.new with
    state := .on, dtid := 0x33, ctxBase := 32, ctxCount := 32, memKey := true, hintOk := true
    quota := ⟨2 ^ 40, 2 ^ 40, 1000, 1000, 100, false, false, false⟩, chBudget := 2 ^ 20 }

/-- A request whose first reply has its reservation. -/
def req0 : Req := { reqOf (List.replicate 128 0) 0 with admitted := true, reservation := true }

/-- `ready` with tenant 3 ON, contexts 32 (RUNNING, at PC 4) and 63 (IDLE) of it, a strongbox slot, and bytes in HBM and DDR. -/
def busy : Block :=
  { ready with
    tenants := [(3, tenant3)]
    ctxs := [(32, { Ctx.new with tenant := 3, state := .running, pc := 4, req := some req0 }), (63, { Ctx.new with tenant := 3, state := .idle })]
    coaches := [(2, { Coach.new with tenant := 3 })]
    sb := { ready.sb with slots := [(slotKey 3 0, ⟨List.replicate 4096 1, false, none, none, 8, 0⟩)] }
    mem := [(0x010000000000, 7), (0x020000000000, 9)] }

/-- `n` bytes with fields (offset, bytes, value) set. -/
def fields (n : Nat) (fs : List (Nat × Nat × Nat)) : List Byte := fs.foldl (fun r f => putField r f.1 f.2.1 f.2.2) (List.replicate n 0)

/-- Operand bytes of an order, by their offsets in the record. -/
def ops (fs : List (Nat × Nat × Nat)) : List Byte := fields 96 (fs.map fun f => (f.1 - 0x20, f.2))

/-- Memory cells of bytes from an address on. -/
def cells (a : Nat) (xs : List Byte) : List Host.Cell := xs.zipIdx.map fun p => (a + p.2, p.1)

/-- A LIVE object of tenant 3: HBM at 0x0100_0000_0000 or DDR at 0x0200_0000_0000, 1 MiB. -/
def object (kind : Nat) (hbm : Bool) (decl : Option ModelDecl) : Obj :=
  ⟨kind, hbm, 0, 0x100000, if hbm then 0x010000000000 else 0x020000000000, .live, false, decl⟩

/-- Shard 5 of tenant 3: F32 or FP8 vectors of 32 dimensions, one partition of 8 rows, areas in objects 1 and 2. -/
def shard5 (state : ShardState) : Shard :=
  { state := state, owner := 3, epoch := 6, readers := [], fmt := 0, dim := 32, sketch := 0, parts := 1, capacity := 8
    centroids := 2 ^ 35, directory := 2 ^ 36, sketches := 2 ^ 36 + 0x1000, tails := 2 ^ 36 + 0x2000, locators := 2 ^ 36 + 0x3000
    dropReply := none }

/-- `busy` with shard 5 in the given state, one passage in row 0. -/
def sharded (state : ShardState) : Block :=
  { busy with
    ske := { busy.ske with shards := [(5, shard5 state)] }
    mt := { busy.mt with objs := [(3 * 4096 + 1, object 1 true none), (3 * 4096 + 2, object 2 false none)] }
    mem := cells 0x020000000000 (fields 16 [(4, 4, 8), (8, 4, 1)]) ++
      cells 0x020000002000 (fields 16 [(0, 8, 1), (12, 4, 0xFFFFFFFF)]) ++ cells 0x020000003000 (fields 16 []) }

/-- Context 32 RUNNING at PC 0 of a route of one instruction `i` and END; registers 1 and 2 hold 5 and 9. -/
def onRoute (i : List Byte) : Block :=
  { busy with
    tenants := [(3, { tenant3 with routes := [⟨0x3FF, 1, true, [i, fields 16 [(0, 1, 0x13)]]⟩], routeLast := [(0x3FF, 1)] })]
    ctxs := [(32, { Ctx.new with
      tenant := 3, state := .running, routeId := 0x3FF, routeVer := 1, routeHeld := true, rg := [(1, 5), (2, 9)], lastCode := 0x0101, req := some req0 })] }
def instrOf (i : List Byte) : RInstr := RInstr.ofNat (unle i)

/-- `ready` with a command waiting. -/
def queued : State := { st ready with pending := [.perstN, .mapCheckpoint] }

/-- The longest reply record. -/
def longReply : Reply :=
  ⟨255, 0x0105, true, true, 131071, 7, 63, 65535, 16777215, List.replicate 32 9, some 5⟩

/-- States and operands that meet the hypotheses of `Obligations.EmptyQueuePassesOneCclk`, clause by clause. -/
theorem witness_EmptyQueuePassesOneCclk :
    (st ready).pending = [] ∧ (st ready).b.clk.j1Up = true ∧ (st ready).b.clk.locked = true := by and_intros <;> decide +kernel

/-- States and operands that meet the hypotheses of `Obligations.SkipLevelSwallowsItsShare`, clause by clause. -/
theorem witness_SkipLevelSwallowsItsShare :
    (64 ≤ 64) ∧
    (37 ≤ 64) := by and_intros <;> decide +kernel

/-- States and operands that meet the hypotheses of `Obligations.QueueDrainsInOrder`, clause by clause. -/
theorem witness_QueueDrainsInOrder :
    queued.pending = [Instr.perstN, Instr.mapCheckpoint] ∧ step queued = Host.Outcome.next (next queued) := by and_intros <;> first | decide +kernel | rfl

/-- States and operands that meet the hypotheses of `Obligations.EveryStepKeepsMemoryCanonical`, clause by clause. -/
theorem witness_EveryStepKeepsMemoryCanonical :
    Memory.wf queued.b.mem = true ∧ step queued = Host.Outcome.next (next queued) := by and_intros <;> first | decide +kernel | rfl

/-- States and operands that meet the hypotheses of `Obligations.ReplyRecordLayout`, clause by clause. -/
theorem witness_ReplyRecordLayout :
    longReply.cls < 2 ^ 8 ∧ longReply.ctx < 2 ^ 17 ∧ longReply.step < 2 ^ 6 ∧ longReply.aux < 2 ^ 24 ∧ longReply.payload.length ≤ 32 := by and_intros <;> decide +kernel

/-- States and operands that meet the hypotheses of `Obligations.RcHostAndTurnpikeReads`, clause by clause. -/
theorem witness_RcHostAndTurnpikeReads :
    (st ready).b.mainUp = true := by decide +kernel

/-- States and operands that meet the hypotheses of `Obligations.RcSearchTextAndStoreReads`, clause by clause. -/
theorem witness_RcSearchTextAndStoreReads :
    (st ready).b.mainUp = true := by decide +kernel

/-- States and operands that meet the hypotheses of `Obligations.RcQuarterUnitReads`, clause by clause. -/
theorem witness_RcQuarterUnitReads :
    (st ready).b.mainUp = true ∧ 3 < 4 := by and_intros <;> decide +kernel

/-- States and operands that meet the hypotheses of `Obligations.RcLinkSecurityAndOstlerReads`, clause by clause. -/
theorem witness_RcLinkSecurityAndOstlerReads :
    (st ready).b.mainUp = true := by decide +kernel

/-- `busy` with its clock block as given. -/
def clocked (c : Clk) : State :=
  st { busy with clk := c, sec := { busy.sec with pufOk := true }, ost := { busy.ost with tick := 15000000 } }
/-- The same without contexts. -/
def clockedFree (c : Clk) : State := st { ready with clk := c }
def clkOff (straps : BitVec 6) (mated : Bool) : Clk := { Clk.new with straps := straps, mated := mated }
def clkOn (stage : Stage) (straps : BitVec 6) : Clk :=
  { Clk.new with mainOn := true, mated := true, perstHigh := true, stage := stage, straps := straps }
def clkResetting : Clk := { clkOn .train 0x3F with resetting := some .mainPowerOn }
def clkRef (holdover waitRef slewing locked : Bool) (straps : BitVec 6) : Clk :=
  { clkOn .ready straps with
    holdover := holdover, waitRef := waitRef, slewing := slewing, locked := locked }
def clkJoin (refSrc : BitVec 4) (slewing : Bool) : Clk :=
  { clkOn .teamJoin 0x31 with locked := true, refSrc := refSrc, slewing := slewing }
def clkEarly : Clk := { clkOn .held 0x3F with convTick := 1 }
def clkMap : Clk := { clkOn .mapLoad 0x3F with selftestDone := true }
def clkLate : Clk := { clkOn .teamJoin 0x30 with localReadyTick := 5 }
def noImages : State := st { busy with clk := clkOn .fwLoad 0x3F, flash := { busy.flash with images := [] } }
def noCoaches : State := st { busy with clk := clkOn .train 0x3F, rel := { busy.rel with fenced := (List.range 100).map fun k => ⟨1, k⟩ } }
def joining : State :=
  st { ready with clk := clkOn .teamJoin 0x30, flash := { ready.flash with teamExpected := 3 }
                  cb := { ready.cb with expected := 3, present := 1, teamMods := [(0, 0)] } }
def report : MemberReport := ⟨1, 1, 64⟩
def late : State := st { ready with clk := clkLate, ost := { ready.ost with tick := 2500000005 } }
def announced : State := st { ready with clk := { ready.clk with drsSent := true } }

/-- States and operands that meet the hypotheses of `Obligations.PowerAndResetsLeave`, clause by clause. -/
theorem witness_PowerAndResetsLeave :
    ((clocked (clkOff (63 : BitVec 6) true)).b.clk.j1Up = true ∧ (clocked (clkOff (63 : BitVec 6) true)).b.clk.mainOn = false ∧ (clocked (clkOff (63 : BitVec 6) true)).b.strapBoot ≠ 0 ∧ (clocked (clkOff (63 : BitVec 6) true)).b.rel.shutHold = false) ∧
    ((clocked (clkOff (63 : BitVec 6) false)).b.clk.j1Up = true ∧ (clocked (clkOff (63 : BitVec 6) false)).b.clk.mainOn = false ∧ (clocked (clkOff (63 : BitVec 6) false)).b.strapBoot ≠ 0 ∧ (clocked (clkOff (63 : BitVec 6) false)).b.rel.shutHold = false) ∧
    ((clocked (clkOff (16 : BitVec 6) false)).b.clk.j1Up = true ∧ (clocked (clkOff (16 : BitVec 6) false)).b.clk.mainOn = false ∧ (clocked (clkOff (16 : BitVec 6) false)).b.strapBoot ≠ 0 ∧ (clocked (clkOff (16 : BitVec 6) false)).b.rel.shutHold = false) ∧
    ((clocked (clkOff (15 : BitVec 6) false)).b.clk.j1Up = true ∧ (clocked (clkOff (15 : BitVec 6) false)).b.clk.mainOn = false ∧ (clocked (clkOff (15 : BitVec 6) false)).b.strapBoot = 0) ∧
    ((st busy).b.clk.mainOn = true) ∧
    ((st busy).b.clk.mainOn = true ∧ (st busy).b.clk.resetting = none) ∧
    ((clocked clkResetting).b.clk.mainOn = true ∧ (clocked clkResetting).b.clk.resetting = some ResetKind.mainPowerOn ∧ ResetKind.mainPowerOn ≠ ResetKind.warm) := by and_intros <;> decide +kernel

/-- States and operands that meet the hypotheses of `Obligations.TeamFormsAndModuleAnnounces`, clause by clause. -/
theorem witness_TeamFormsAndModuleAnnounces :
    (joining.b.clk.mainOn = true ∧ joining.b.clk.stage = Stage.teamJoin ∧ joining.b.isLead = true ∧ report.pos < 8 ∧ bit (BitVec.toNat joining.b.flash.teamExpected) report.pos = true ∧ ((List.all joining.b.cb.teamMods fun m => m.snd != report.module) = true) ∧ report.latency ≤ 64 ∧ joining.b.cb.lockstep = false ∧ joining.b.fenced 13 (portTo joining.b.position report.pos) = false ∧ joining.b.laneOff (portTo joining.b.position report.pos) = false ∧ joining.b.cb.present ||| BitVec.ofNat 8 (2 ^ report.pos) = joining.b.cb.expected) ∧
    (late.b.clk.mainOn = true ∧ late.b.clk.stage = Stage.teamJoin ∧ late.b.isLead = true ∧ late.b.clk.localReadyTick + 2500000000 ≤ late.b.ost.tick) ∧
    ((st ready).b.mainUp = true ∧ (st ready).b.clk.drsSent = false) ∧
    (announced.b.clk.drsSent = true ∧ announced.b.host.vfEnable = false) := by and_intros <;> decide +kernel

/-- States and operands that meet the hypotheses of `Obligations.BringupStagesInOrder`, clause by clause. -/
theorem witness_BringupStagesInOrder :
    ((clocked (clkOn Stage.held (63 : BitVec 6))).b.clk.mainOn = true ∧ (clocked (clkOn Stage.held (63 : BitVec 6))).b.clk.stage = Stage.held ∧ (clocked (clkOn Stage.held (63 : BitVec 6))).b.clk.waitRef = false ∧ (clocked (clkOn Stage.held (63 : BitVec 6))).b.clk.convTick + 15000000 ≤ (clocked (clkOn Stage.held (63 : BitVec 6))).b.ost.tick) ∧
    ((clocked clkEarly).b.clk.mainOn = true ∧ (clocked clkEarly).b.clk.stage = Stage.held ∧ (clocked clkEarly).b.ost.tick < (clocked clkEarly).b.clk.convTick + 15000000) ∧
    ((clocked (clkOn Stage.pllLock (63 : BitVec 6))).b.clk.mainOn = true ∧ (clocked (clkOn Stage.pllLock (63 : BitVec 6))).b.clk.stage = Stage.pllLock) ∧
    ((clocked (clkOn Stage.fwLoad (63 : BitVec 6))).b.clk.mainOn = true ∧ (clocked (clkOn Stage.fwLoad (63 : BitVec 6))).b.clk.stage = Stage.fwLoad ∧ (clocked (clkOn Stage.fwLoad (63 : BitVec 6))).b.sec.pufOk = true ∧ (clocked (clkOn Stage.fwLoad (63 : BitVec 6))).b.strapBoot = 3 ∧ (clocked (clkOn Stage.fwLoad (63 : BitVec 6))).b.imageOk (clocked (clkOn Stage.fwLoad (63 : BitVec 6))).b.flash.primary = true ∧ (clocked (clkOn Stage.fwLoad (63 : BitVec 6))).b.flash.pendFence = (0 : W32) ∧ (clocked (clkOn Stage.fwLoad (63 : BitVec 6))).b.flash.pendUnfence = (0 : W32)) ∧
    ((clocked (clkOn Stage.fwLoad (47 : BitVec 6))).b.clk.mainOn = true ∧ (clocked (clkOn Stage.fwLoad (47 : BitVec 6))).b.clk.stage = Stage.fwLoad ∧ (clocked (clkOn Stage.fwLoad (47 : BitVec 6))).b.sec.pufOk = true ∧ (clocked (clkOn Stage.fwLoad (47 : BitVec 6))).b.strapBoot = 2 ∧ (clocked (clkOn Stage.fwLoad (47 : BitVec 6))).b.imageOk (clocked (clkOn Stage.fwLoad (47 : BitVec 6))).b.flash.backup = true) ∧
    (noImages.b.clk.mainOn = true ∧ noImages.b.clk.stage = Stage.fwLoad ∧ noImages.b.strapBoot = 3 ∧ noImages.b.flash.oldRoles = none ∧ noImages.b.imageOk noImages.b.flash.primary = false ∧ noImages.b.imageOk noImages.b.flash.backup = false) ∧
    ((clocked (clkOn Stage.train (63 : BitVec 6))).b.clk.mainOn = true ∧ (clocked (clkOn Stage.train (63 : BitVec 6))).b.clk.stage = Stage.train ∧ (clocked (clkOn Stage.train (63 : BitVec 6))).b.bringupOk = true) ∧
    (noCoaches.b.clk.mainOn = true ∧ noCoaches.b.clk.stage = Stage.train ∧ noCoaches.b.bringupOk = false ∧ noCoaches.b.flash.oldRoles = none) ∧
    ((clocked (clkOn Stage.selftest (63 : BitVec 6))).b.clk.mainOn = true ∧ (clocked (clkOn Stage.selftest (63 : BitVec 6))).b.clk.stage = Stage.selftest ∧ (clocked (clkOn Stage.selftest (63 : BitVec 6))).b.bringupOk = true) ∧
    ((clocked clkMap).b.clk.mainOn = true ∧ (clocked clkMap).b.clk.stage = Stage.mapLoad ∧ (clocked clkMap).b.clk.mapDone = false ∧ (clocked clkMap).b.clk.selftestDone = true) ∧
    ((clocked clkMap).b.clk.mainOn = true ∧ (clocked clkMap).b.clk.stage = Stage.mapLoad ∧ (clocked clkMap).b.clk.mapDone = false ∧ (clocked clkMap).b.clk.rebuild = false) ∧
    ((clocked (clkOn Stage.localReady (63 : BitVec 6))).b.clk.mainOn = true ∧ (clocked (clkOn Stage.localReady (63 : BitVec 6))).b.clk.stage = Stage.localReady ∧ (clocked (clkOn Stage.localReady (63 : BitVec 6))).b.strapBoot = 3 ∧ (clocked (clkOn Stage.localReady (63 : BitVec 6))).b.alone = true ∧ (clocked (clkOn Stage.localReady (63 : BitVec 6))).b.flash.oldRoles = none) ∧
    ((clocked (clkOn Stage.localReady (16 : BitVec 6))).b.clk.mainOn = true ∧ (clocked (clkOn Stage.localReady (16 : BitVec 6))).b.clk.stage = Stage.localReady ∧ (clocked (clkOn Stage.localReady (16 : BitVec 6))).b.strapBoot = 1) ∧
    ((clocked (clkOn Stage.localReady (49 : BitVec 6))).b.clk.mainOn = true ∧ (clocked (clkOn Stage.localReady (49 : BitVec 6))).b.clk.stage = Stage.localReady ∧ (clocked (clkOn Stage.localReady (49 : BitVec 6))).b.strapBoot = 3 ∧ (clocked (clkOn Stage.localReady (49 : BitVec 6))).b.alone = false) := by and_intros <;> decide +kernel

/-- States and operands that meet the hypotheses of `Obligations.ReferenceClockEvents`, clause by clause. -/
theorem witness_ReferenceClockEvents :
    ((st busy).b.clk.locked = true) ∧
    ((clocked (clkRef true false false true (48 : BitVec 6))).b.clk.holdover = true ∧ (clocked (clkRef true false false true (48 : BitVec 6))).b.isLead = true ∧ (clocked (clkRef true false false true (48 : BitVec 6))).b.clk.mainOn = true ∧ (clocked (clkRef true false false true (48 : BitVec 6))).b.clk.resetting = none) ∧
    ((clockedFree (clkRef true false false true (49 : BitVec 6))).b.clk.holdover = true ∧ (clockedFree (clkRef true false false true (49 : BitVec 6))).b.isLead = false ∧ (clockedFree (clkRef true false false true (49 : BitVec 6))).b.teamQuiet) ∧
    ((clocked (clkRef false true false true (49 : BitVec 6))).b.clk.waitRef = true) ∧
    ((clockedFree (clkRef true false false true (48 : BitVec 6))).b.clk.waitRef = false ∧ (clockedFree (clkRef true false false true (48 : BitVec 6))).b.clk.locked = true ∧ (clockedFree (clkRef true false false true (48 : BitVec 6))).b.refValid 15 = true) ∧
    ((clockedFree (clkRef false false false true (49 : BitVec 6))).b.clk.waitRef = false ∧ (clockedFree (clkRef false false false true (49 : BitVec 6))).b.refValid 15 = false) ∧
    ((clocked (clkRef false false true true (49 : BitVec 6))).b.clk.slewing = true ∧ (clocked (clkRef false false true true (49 : BitVec 6))).b.clk.stage ≠ Stage.teamJoin) ∧
    ((clockedFree (clkJoin (14 : BitVec 4) true)).b.clk.slewing = true ∧ (clockedFree (clkJoin (14 : BitVec 4) true)).b.clk.stage = Stage.teamJoin ∧ (clockedFree (clkJoin (14 : BitVec 4) true)).b.isLead = false ∧ (clockedFree (clkJoin (14 : BitVec 4) true)).b.clk.refSrc.toNat = 8 + (clockedFree (clkJoin (14 : BitVec 4) true)).b.leadPort) ∧
    ((st busy).b.mainUp = true ∧ (st busy).b.clk.resetNow = false ∧ BitVec.getLsbD (128 : BitVec 64) 7 = true ∧ (busy = if (st busy).b.clk.refNow = true then (st busy).b.tick else (st busy).b)) ∧
    (BitVec.getLsbD (127 : BitVec 64) 7 = false) := by delta Block.teamQuiet; and_intros <;> first | decide +kernel | rfl

/-- `busy` with tenant 3's doorbell page as given. -/
def paged (p : Page) : State := st { busy with host := { busy.host with pages := [(3, p)] } }
def pageSet (enable active : Bool) (reqPi : Nat) : Page :=
  { Page.new with
    reqBase := 0x10000, reqSize := 6, rplBase := 0x20000, rplSize := 6, enable := enable, reqPi := BitVec.ofNat 32 reqPi
    reserved := if active then 1 else 0, owed := if active then 1 else 0 }
def badPage : Page := { pageSet false false 0 with reqSize := 5 }
def replies : Page := { pageSet true false 0 with rplPi := 0xFFFFFFFF, rplCi := 0xFFFFFFF0 }
def route63 : List Byte := fields 128 [(0, 1, 1), (4, 4, 63), (8, 8, 9), (0x14, 4, 1)]
def order15 : List Byte := fields 128 [(0, 1, 2), (8, 8, 9), (0x10, 2, 15), (0x1F, 1, 6)]
def rsvdRecord : List Byte := fields 128 [(0, 1, 1), (0, 4, 0x80000001)]
def waitingReply : Reply := ⟨1, 0, false, false, 32, 7, 4, 0, 0, [], none⟩
def blockedReq : Req := { req0 with reservation := false }
/-- Context 32 waits for room on the reply ring. -/
def replyWaits : State :=
  st { busy with
    ctxs := [(32, { Ctx.new with tenant := 3, state := .blocked, replyWait := true, req := some blockedReq })]
    host := { busy.host with pages := [(3, { replies with rplCi := 0xFFFFFFFE, waiting := [waitingReply] })] } }
def ordered (r : Option Nat) (applied : List (Nat × Nat)) : Block :=
  { busy with host := { busy.host with rankNow := r, appliedNow := applied } }
def locateOrder : OrderIn := ord .pf0 6 0 []
def badOrder : OrderIn := ord .pf0 5 0 []
def errored : Page := { pageSet true false 0 with err := 1, errNow := 1 }
def flrInReset : State := st { ready with clk := { ready.clk with resetting := some .mainPowerOn, stage := .train } }

/-- States and operands that meet the hypotheses of `Obligations.DoorbellPageWrites`, clause by clause. -/
theorem witness_DoorbellPageWrites :
    ((paged (pageSet false false 0)).b.pageOn 3 = true ∧ (paged (pageSet false false 0)).b.pageReset 3 = false ∧ BitVec.getLsbD (1 : BitVec 64) 0 = true ∧ ((paged (pageSet false false 0)).b.page 3).active = false ∧ ((paged (pageSet false false 0)).b.page 3).cfgOk = true) ∧
    ((paged badPage).b.pageOn 3 = true ∧ (paged badPage).b.pageReset 3 = false ∧ BitVec.getLsbD (1 : BitVec 64) 0 = true ∧ (((paged badPage).b.page 3).active = true ∨ ((paged badPage).b.page 3).cfgOk = false)) ∧
    ((paged (pageSet true true 0)).b.pageOn 3 = true ∧ (paged (pageSet true true 0)).b.pageReset 3 = false ∧ BitVec.getLsbD (1 : BitVec 64) 0 = true ∧ (((paged (pageSet true true 0)).b.page 3).active = true ∨ ((paged (pageSet true true 0)).b.page 3).cfgOk = false)) ∧
    ((paged (pageSet true true 0)).b.pageOn 3 = true ∧ (paged (pageSet true true 0)).b.pageReset 3 = false ∧ BitVec.getLsbD (2 : BitVec 64) 0 = false) ∧
    ((paged (pageSet true false 0)).b.pageOn 3 = true ∧ (paged (pageSet true false 0)).b.pageReset 3 = false ∧ (BitVec.setWidth 32 (64 : BitVec 64) - ((paged (pageSet true false 0)).b.page 3).reqCi).toNat ≤ 2 ^ ((paged (pageSet true false 0)).b.page 3).reqSize.toNat) ∧
    ((paged (pageSet true false 0)).b.pageOn 3 = true ∧ (paged (pageSet true false 0)).b.pageReset 3 = false ∧ 2 ^ ((paged (pageSet true false 0)).b.page 3).reqSize.toNat < (BitVec.setWidth 32 (65 : BitVec 64) - ((paged (pageSet true false 0)).b.page 3).reqCi).toNat) ∧
    ((paged replies).b.pageOn 3 = true ∧ (paged replies).b.pageReset 3 = false ∧ (BitVec.setWidth 32 (4294967295 : BitVec 64) - ((paged replies).b.page 3).rplCi).toNat ≤ BitVec.toNat (((paged replies).b.page 3).rplPi - ((paged replies).b.page 3).rplCi)) ∧
    ((paged replies).b.pageOn 3 = true ∧ (paged replies).b.pageReset 3 = false ∧ BitVec.toNat (((paged replies).b.page 3).rplPi - ((paged replies).b.page 3).rplCi) < (BitVec.setWidth 32 (4294967296 : BitVec 64) - ((paged replies).b.page 3).rplCi).toNat) ∧
    ((paged replies).b.pageOn 3 = true ∧ (paged replies).b.pageReset 3 = false ∧ (paged replies).b.host.setNow 3 &&& BitVec.setWidth 8 (255 : BitVec 64) = (0 : Byte)) ∧
    ((paged replies).b.pageOn 4096 = true ∧ (paged replies).b.pageReset 4096 = false ∧ ((paged replies).b.page 4096).errNow &&& BitVec.setWidth 4 (15 : BitVec 64) = (0 : BitVec 4)) ∧
    ((paged errored).b.pageOn 3 = true ∧ (paged errored).b.host.flrNow = [] ∧ (paged errored).b.clk.resetNow = false ∧ ((paged errored).b.page 3).errNow &&& BitVec.setWidth 4 (15 : BitVec 64) ≠ (0 : BitVec 4)) := by and_intros <;> decide +kernel

/-- States and operands that meet the hypotheses of `Obligations.RequestRecordsAreFetched`, clause by clause. -/
theorem witness_RequestRecordsAreFetched :
    ((paged (pageSet true false 1)).b.fetchTurn 3 = true ∧ 3 ≠ pf0Page ∧ route63.length = 128 ∧ recordRsvd route63 = true ∧ recordOk route63 = true ∧ fieldAt route63 0 1 = 1 ∧ (paged (pageSet true false 1)).b.ownsCtx 3 (bits (fieldAt route63 4 4) 16 0) = true ∧ ((paged (pageSet true false 1)).b.ctx (bits (fieldAt route63 4 4) 16 0)).state ≠ CtxState.free ∧ ((paged (pageSet true false 1)).b.ctx (bits (fieldAt route63 4 4) 16 0)).req = none) ∧
    ((paged (pageSet true false 1)).b.fetchTurn 3 = true ∧ order15.length = 128 ∧ recordRsvd order15 = true ∧ recordOk order15 = true ∧ fieldAt order15 0 1 = 2 ∧ 1 ≤ fieldAt order15 16 2 ∧ fieldAt order15 16 2 ≤ 15) ∧
    ((paged (pageSet true false 1)).b.fetchTurn 3 = true ∧ rsvdRecord.length = 128 ∧ recordRsvd rsvdRecord = false) ∧
    ((paged (pageSet true false 1)).b.fetchTurn 3 = true) := by and_intros <;> decide +kernel

/-- States and operands that meet the hypotheses of `Obligations.WaitingReplyAndFunctionResets`, clause by clause. -/
theorem witness_WaitingReplyAndFunctionResets :
    ((replyWaits.b.page 3).waiting = [waitingReply] ∧ (replyWaits.b.page 3).reserved < (replyWaits.b.page 3).freeSlots ∧ (replyWaits.b.ctx waitingReply.ctx).replyWait = true ∧ (replyWaits.b.ctx waitingReply.ctx).tenant = 3 ∧ (replyWaits.b.ctx waitingReply.ctx).state = CtxState.blocked ∧ (replyWaits.b.ctx waitingReply.ctx).req = some blockedReq ∧ blockedReq.finish = none) ∧
    ((paged replies).b.mainUp = true ∧ (paged replies).b.clk.mainOn = true ∧ (paged replies).b.clk.resetting = none ∧ 1 ≤ 1 ∧ 1 ≤ 256) ∧
    ((paged replies).b.mainUp = true ∧ (paged replies).b.clk.mainOn = true ∧ (paged replies).b.clk.resetting = none ∧ 1 ≤ 256 ∧ 256 ≤ 256) ∧
    ((paged replies).b.mainUp = true ∧ (paged replies).b.clk.mainOn = true ∧ (paged replies).b.clk.resetting = none) ∧
    (flrInReset.b.clk.mainOn = true ∧ flrInReset.b.clk.resetting = some ResetKind.mainPowerOn) := by and_intros <;> decide +kernel

/-- States and operands that meet the hypotheses of `Obligations.OrderPortArbitrates`, clause by clause. -/
theorem witness_OrderPortArbitrates :
    (busy.mainUp = true ∧ busy.host.flrNow = [] ∧ busy.host.port = [] ∧ busy.host.dropped = [] ∧ busy.orderCheck 15 badOrder = some Codes.badTarget) ∧
    ((ordered (some 0) [(6, 0)]).mainUp = true ∧ (ordered (some 0) [(6, 0)]).host.flrNow = [] ∧ (ordered (some 0) [(6, 0)]).host.port = [] ∧ (ordered (some 0) [(6, 0)]).host.dropped = [] ∧ (ordered (some 0) [(6, 0)]).orderCheck 15 locateOrder = none ∧ (ordered (some 0) [(6, 0)]).host.rankNow = some 0 ∧ 0 < rank locateOrder.issuer ∧ (ordered (some 0) [(6, 0)]).host.appliedNow.any ((ordered (some 0) [(6, 0)]).conflicts (locateOrder.kind, locateOrder.target)) = true) ∧
    (busy.orderPasses 15 locateOrder ∧ busy.host.port = [] ∧ busy.host.dropped = []) ∧
    ((ordered (some 0) [(7, 1)]).orderPasses 15 locateOrder ∧ (ordered (some 0) [(7, 1)]).host.port = [] ∧ (ordered (some 0) [(7, 1)]).host.dropped = []) ∧
    ((ordered (some 3) []).mainUp = true ∧ (ordered (some 3) []).host.flrNow = [] ∧ (ordered (some 3) []).host.port = [] ∧ (ordered (some 3) []).host.dropped = [] ∧ (ordered (some 3) []).orderCheck 15 locateOrder = none ∧ (ordered (some 3) []).host.rankNow = some 3 ∧ rank locateOrder.issuer ≤ 3 ∧ locateOrder.issuer ≠ Issuer.ostler) := by delta Block.orderPasses; and_intros <;> decide +kernel

def warm : OrderIn := ord .pf0 1 0 []
def staged : State := st { busy with ost := { busy.ost with updState := .staged } }
def locateOn : OrderIn := ord .ostler 6 0 [1]
def setTenant (t : Nat) : OrderIn := ord .pf0 2 t (ops [(0x20, 1, 1), (0x24, 4, 0x44), (0x28, 3, 131008), (0x2C, 3, 64)])
def disable3 : OrderIn := ord .pf0 2 3 (ops [(0x20, 1, 1)])
def quota3 : OrderIn := ord .pf0 2 3 (ops [(0x20, 8, 7), (0x28, 8, 8), (0x30, 4, 9), (0x34, 1, 100), (0x38, 8, 10)])
def refill3 (mode n : Nat) : OrderIn := ord .pf0 2 3 (ops [(0x20, 1, mode), (0x28, 8, n)])
def gen6 : GeneratorDecl := ⟨1, 1, 1, 0, 0, 0, 0, none, 4, false, 0, 0, 0, 0, 0, 0, 0⟩
def decl6 : ModelDecl := ⟨none, none, some gen6, none, []⟩
/-- Tenant 3 with generator object 6 and an adapter version that binds it. -/
def adapted : State :=
  st { busy with
    tenants := [(3, { tenant3 with adapters := [⟨65535, true, [(6, 7), (8, 9)]⟩] })]
    mt := { busy.mt with objs := [(3 * 4096 + 6, object 6 true (some decl6))] } }
def unbind6 : OrderIn := ord (.tenant 3) 2 3 (ops [(0x20, 2, 6)])
/-- Context 32 in teardown. -/
def tearing : State :=
  st { busy with ctxs := [(32, { Ctx.new with tenant := 3, state := .idle, freeing := true, pages := [9] })]
                 mt := { busy.mt with map := [(9, ⟨3, true, 0, false, false, false, 0, 0, 5⟩)] } }
def unit (kind index : Nat) : Nat := kind * 2 ^ 48 + index
def fenceOrder (kind index : Nat) : OrderIn := ord .pf0 5 (unit kind index) [0]
def unitOrder (kind index : Nat) : OrderIn := ord .pf0 5 (unit kind index) []
def fencedUnits (us : List UnitId) : State :=
  st { busy with rel := { busy.rel with fenced := us }, flash := { busy.flash with fences := us } }
def run3 : TestRun := ⟨⟨5, 3⟩, .pf0, 7, true, true, 0, false⟩
def testing : State :=
  st { busy with rel := { busy.rel with fenced := [⟨5, 3⟩] }, flash := { busy.flash with fences := [⟨5, 3⟩] }, ost := { busy.ost with tests := [run3] } }
def routeImage : List Byte := fields 32 [(0, 1, 0x11), (16, 1, 0x13)]
def loadRoute (len : Nat) : OrderIn := ord (.tenant 3) 2 3 (ops [(0x20, 2, 0x3FF), (0x22, 1, len), (0x28, 8, 0x5000)])
def route1 : RouteVersion := ⟨0x3FF, 1, true, [fields 16 [(0, 1, 0x13)]]⟩
def routed : State := st { busy with tenants := [(3, { tenant3 with routes := [route1], routeLast := [(0x3FF, 255)] })] }
def alloc (n : Nat) : OrderIn := ord (.tenant 3) 3 n (ops [(0x20, 8, 5), (0x58, 8, 6)])
/-- The block in which CONTEXT_ALLOC of context 40 takes its page. -/
def allocBlock : Block :=
  match (({ busy with host := { busy.host with
      rankNow := some 3, orderApplied := sat32 busy.host.orderApplied 1, appliedNow := [(3, 40)] } }).setCtx 40
    { Ctx.new with tenant := 3, state := .idle
                   rg := (List.range 8).map fun k => (8 + k, BitVec.ofNat 64 (opAt (alloc 40) (0x20 + 8 * k) 8)) }).growAux 40 0 0 with
  | .done b => b
  | _ => busy
def free32 : OrderIn := ord (.tenant 3) 3 32 []
def share5 : OrderIn := ord (.tenant 3) 4 5 (ops [(0x20, 1, 3), (0x21, 1, 16), (0x40, 2, 4095), (0x5E, 2, 1)])
def drop5 : OrderIn := ord (.tenant 3) 4 5 (ops [(0x20, 1, 4)])
def stage5 (n : Nat) : OrderIn := ord (.tenant 3) 4 5 (ops [(0x20, 1, 2), (0x28, 8, 0x40), (0x30, 4, n)])
def deleteEnt : List Byte := fields 64 [(0, 1, 2), (4, 4, 0)]
def create9 : OrderIn :=
  ord (.tenant 3) 4 9 (ops [(0x20, 1, 1), (0x21, 1, 0), (0x22, 2, 32), (0x28, 4, 1), (0x2C, 4, 8), (0x30, 8, 2 ^ 35), (0x38, 8, 2 ^ 36),
    (0x40, 8, 2 ^ 36 + 0x1000), (0x48, 8, 2 ^ 36 + 0x2000), (0x50, 8, 2 ^ 36 + 0x3000)])
def shard9 : Shard := { shard5 .live with epoch := 0 }
/-- `sharded` with an empty partition. -/
def emptyPart : State := st { sharded .live with mem := cells 0x020000000000 (fields 16 [(4, 4, 8)]) }
def engine3 : UnitId := ⟨5, 3⟩

/-- BRANCH of condition `sub` of R1 against IMM32 `x`, or against R2. -/
def branchTo (sub x : Nat) (reg : Bool) : List Byte :=
  fields 16 [(0, 1, 0x10), (1, 1, sub), (2, 1, if reg then 1 else 0), (7, 1, 0x12), (8, 2, 1), (12, 4, x)]
def replyStep : List Byte := fields 16 [(0, 1, 0x11), (7, 1, 0x10), (8, 2, 7)]
def yieldStep : List Byte := fields 16 [(0, 1, 0x12)]
def endStep : List Byte := fields 16 [(0, 1, 0x13)]

/-- States and operands that meet the hypotheses of `Obligations.ModuleAndTenantOrders`, clause by clause. -/
theorem witness_ModuleAndTenantOrders :
    ((st busy).b.orderPasses 1 warm ∧ opClear warm [] = true ∧ (st busy).b.clk.resetting = none ∧ (st busy).b.clk.mainOn = true) ∧
    (staged.b.orderPasses 2 warm ∧ opClear warm [] = true ∧ staged.b.ost.updState = UpdState.staged ∧ staged.b.clk.resetting = none) ∧
    ((st busy).b.orderPasses 2 warm ∧ opClear warm [] = true ∧ (st busy).b.ost.updState ≠ UpdState.staged) ∧
    ((st busy).b.orderPasses 15 locateOn ∧ opClear locateOn [(32, 1)] = true) ∧
    ((st ready).b.orderPasses 3 (setTenant 4095) ∧ (st ready).b.inTeam = false ∧ opClear (setTenant 4095) [(32, 2), (36, 32), (40, 17), (44, 18)] = true ∧ ((st ready).b.ten (setTenant 4095).target).state = TenState.off ∧ (st ready).b.sec.debug = 0 ∧ opAt (setTenant 4095) 40 3 + opAt (setTenant 4095) 44 3 ≤ 131072 ∧ opAt (setTenant 4095) 36 4 ≠ 0 ∧ (st ready).b.othersOn (setTenant 4095).target = [] ∧ tabFind? (setTenant 4095).target (st ready).b.slotKeys = none ∧ bit (opAt (setTenant 4095) 32 1) 1 = false ∧ opAt (setTenant 4095) 40 3 < 131072) ∧
    ((st busy).b.orderPasses 3 (setTenant 3) ∧ (st busy).b.inTeam = false ∧ opClear (setTenant 3) [(32, 2), (36, 32), (40, 17), (44, 18)] = true ∧ ((st busy).b.ten (setTenant 3).target).state ≠ TenState.off) ∧
    ((st busy).b.orderPasses 4 disable3 ∧ (st busy).b.inTeam = false ∧ opClear disable3 [(32, 1)] = true ∧ ((st busy).b.ten disable3.target).state = TenState.on ∧ ((st busy).b.ctx 32).tenant = disable3.target ∧ ((st busy).b.ctx 32).state ≠ CtxState.free) ∧
    ((st busy).b.orderPasses 5 quota3 ∧ opClear quota3 [(32, 64), (40, 64), (48, 32), (52, 8), (53, 3), (56, 64)] = true ∧ ((st busy).b.ten quota3.target).state = TenState.on ∧ opAt quota3 52 1 ≤ 100 ∧ opAt quota3 53 1 = 0) ∧
    ((st busy).b.orderPasses 6 (refill3 1 (2 ^ 48 - 1)) ∧ opClear (refill3 1 (2 ^ 48 - 1)) [(32, 8), (40, 64)] = true ∧ ((st busy).b.ten (refill3 1 (2 ^ 48 - 1)).target).state = TenState.on ∧ (opAt (refill3 1 (2 ^ 48 - 1)) 32 1 = 1 ∨ opAt (refill3 1 (2 ^ 48 - 1)) 32 1 = 2) ∧ opAt (refill3 1 (2 ^ 48 - 1)) 40 8 < 2 ^ 48) ∧
    ((st busy).b.orderPasses 6 (refill3 2 5) ∧ opClear (refill3 2 5) [(32, 8), (40, 64)] = true ∧ ((st busy).b.ten (refill3 2 5).target).state = TenState.on ∧ (opAt (refill3 2 5) 32 1 = 1 ∨ opAt (refill3 2 5) 32 1 = 2) ∧ opAt (refill3 2 5) 40 8 < 2 ^ 48) ∧
    (adapted.b.orderPasses 8 unbind6 ∧ adapted.b.inTeam = false ∧ opClear unbind6 [(32, 16), (34, 16)] = true ∧ (adapted.b.ten unbind6.target).state = TenState.on ∧ (adapted.b.generator unbind6.target (opAt unbind6 32 2)).isSome = true ∧ opAt unbind6 34 2 = 0 ∧ (adapted.b.adapterNow unbind6.target).binds.length ≤ 8 ∧ (adapted.b.ten unbind6.target).adapters.length < 4 ∧ (((adapted.b.ten unbind6.target).adapters.all fun v => v.version != ((adapted.b.adapterNow unbind6.target).version + 1) % 65536) = true)) ∧
    ((tearing.b.ctx 32).state ≠ CtxState.free ∧ (tearing.b.ctx 32).freeing = true ∧ tearing.b.onCoach 32 = false ∧ (tearing.b.ctx 32).req = none) := by delta Block.orderPasses; and_intros <;> decide +kernel

/-- States and operands that meet the hypotheses of `Obligations.UnitOrders`, clause by clause. -/
theorem witness_UnitOrders :
    ((st busy).b.orderPasses 12 (fenceOrder 1 511) ∧ opClear (fenceOrder 1 511) [(32, 1)] = true ∧ (unitOf (fenceOrder 1 511).target).kind = 1 ∧ (st busy).b.fenced 1 (unitOf (fenceOrder 1 511).target).index = false ∧ (st busy).b.testOf (unitOf (fenceOrder 1 511).target) = none ∧ ((st busy).b.coach (unitOf (fenceOrder 1 511).target).index).task = none ∧ (∀ (x : Nat × Ctx), x ∈ (st busy).b.ctxs → x.snd.step = none ∧ (x.snd.req.bind fun x => x.ending) = none)) ∧
    ((st busy).b.orderPasses 12 (fenceOrder 2 7) ∧ opClear (fenceOrder 2 7) [(32, 1)] = true ∧ (fenceOrder 2 7).issuer = Issuer.pf0 ∧ (unitOf (fenceOrder 2 7).target).kind = 2 ∧ (st busy).b.fenced 2 (unitOf (fenceOrder 2 7).target).index = false ∧ (st busy).b.flash.pendFence = (0 : W32) ∧ (st busy).b.flash.pendUnfence = (0 : W32)) ∧
    ((fencedUnits [{ kind := 1, index := 9 }]).b.orderPasses 12 (fenceOrder 1 9) ∧ opClear (fenceOrder 1 9) [(32, 1)] = true ∧ (unitOf (fenceOrder 1 9).target).kind = 1 ∧ (fencedUnits [{ kind := 1, index := 9 }]).b.fenced 1 (unitOf (fenceOrder 1 9).target).index = true) ∧
    ((fencedUnits [{ kind := 12, index := 31 }]).b.orderPasses 13 (unitOrder 12 31) ∧ opClear (unitOrder 12 31) [] = true ∧ (unitOf (unitOrder 12 31).target).kind = 12 ∧ (fencedUnits [{ kind := 12, index := 31 }]).b.fenced 12 (unitOf (unitOrder 12 31).target).index = true ∧ (fencedUnits [{ kind := 12, index := 31 }]).b.testOf (unitOf (unitOrder 12 31).target) = none) ∧
    ((fencedUnits [{ kind := 5, index := 3 }]).b.orderPasses 13 (unitOrder 5 3) ∧ opClear (unitOrder 5 3) [] = true ∧ (unitOf (unitOrder 5 3).target).kind = 5 ∧ (fencedUnits [{ kind := 5, index := 3 }]).b.fenced 5 (unitOf (unitOrder 5 3).target).index = true ∧ (fencedUnits [{ kind := 5, index := 3 }]).b.testOf (unitOf (unitOrder 5 3).target) = none) ∧
    ((st busy).b.orderPasses 14 (unitOrder 1 0) ∧ opClear (unitOrder 1 0) [] = true ∧ (unitOf (unitOrder 1 0).target).kind = 1 ∧ (st busy).b.fenced 1 (unitOf (unitOrder 1 0).target).index = false ∧ (st busy).b.testOf (unitOf (unitOrder 1 0).target) = none ∧ (¬(unitOf (unitOrder 1 0).target).index ∈ (st busy).b.ost.withdrawn) ∧ (st busy).b.mayWithdraw = true ∧ (∀ (x : Nat × Ctx), x ∈ (st busy).b.ctxs → x.snd.step = none ∧ (x.snd.req.bind fun x => x.ending) = none)) ∧
    ((st busy).b.orderPasses 14 (unitOrder 5 0) ∧ opClear (unitOrder 5 0) [] = true ∧ (unitOf (unitOrder 5 0).target).kind = 5 ∧ (st busy).b.fenced 5 (unitOf (unitOrder 5 0).target).index = false ∧ (st busy).b.testOf (unitOf (unitOrder 5 0).target) = none) ∧
    (testing.b.testOf engine3 = some run3 ∧ run3.started = true ∧ run3.unfence = true ∧ engine3.kind = 5) := by delta Block.orderPasses; and_intros <;> decide +kernel

/-- States and operands that meet the hypotheses of `Obligations.RouteAndContextOrders`, clause by clause. -/
theorem witness_RouteAndContextOrders :
    (routed.b.orderPasses 7 (loadRoute 2) ∧ opClear (loadRoute 2) [(32, 16), (34, 8), (40, 64)] = true ∧ (routed.b.ten (loadRoute 2).target).state = TenState.on ∧ opAt (loadRoute 2) 32 2 ≤ 1023 ∧ 1 ≤ opAt (loadRoute 2) 34 1 ∧ opAt (loadRoute 2) 34 1 ≤ 64 ∧ opAt (loadRoute 2) 40 8 % 16 = 0 ∧ routeImage.length = 16 * opAt (loadRoute 2) 34 1 ∧ (routeCheck (List.map (fun k => List.take 16 (List.drop (16 * k) routeImage)) (List.range (opAt (loadRoute 2) 34 1))) = none) ∧ routed.b.routeHeldBy (loadRoute 2).target (opAt (loadRoute 2) 32 2) ((tabGet 0 (opAt (loadRoute 2) 32 2) (routed.b.ten (loadRoute 2).target).routeLast + 1) % 256) = false ∧ (routed.b.use (loadRoute 2).target).ddr + 1024 ≤ (routed.b.ten (loadRoute 2).target).quota.ddr) ∧
    (routed.b.orderPasses 7 (loadRoute 0) ∧ opClear (loadRoute 0) [(32, 16), (34, 8), (40, 64)] = true ∧ (routed.b.ten (loadRoute 0).target).state = TenState.on ∧ opAt (loadRoute 0) 32 2 ≤ 1023 ∧ opAt (loadRoute 0) 34 1 = 0 ∧ opAt (loadRoute 0) 40 8 % 16 = 0 ∧ (routed.b.currentRoute (loadRoute 0).target (opAt (loadRoute 0) 32 2)).isSome = true) ∧
    ((st busy).b.orderPasses 9 (alloc 40) ∧ (alloc 40).issuer = Issuer.tenant 3 ∧ (alloc 40).ops.length ≤ 96 ∧ zeroAt (alloc 40).ops 64 32 = true ∧ ((st busy).b.ctx (alloc 40).target).state = CtxState.free) ∧
    ((st busy).b.orderPasses 9 (alloc 32) ∧ (alloc 32).ops.length ≤ 96 ∧ zeroAt (alloc 32).ops 64 32 = true ∧ ((st busy).b.ctx (alloc 32).target).state ≠ CtxState.free) ∧
    ((st busy).b.orderPasses 10 free32 ∧ opClear free32 [] = true ∧ ((st busy).b.ctx free32.target).state ≠ CtxState.free ∧ ((st busy).b.ctx free32.target).freeing = false) := by delta Block.orderPasses; and_intros <;> decide +kernel

/-- States and operands that meet the hypotheses of `Obligations.ShardOrders`, clause by clause. -/
theorem witness_ShardOrders :
    ((st (sharded ShardState.live)).b.orderPasses 11 share5 ∧ opAt share5 32 1 = 3 ∧ (st (sharded ShardState.live)).b.shard? share5.target = some (shard5 ShardState.live) ∧ (opClear share5 ([(32, 8), (33, 8)] ++ List.map (fun j => (64 + 2 * j, 12)) (List.range 16)) = true) ∧ (shard5 ShardState.live).state = ShardState.live ∧ opAt share5 33 1 ≤ 16) ∧
    ((st (sharded ShardState.live)).b.orderPasses 11 drop5 ∧ opAt drop5 32 1 = 4 ∧ (st (sharded ShardState.live)).b.shard? drop5.target = some (shard5 ShardState.live) ∧ opClear drop5 [(32, 8)] = true ∧ (shard5 ShardState.live).state = ShardState.live) ∧
    ((st (sharded ShardState.closing)).b.shard? 5 = some (shard5 ShardState.closing) ∧ (shard5 ShardState.closing).state = ShardState.closing ∧ (st (sharded ShardState.closing)).b.shardHeld 5 = false) ∧
    ((st (sharded ShardState.live)).b.orderPasses 11 (stage5 0) ∧ opAt (stage5 0) 32 1 = 2 ∧ (st (sharded ShardState.live)).b.shard? (stage5 0).target = some (shard5 ShardState.live) ∧ opClear (stage5 0) [(32, 8), (40, 64), (48, 32)] = true ∧ (shard5 ShardState.live).state = ShardState.live ∧ opAt (stage5 0) 40 8 % 64 = 0 ∧ opAt (stage5 0) 48 4 = 0 ∧ (st (sharded ShardState.live)).b.areasLive (shard5 ShardState.live) = true ∧ (shard5 ShardState.live).epoch ≠ 4294967294) ∧
    ((st (sharded ShardState.live)).b.orderPasses 11 (stage5 1) ∧ opAt (stage5 1) 32 1 = 2 ∧ (st (sharded ShardState.live)).b.shard? (stage5 1).target = some (shard5 ShardState.live) ∧ opClear (stage5 1) [(32, 8), (40, 64), (48, 32)] = true ∧ (shard5 ShardState.live).state = ShardState.live ∧ opAt (stage5 1) 40 8 % 64 = 0 ∧ opAt (stage5 1) 48 4 = 1 ∧ (st (sharded ShardState.live)).b.areasLive (shard5 ShardState.live) = true ∧ (shard5 ShardState.live).epoch ≠ 4294967294 ∧ deleteEnt.length = 64 ∧ stageRsvd deleteEnt = true ∧ fieldAt deleteEnt 0 1 = 2 ∧ (st (sharded ShardState.live)).b.locator (shard5 ShardState.live) (fieldAt deleteEnt 4 4) = some (0, 0) ∧ (st (sharded ShardState.live)).b.xlate (shard5 ShardState.live).owner ((shard5 ShardState.live).tails + 16 * 0) 16 = some 2199023263744) ∧
    (emptyPart.b.orderPasses 11 create9 ∧ opAt create9 32 1 = 1 ∧ create9.issuer = Issuer.tenant 3 ∧ shard9 = { state := ShardState.live, owner := 3, epoch := 0, readers := [], fmt := opAt create9 33 1, dim := opAt create9 34 2, sketch := opAt create9 36 1, parts := opAt create9 40 4, capacity := opAt create9 44 4, centroids := opAt create9 48 8, directory := opAt create9 56 8, sketches := opAt create9 64 8, tails := opAt create9 72 8, locators := opAt create9 80 8, dropReply := none } ∧ (opClear create9 ([(32, 8), (33, 8), (34, 16), (36, 8), (40, 32), (44, 32)] ++ List.map (fun k => (48 + 8 * k, 64)) (List.range 5)) = true) ∧ emptyPart.b.shard? create9.target = none ∧ shard9.fmt ∈ [0, 2, 6, 7] ∧ 32 ≤ shard9.dim ∧ shard9.dim ≤ 1024 ∧ shard9.dim % 32 = 0 ∧ shard9.vb ≤ 1024 ∧ shard9.sketch ≤ 2 ∧ 1 ≤ shard9.parts ∧ shard9.parts ≤ 65536 ∧ 1 ≤ shard9.capacity ∧ shard9.capacity ≤ 67108864 ∧ ((shard9.areas.all fun a => a.fst % 4096 == 0) = true) ∧ emptyPart.b.areasTier shard9 = true ∧ emptyPart.b.areasLive shard9 = true ∧ directoryOk shard9 (List.map (emptyPart.b.partEnt shard9) (List.range shard9.parts)) = true) := by delta Block.orderPasses; and_intros <;> decide +kernel

/-- States and operands that meet the hypotheses of `Obligations.BranchConditions`, clause by clause. -/
theorem witness_BranchConditions :
    (((7 : W64) = if bit (instrOf (branchTo 0 7 false)).iflags 0 = true then ((onRoute (branchTo 0 7 false)).ctx 32).reg (instrOf (branchTo 0 7 false)).rb else BitVec.ofNat 64 (instrOf (branchTo 0 7 false)).imm32) ∧ (instrOf (branchTo 0 7 false)).imm32 < 2 ^ 32) ∧
    (((9 : W64) = if bit (instrOf (branchTo 1 7 true)).iflags 0 = true then ((onRoute (branchTo 1 7 true)).ctx 32).reg (instrOf (branchTo 1 7 true)).rb else BitVec.ofNat 64 (instrOf (branchTo 1 7 true)).imm32) ∧ (instrOf (branchTo 1 7 true)).imm32 < 2 ^ 32 ∧ (instrOf (branchTo 1 7 true)).sub = 1) ∧
    (((5 : W64) = if bit (instrOf (branchTo 2 5 false)).iflags 0 = true then ((onRoute (branchTo 2 5 false)).ctx 32).reg (instrOf (branchTo 2 5 false)).rb else BitVec.ofNat 64 (instrOf (branchTo 2 5 false)).imm32) ∧ (instrOf (branchTo 2 5 false)).imm32 < 2 ^ 32 ∧ (instrOf (branchTo 2 5 false)).sub = 2) ∧
    (((5 : W64) = if bit (instrOf (branchTo 3 5 false)).iflags 0 = true then ((onRoute (branchTo 3 5 false)).ctx 32).reg (instrOf (branchTo 3 5 false)).rb else BitVec.ofNat 64 (instrOf (branchTo 3 5 false)).imm32) ∧ (instrOf (branchTo 3 5 false)).imm32 < 2 ^ 32 ∧ (instrOf (branchTo 3 5 false)).sub = 3) ∧
    (((5 : W64) = if bit (instrOf (branchTo 4 5 false)).iflags 0 = true then ((onRoute (branchTo 4 5 false)).ctx 32).reg (instrOf (branchTo 4 5 false)).rb else BitVec.ofNat 64 (instrOf (branchTo 4 5 false)).imm32) ∧ (instrOf (branchTo 4 5 false)).imm32 < 2 ^ 32 ∧ (instrOf (branchTo 4 5 false)).sub = 4) ∧
    (((2 : W64) = if bit (instrOf (branchTo 5 2 false)).iflags 0 = true then ((onRoute (branchTo 5 2 false)).ctx 32).reg (instrOf (branchTo 5 2 false)).rb else BitVec.ofNat 64 (instrOf (branchTo 5 2 false)).imm32) ∧ (instrOf (branchTo 5 2 false)).imm32 < 2 ^ 32 ∧ (instrOf (branchTo 5 2 false)).sub = 5) ∧
    (((2 : W64) = if bit (instrOf (branchTo 6 2 false)).iflags 0 = true then ((onRoute (branchTo 6 2 false)).ctx 32).reg (instrOf (branchTo 6 2 false)).rb else BitVec.ofNat 64 (instrOf (branchTo 6 2 false)).imm32) ∧ (instrOf (branchTo 6 2 false)).imm32 < 2 ^ 32 ∧ (instrOf (branchTo 6 2 false)).sub = 6) ∧
    (((257 : W64) = if bit (instrOf (branchTo 7 257 false)).iflags 0 = true then ((onRoute (branchTo 7 257 false)).ctx 32).reg (instrOf (branchTo 7 257 false)).rb else BitVec.ofNat 64 (instrOf (branchTo 7 257 false)).imm32) ∧ (instrOf (branchTo 7 257 false)).imm32 < 2 ^ 32 ∧ (instrOf (branchTo 7 257 false)).sub = 7) ∧
    (((4294967295 : W64) = if bit (instrOf (branchTo 8 4294967295 false)).iflags 0 = true then ((onRoute (branchTo 8 4294967295 false)).ctx 32).reg (instrOf (branchTo 8 4294967295 false)).rb else BitVec.ofNat 64 (instrOf (branchTo 8 4294967295 false)).imm32) ∧ (instrOf (branchTo 8 4294967295 false)).imm32 < 2 ^ 32 ∧ (instrOf (branchTo 8 4294967295 false)).sub = 8) ∧
    (((2 : W64) = if bit (instrOf (branchTo 9 2 false)).iflags 0 = true then ((onRoute (branchTo 9 2 false)).ctx 32).reg (instrOf (branchTo 9 2 false)).rb else BitVec.ofNat 64 (instrOf (branchTo 9 2 false)).imm32) ∧ (instrOf (branchTo 9 2 false)).imm32 < 2 ^ 32 ∧ (instrOf (branchTo 9 2 false)).sub = 9) := by and_intros <;> decide +kernel

/-- States and operands that meet the hypotheses of `Obligations.RouteControlSteps`, clause by clause. -/
theorem witness_RouteControlSteps :
    ((st (onRoute (branchTo 1 5 false))).b.instrAt 32 = some (instrOf (branchTo 1 5 false)) ∧ (st (onRoute (branchTo 1 5 false))).b.ready 32 = true ∧ (instrOf (branchTo 1 5 false)).op = 16 ∧ (instrOf (branchTo 1 5 false)).imm16 < 64) ∧
    ((st (onRoute (branchTo 2 5 false))).b.instrAt 32 = some (instrOf (branchTo 2 5 false)) ∧ (st (onRoute (branchTo 2 5 false))).b.ready 32 = true ∧ (instrOf (branchTo 2 5 false)).op = 16 ∧ (instrOf (branchTo 2 5 false)).imm16 < 64) ∧
    ((st (onRoute replyStep)).b.instrAt 32 = some (instrOf replyStep) ∧ (st (onRoute replyStep)).b.ready 32 = true ∧ (instrOf replyStep).op = 17 ∧ bit (instrOf replyStep).iflags 0 = false ∧ ((st (onRoute replyStep)).b.ctx 32).req = some req0 ∧ req0.reservation = true) ∧
    ((st (onRoute yieldStep)).b.instrAt 32 = some (instrOf yieldStep) ∧ (st (onRoute yieldStep)).b.ready 32 = true ∧ (instrOf yieldStep).op = 18 ∧ ((st (onRoute yieldStep)).b.ctx 32).req = some req0 ∧ req0.reservation = true ∧ req0.pins = []) ∧
    ((st (onRoute endStep)).b.instrAt 32 = some (instrOf endStep) ∧ (st (onRoute endStep)).b.ready 32 = true ∧ (instrOf endStep).op = 19 ∧ ((st (onRoute endStep)).b.ctx 32).req = some req0 ∧ req0.reservation = true ∧ req0.pins = []) := by and_intros <;> decide +kernel

/-- The page of CONTEXT_ALLOC's new context is taken; `allocBlock` is what this answers. -/
theorem witness_RouteAndContextOrders_alloc :
    (match (({ busy with host := { busy.host with
        rankNow := some 3, orderApplied := sat32 busy.host.orderApplied 1, appliedNow := [(3, 40)] } }).setCtx 40
      { Ctx.new with tenant := 3, state := .idle
                     rg := (List.range 8).map fun k => (8 + k, BitVec.ofNat 64 (opAt (alloc 40) (0x20 + 8 * k) 8)) }).growAux
      40 0 0 with
    | .done b => b.ctxs == allocBlock.ctxs
    | _ => false) = true := by decide +kernel

def reply0 : List Byte := fields 16 [(0, 1, 0x11)]
def scanStep : List Byte := fields 16 [(0, 1, 0x06), (8, 2, 1), (10, 2, 1), (12, 4, 0)]
def decodeStep : List Byte := fields 16 [(0, 1, 0x0B), (8, 2, 1), (10, 2, 1)]
def routeOf (i : List Byte) : RouteVersion := ⟨0x3FF, 1, true, [i, fields 16 [(0, 1, 0x13)]]⟩
/-- A request for route `rid` with budget `g`, not yet admitted. -/
def ask (rid g : Nat) : Req := { req0 with admitted := false, routeId := rid, budget := g, args := List.replicate 8 5 }
/-- `busy` with context 32 IDLE and holding request `r`; the tenant's one route is `i` and END. -/
def asking (i : List Byte) (r : Req) : Block :=
  { busy with
    tenants := [(3, { tenant3 with routes := [routeOf i], routeLast := [(0x3FF, 1)] })]
    ctxs := [(32, { Ctx.new with tenant := 3, state := .idle, req := some r })] }
def lostMem : Block := { busy with rel := { busy.rel with memLost := true } }
def fewCoaches : Block := { busy with tp := { busy.tp with floor := 513 } }
def noPages : Block :=
  { asking scanStep (ask 0x3FF 9) with
    tenants := [(3, { tenant3 with quota := Quota.new, routes := [routeOf scanStep], routeLast := [(0x3FF, 1)] })] }
def hotDecode : Block := { asking decodeStep (ask 0x3FF 9) with tp := { busy.tp with share := 1000 } }
def fits : State := st (asking reply0 (ask 0x3FF 9))
def estOf (s : State) (r : Req) : Est :=
  match s.b.admission 32 r with
  | .accept _ e => e
  | _ => s.b.estimate 32 false []
/-- The request's budget is below its estimate. -/
def tight : State := st (asking reply0 (ask 0x3FF 0))
def waits : Req := { ask 0x3FF 9 with queue := true }
/-- `fewCoaches` where context 32 asks. -/
def fewAsk : State := st { asking reply0 waits with tp := { busy.tp with floor := 513 } }
def queuedReq : Req := { waits with queued := true, reason := 3, arrival := 0 }
def inQueue : State := st { asking reply0 queuedReq with tp := { busy.tp with queues := [(0, [32])] } }
def tooLong : State :=
  st { asking reply0 queuedReq with
       tp := { busy.tp with queues := [(0, [32])] }, clk := { busy.clk with cclk := 12207 * 1024 + 1025 } }
def spent : State := st { busy with clk := { busy.clk with cclk := 1024 } }
def windowEnd : State :=
  st { busy with clk := { busy.clk with cclk := 1048576 }, tp := { busy.tp with decodeCclk := 512 * 1048576, window := 4294967295 } }

/-- A frame of 4 pages with 64 KiB of keys and values. -/
def frame0 : Frame := ⟨1, 3, 0, 6, 0, [⟨7, [1], []⟩], [4], 65536, false, 0⟩
/-- `busy` with no page left and context 32 as `c`. -/
def swapping (c : Ctx) : Block :=
  { busy with
    mt := { busy.mt with poolHbm := 0, poolDdr := 0, map := [(4, ⟨3, true, 0, false, false, false, 0, 0, 5⟩)] }
    store := { busy.store with frames := [(4096, frame0)] }
    sb := { busy.sb with chUsed := 10 }
    ctxs := [(32, c)] }
def idleKv : Ctx := { Ctx.new with tenant := 3, state := .idle, gen := 6, kvLen := 1, tokenLog := [7], blocks := [⟨false, 4096⟩] }
def outgoing : State := st (swapping { idleKv with swap := .out 38912 })
def heldCtx : Ctx :=
  { idleKv with state := .swapped, prev := .admitted, blocks := [], swap := .held [frame0] 38912, swapPages := 1, req := some req0 }
/-- Context 64 needs its frames back, and context 32 is IDLE. -/
def wanting : Block := { swapping idleKv with ctxs := [(32, idleKv), (64, heldCtx)] }
def idleOut : State := st wanting
def idleDrop : State := st { wanting with tenants := [(3, { tenant3 with chBudget := 0 })] }
/-- Pages are free again, and context 32's image is held. -/
def incoming : State := st { swapping heldCtx with mt := { busy.mt with map := [] }, store := busy.store }
def taken : Option (Block × List Frame) := incoming.b.takeFrames 3 0 [frame0]
def takenBlock : Block := (taken.getD (busy, [])).1
def takenFrames : List Frame := (taken.getD (busy, [])).2
def arriving : State :=
  st { swapping { heldCtx with swap := .inn [frame0] 38912 } with store := busy.store }

def kernel5 : Kernel := ⟨true, 5, 0, 0, 3, 100, 64, [], 256, []⟩
def task5 : TileTask := ⟨9, 32, false, 2, 0, 0, 5, 100, 64, none, [1, 2], [3], []⟩
def decTask : TileTask := ⟨10, 32, true, 0, 0, 0, 5, 100, 64, none, [], [], []⟩
def image5 : SaveImage := ⟨0, 0, [], List.replicate 128 3, 3, [], [], [], false⟩
def readyTask (t : TileTask) (c : Coach) : Block :=
  { busy with tp := { busy.tp with ready := [(0, [t])] }, coaches := [(0, c)] }
def idleCoach : Coach := { Coach.new with images := [kernel5] }
def onCoach5 (t : TileTask) (x : CoachSt) : Coach := { idleCoach with st := x, task := some t, tenant := 3, kernel := some kernel5 }
def toDispatch : State := st (readyTask task5 idleCoach)
def toStart : State := st { busy with coaches := [(0, onCoach5 task5 .arriving)] }
def imaged : TileTask := { task5 with image := some image5 }
def toRestore : State := st { busy with coaches := [(0, onCoach5 imaged .arriving)] }
def restoring5 : State := st { busy with coaches := [(511, onCoach5 imaged .restoring)] }
/-- Every coach runs `task5`, and a DECODE task is ready. -/
def allBusy : State :=
  st { busy with tp := { busy.tp with ready := [(0, [decTask])] }, coaches := [(7, onCoach5 task5 .running)]
                 ost := { busy.ost with withdrawn := (List.range 512).filter (· != 7) } }
def sentCoach : Coach := { onCoach5 task5 .running with preemptSent := true }
def sent5 : State := st { busy with coaches := [(7, sentCoach)] }
def savingCoach : Coach := { onCoach5 task5 .saving with image := some image5 }
def saving5 : State := st { busy with coaches := [(7, savingCoach)] }
def savedCoach : Coach := { onCoach5 task5 .ending with notice := some (.saved image5) }
def saved5 : State := st { busy with coaches := [(7, savedCoach)] }
def doneCoach : Coach :=
  { onCoach5 task5 .ending with notice := some (.done Codes.ok 0), overlay := [(0x010000000000, 1), (0x010000000040, 2)] }
def step5 : StepRun := ⟨4, 6, .task, 2, none, none, none, none, none, [], 0, 0, [], none⟩
def done5 : State :=
  st { busy with coaches := [(7, doneCoach)], tp := { busy.tp with q := 200 }
                 ctxs := [(32, { Ctx.new with tenant := 3, state := .running, req := some req0, step := some step5 })] }

def gen5sliced : GeneratorDecl := ⟨1, 1, 1, 0, 0, 0, 0, none, 4, true, 0, 0, 0, 0, 0, 0, 0⟩
def decl5sliced : ModelDecl := ⟨none, none, some gen5sliced, none, []⟩
def prefillStep0 : List Byte := fields 16 [(0, 1, 0x0A), (8, 2, 1), (10, 2, 6)]
/-- A team lacks a member, and the route's PREFILL runs a sliced generator. -/
def lostMember : Block :=
  { asking prefillStep0 (ask 0x3FF 9) with
    mt := { busy.mt with objs := [(3 * 4096 + (instrOf prefillStep0).obj, object 6 true (some decl5sliced))] }
    cb := { busy.cb with size := 2, expected := 3, present := 1 } }
/-- Declared work that leaves the request no time. -/
def loaded : Block := { asking reply0 (ask 0x3FF 9) with tp := { busy.tp with q := 2 ^ 40 } }
def agedReq : Req := { waits with queued := true, reason := 0xA, arrival := 0 }
/-- Context 63 waits since long, and its load test failed. -/
def behind : Block :=
  { asking reply0 (ask 0x3FF 9) with
    ctxs := [(32, { Ctx.new with tenant := 3, state := .idle, req := some (ask 0x3FF 9) }),
             (64, { Ctx.new with tenant := 3, state := .idle, req := some agedReq })]
    clk := { busy.clk with cclk := 2 ^ 40 }
    tp := { busy.tp with queues := [(coachman 32, [64])] } }
def segCmd5 : SegCmd := ⟨32, 4, 1, [0x61], TextIssue.new⟩
def segStep5 : StepRun := ⟨4, 1, .task, 1, none, none, none, none, none, [], 0, 0, [.segment segCmd5], none⟩
def toSegIssue : State :=
  st { busy with
    coaches := [(0, onCoach5 task5 .arriving)]
    ctxs := [(32, { Ctx.new with tenant := 3, state := .running, req := some req0, step := some segStep5 })] }

/-- States and operands that meet the hypotheses of `Obligations.TurnpikeAdmits`, clause by clause. -/
theorem witness_TurnpikeAdmits :
    ((fits.b.ctx 32).req = some (ask 1023 9) ∧ (ask 1023 9).admitted = false ∧ (ask 1023 9).queued = false ∧ (ask 1023 9).finish = none ∧ (fits.b.ctx 32).freeing = false ∧ (fits.b.ctx 32).state = CtxState.idle ∧ (ask 1023 9).args.length = 8 ∧ (ask 1023 9).routeId ≠ resumeId ∧ fits.b.admission 32 (ask 1023 9) = Verdict.accept (routeOf reply0) (estOf fits (ask 1023 9))) ∧
    ((tight.b.ctx 32).req = some (ask 1023 0) ∧ (ask 1023 0).admitted = false ∧ (ask 1023 0).queued = false ∧ (ask 1023 0).finish = none ∧ (tight.b.ctx 32).freeing = false ∧ (tight.b.ctx 32).state = CtxState.idle ∧ (ask 1023 0).reservation = true ∧ (ask 1023 0).pins = [] ∧ (ask 1023 0).cachePages = [] ∧ tight.b.admission 32 (ask 1023 0) = Verdict.deny 9 1 false) ∧
    ((fewAsk.b.ctx 32).req = some waits ∧ waits.admitted = false ∧ waits.queued = false ∧ waits.finish = none ∧ (fewAsk.b.ctx 32).freeing = false ∧ (fewAsk.b.ctx 32).state = CtxState.idle ∧ waits.queue = true ∧ waits.ackQueued = false ∧ fewAsk.b.admission 32 waits = Verdict.deny 3 0 true) ∧
    (tabGet [] (coachman 32) inQueue.b.tp.queues = [32] ∧ (inQueue.b.ctx 32).req = some queuedReq ∧ queuedReq.admitted = false ∧ (inQueue.b.ctx 32).freeing = false ∧ (inQueue.b.ctx 32).state = CtxState.idle ∧ queuedReq.routeId ≠ resumeId ∧ inQueue.b.admission 32 queuedReq = Verdict.accept (routeOf reply0) (estOf inQueue queuedReq)) ∧
    ((tooLong.b.ctx 32).req = some queuedReq ∧ queuedReq.queued = true ∧ queuedReq.admitted = false ∧ queuedReq.finish = none ∧ queuedReq.arrival + BitVec.toNat tooLong.b.tp.queueLimit * 1024 < tooLong.b.clk.cclk ∧ queuedReq.reservation = true ∧ queuedReq.pins = [] ∧ queuedReq.cachePages = [] ∧ (tooLong.b.ctx 32).state = CtxState.idle) ∧
    ((spent.b.ctx 32).req = some req0 ∧ req0.admitted = true ∧ req0.ending = none ∧ req0.finish = none ∧ req0.reservation = true ∧ req0.pins = [] ∧ req0.cachePages = [] ∧ (spent.b.ctx 32).freeing = false ∧ (spent.b.ctx 32).state = CtxState.running ∧ (spent.b.ctx 32).step = none ∧ (spent.b.ctx 32).admitAt + req0.budget * 1024 ≤ spent.b.clk.cclk ∧ spent.b.onCoach 32 = false) ∧
    (windowEnd.b.tp.windowStart + 1048576 ≤ windowEnd.b.clk.cclk ∧ windowEnd.b.nCoaches ≠ 0) := by and_intros <;> decide +kernel

/-- States and operands that meet the hypotheses of `Obligations.ContextsSwapOutAndIn`, clause by clause. -/
theorem witness_ContextsSwapOutAndIn :
    (idleOut.b.short 0 = true ∧ idleOut.b.swapVictim 0 = some 32 ∧ idleOut.b.slicedCtx 32 = false ∧ (idleOut.b.ctx 32).state ≠ CtxState.free ∧ (∀ (x : Nat × Ctx), x ∈ idleOut.b.ctxs → x.snd.step = none) ∧ (idleOut.b.budgetTakes (idleOut.b.ctx 32).tenant (imageSlots (imageBytes (List.map (fun x => x.snd) (idleOut.b.ownFrames 32)))) = true)) ∧
    (idleDrop.b.short 0 = true ∧ idleDrop.b.swapVictim 0 = some 32 ∧ idleDrop.b.slicedCtx 32 = false ∧ (idleDrop.b.ctx 32).state ≠ CtxState.free ∧ (∀ (x : Nat × Ctx), x ∈ idleDrop.b.ctxs → x.snd.step = none) ∧ (idleDrop.b.budgetTakes (idleDrop.b.ctx 32).tenant (imageSlots (imageBytes (List.map (fun x => x.snd) (idleDrop.b.ownFrames 32)))) = false)) ∧
    ((outgoing.b.ctx 32).swap = SwapState.out 38912 ∧ ((outgoing.b.ctx 32).state = CtxState.idle ∨ (outgoing.b.ctx 32).state = CtxState.blocked ∨ (outgoing.b.ctx 32).state = CtxState.halted) ∧ (outgoing.b.ctx 32).freeing = false ∧ (∀ (x : Nat × Ctx), x ∈ outgoing.b.ctxs → x.snd.step = none)) ∧
    (incoming.b.firstNeed (coachman 32) = some 32 ∧ incoming.b.slicedCtx 32 = false ∧ (incoming.b.ctx 32).swap = SwapState.held [frame0] 38912 ∧ (incoming.b.ctx 32).state = CtxState.swapped ∧ taken.isSome = true) ∧
    ((arriving.b.ctx 32).swap = SwapState.inn [frame0] 38912 ∧ (arriving.b.ctx 32).state = CtxState.swapped ∧ (arriving.b.ctx 32).prev ≠ CtxState.free ∧ (arriving.b.ctx 32).freeing = false ∧ arriving.b.inTeam = false) := by and_intros <;> decide +kernel

/-- States and operands that meet the hypotheses of `Obligations.AdmissionTestsInOrder`, clause by clause. -/
theorem witness_AdmissionTestsInOrder :
    ((lostMem.clk.stage ≠ Stage.ready ∨ lostMem.rel.memLost = true)) ∧
    (lostMember.clk.stage = Stage.ready ∧ lostMember.rel.memLost = false ∧ lostMember.memberLost = true ∧ (ask 1023 9).routeId ≤ 1023 ∧ lostMember.currentRoute (lostMember.ctx 32).tenant (ask 1023 9).routeId = some (routeOf prefillStep0) ∧ lostMember.needsSlice (lostMember.ctx 32).tenant ((routeOf prefillStep0).from 0) = true) ∧
    (fewCoaches.clk.stage = Stage.ready ∧ fewCoaches.rel.memLost = false ∧ fewCoaches.memberLost = false ∧ fewCoaches.liveCoaches < fewCoaches.tp.floor) ∧
    (busy.clk.stage = Stage.ready ∧ busy.rel.memLost = false ∧ busy.memberLost = false ∧ busy.tp.floor ≤ busy.liveCoaches ∧ (ask resumeId 9).routeId = resumeId ∧ (busy.ctx 32).mayResume = false) ∧
    (busy.clk.stage = Stage.ready ∧ busy.rel.memLost = false ∧ busy.memberLost = false ∧ busy.tp.floor ≤ busy.liveCoaches ∧ (ask 5 9).routeId ≠ resumeId ∧ busy.currentRoute (busy.ctx 32).tenant (ask 5 9).routeId = none) ∧
    (noPages.clk.stage = Stage.ready ∧ noPages.rel.memLost = false ∧ noPages.memberLost = false ∧ noPages.tp.floor ≤ noPages.liveCoaches ∧ (ask 1023 9).routeId ≤ 1023 ∧ noPages.currentRoute (noPages.ctx 32).tenant (ask 1023 9).routeId = some (routeOf scanStep) ∧ noPages.quotaReason (noPages.ctx 32).tenant (noPages.needOf 32 (noPages.estimate 32 false ((routeOf scanStep).from 0))) = some 6) ∧
    (hotDecode.clk.stage = Stage.ready ∧ hotDecode.rel.memLost = false ∧ hotDecode.memberLost = false ∧ hotDecode.tp.floor ≤ hotDecode.liveCoaches ∧ (ask 1023 9).routeId ≤ 1023 ∧ hotDecode.currentRoute (hotDecode.ctx 32).tenant (ask 1023 9).routeId = some (routeOf decodeStep) ∧ hotDecode.quotaReason (hotDecode.ctx 32).tenant (hotDecode.needOf 32 (hotDecode.estimate 32 false ((routeOf decodeStep).from 0))) = none ∧ ((((routeOf decodeStep).from 0).any fun i => i.op == 11) = true) ∧ hotDecode.tp.ceiling ≠ 100 ∧ hotDecode.tp.ceiling * 1024 ≤ hotDecode.tp.share * 100) ∧
    (tight.b.clk.stage = Stage.ready ∧ tight.b.rel.memLost = false ∧ tight.b.memberLost = false ∧ tight.b.tp.floor ≤ tight.b.liveCoaches ∧ (ask 1023 0).routeId ≤ 1023 ∧ tight.b.currentRoute (tight.b.ctx 32).tenant (ask 1023 0).routeId = some (routeOf reply0) ∧ tight.b.estimate 32 false ((routeOf reply0).from 0) = tight.b.estimate 32 false ((routeOf reply0).from 0) ∧ tight.b.quotaReason (tight.b.ctx 32).tenant (tight.b.needOf 32 (tight.b.estimate 32 false ((routeOf reply0).from 0))) = none ∧ (false = ((routeOf reply0).from 0).any fun i => i.op == 11) ∧ (false = false ∨ tight.b.tp.ceiling = 100 ∨ tight.b.tp.share * 100 < tight.b.tp.ceiling * 1024) ∧ (ask 1023 0).budget * 1024 < tight.b.noLoad 32 (tight.b.estimate 32 false ((routeOf reply0).from 0))) ∧
    (loaded.clk.stage = Stage.ready ∧ loaded.rel.memLost = false ∧ loaded.memberLost = false ∧ loaded.tp.floor ≤ loaded.liveCoaches ∧ (ask 1023 9).routeId ≤ 1023 ∧ loaded.currentRoute (loaded.ctx 32).tenant (ask 1023 9).routeId = some (routeOf reply0) ∧ loaded.estimate 32 false ((routeOf reply0).from 0) = loaded.estimate 32 false ((routeOf reply0).from 0) ∧ loaded.quotaReason (loaded.ctx 32).tenant (loaded.needOf 32 (loaded.estimate 32 false ((routeOf reply0).from 0))) = none ∧ (false = ((routeOf reply0).from 0).any fun i => i.op == 11) ∧ (false = false ∨ loaded.tp.ceiling = 100 ∨ loaded.tp.share * 100 < loaded.tp.ceiling * 1024) ∧ loaded.noLoad 32 (loaded.estimate 32 false ((routeOf reply0).from 0)) ≤ (ask 1023 9).budget * 1024 ∧ (ask 1023 9).budget * 1024 < loaded.noLoad 32 (loaded.estimate 32 false ((routeOf reply0).from 0)) + loaded.loadTerm) ∧
    (behind.clk.stage = Stage.ready ∧ behind.rel.memLost = false ∧ behind.memberLost = false ∧ behind.tp.floor ≤ behind.liveCoaches ∧ (ask 1023 9).routeId ≤ 1023 ∧ behind.currentRoute (behind.ctx 32).tenant (ask 1023 9).routeId = some (routeOf reply0) ∧ behind.estimate 32 false ((routeOf reply0).from 0) = behind.estimate 32 false ((routeOf reply0).from 0) ∧ behind.quotaReason (behind.ctx 32).tenant (behind.needOf 32 (behind.estimate 32 false ((routeOf reply0).from 0))) = none ∧ (false = ((routeOf reply0).from 0).any fun i => i.op == 11) ∧ (false = false ∨ behind.tp.ceiling = 100 ∨ behind.tp.share * 100 < behind.tp.ceiling * 1024) ∧ behind.noLoad 32 (behind.estimate 32 false ((routeOf reply0).from 0)) + behind.loadTerm ≤ (ask 1023 9).budget * 1024 ∧ behind.heldBack 32 false = true) ∧
    (fits.b.clk.stage = Stage.ready ∧ fits.b.rel.memLost = false ∧ fits.b.memberLost = false ∧ fits.b.tp.floor ≤ fits.b.liveCoaches ∧ (ask 1023 9).routeId ≤ 1023 ∧ fits.b.currentRoute (fits.b.ctx 32).tenant (ask 1023 9).routeId = some (routeOf reply0) ∧ estOf fits (ask 1023 9) = fits.b.estimate 32 false ((routeOf reply0).from 0) ∧ fits.b.quotaReason (fits.b.ctx 32).tenant (fits.b.needOf 32 (estOf fits (ask 1023 9))) = none ∧ (false = ((routeOf reply0).from 0).any fun i => i.op == 11) ∧ (false = false ∨ fits.b.tp.ceiling = 100 ∨ fits.b.tp.share * 100 < fits.b.tp.ceiling * 1024) ∧ fits.b.noLoad 32 (estOf fits (ask 1023 9)) + fits.b.loadTerm ≤ (ask 1023 9).budget * 1024 ∧ fits.b.heldBack 32 false = false) := by and_intros <;> decide +kernel

/-- States and operands that meet the hypotheses of `Obligations.TasksDispatchAndPreempt`, clause by clause. -/
theorem witness_TasksDispatchAndPreempt :
    (toDispatch.b.presented 0 = some task5 ∧ toDispatch.b.pickCoach 0 task5.prefQ = some 0 ∧ (toDispatch.b.coach 0).task = none ∧ (toDispatch.b.coach 0).resident (toDispatch.b.tenantOf task5.ctx) task5.kernelObj task5.kernelId = some kernel5 ∧ ((toDispatch.b.coach 0).loadImage (toDispatch.b.imageHeld 0) kernel5).storeFits = true) ∧
    ((toStart.b.coach 0).task = some task5 ∧ (toStart.b.coach 0).st = CoachSt.arriving ∧ task5.image = none ∧ (toStart.b.coach 0).kernel = some kernel5 ∧ kernel5.blank 0 = false ∧ (∀ (st : StepRun), (toStart.b.ctx task5.ctx).step = some st → st.cmds = [])) ∧
    ((toSegIssue.b.coach 0).task = some task5 ∧ (toSegIssue.b.coach 0).st = CoachSt.arriving ∧ task5.image = none ∧ (toSegIssue.b.ctx task5.ctx).step = some segStep5 ∧ segStep5.cmds = [StepCmd.segment segCmd5] ∧ toSegIssue.b.txu.segQ = []) ∧
    ((toRestore.b.coach 0).task = some imaged ∧ (toRestore.b.coach 0).st = CoachSt.arriving ∧ imaged.image = some image5) ∧
    ((restoring5.b.coach 511).task = some imaged ∧ (restoring5.b.coach 511).st = CoachSt.restoring ∧ imaged.image = some image5 ∧ (restoring5.b.coach 511).kernel = some kernel5 ∧ kernel5.blank (bits (fieldAt image5.bytes 20 4) 15 4) = false) ∧
    ((List.find? (fun t => t.decode && !List.any allBusy.b.coaches fun c => c.snd.preemptFor == some t.id) (allBusy.b.presentable 0) = some decTask) ∧ allBusy.b.mainUp = true ∧ allBusy.b.victim = some 7 ∧ (allBusy.b.coach 7).task = some task5 ∧ allBusy.b.saveUsed + (64 + task5.maxSave) ≤ saveRegion) ∧
    ((sent5.b.coach 7).preemptSent = true ∧ (sent5.b.coach 7).task = some task5) ∧
    ((saving5.b.coach 7).st = CoachSt.saving ∧ (saving5.b.coach 7).image = some image5) ∧
    ((saved5.b.coach 7).notice = some (Notice.saved image5) ∧ (saved5.b.coach 7).task = some task5 ∧ (saved5.b.coach 7).discard = false) ∧
    ((done5.b.coach 7).notice = some (Notice.done Codes.ok 0) ∧ (done5.b.coach 7).task = some task5 ∧ (done5.b.coach 7).discard = false ∧ (done5.b.coach 7).deferred = [] ∧ done5.b.work? task5.ctx = none ∧ (done5.b.ctx task5.ctx).step = some step5 ∧ (done5.b.ctx task5.ctx).state ≠ CtxState.free ∧ 2 ≤ step5.tasks) := by and_intros <;> decide +kernel

/-- In `allBusy` no coach is idle: all but coach 7 are withdrawn, and coach 7 runs a task. -/
theorem witness_TasksDispatchAndPreempt_noCoach : allBusy.b.pickCoach 0 decTask.prefQ = none := by
  have h : ∀ k, k < 512 → allBusy.b.idleFor 0 k = false := by
    intro k hk
    by_cases h7 : k = 7
    · subst h7; decide +kernel
    · have hw : allBusy.b.ost.withdrawn.contains k = true := by
        simp [allBusy, st, h7, hk]
      simp [Block.idleFor, Block.coachOpen]
      intro h; simp_all
  have h1 : (((List.range 128).map (128 * decTask.prefQ + ·)).find? (allBusy.b.idleFor 0)) = none := by
    rw [List.find?_eq_none]
    intro k hk
    simp [decTask] at hk
    simp [h k (by omega)]
  have h2 : ((List.range 512).find? (allBusy.b.idleFor 0)) = none := by
    rw [List.find?_eq_none]
    intro k hk
    simp at hk
    simp [h k hk]
  unfold Block.pickCoach
  rw [h1]; exact h2

def objAt (kind base : Nat) (decl : Option ModelDecl) : Obj := ⟨kind, false, 0, 0x100000, base, .live, false, decl⟩
/-- An instruction of opcode `op` on object `obj`, lists 0 and 1 its operands and list 2 its result. -/
def instr (op obj imm16 imm32 : Nat) : List Byte :=
  fields 16 [(0, 1, op), (5, 1, 0x12), (8, 2, imm16), (10, 2, obj), (12, 4, imm32)]
def flagged (i : List Byte) : List Byte := putField i 2 1 1
def declEnc : ModelDecl := ⟨some ⟨32, 0, 0, 500⟩, none, none, none, []⟩
def gen4 : GeneratorDecl := ⟨1, 1, 1, 0, 1, 4, 9, none, 256, false, 0, 0, 0, 0, 0, 0, 0⟩
def declGen : ModelDecl := ⟨none, none, some gen4, none, []⟩
/-- Header of a segmenter model of 256 byte tokens (R361), its first piece, the piece of byte 0x61, an empty bucket. -/
def segModelMem (a : Nat) : List Host.Cell :=
  cells a (fields 64 [(0, 4, 256), (8, 4, 10)]) ++ cells (a + 64) (fields 144 [(1, 1, 1), (2, 1, 2)]) ++
  cells (a + 14032) (fields 144 [(1, 1, 1), (2, 1, 2), (0x48, 1, 0x61)]) ++ cells (a + 51520) (List.replicate 16 0)
/-- A table of 4 F32 elements with 16 rows (R435). -/
def tableMem (a : Nat) : List Host.Cell := cells a (fields 64 [(0, 4, 1), (4, 4, 4), (8, 4, 4), (0x10, 8, 1)])
/-- A shard set of shard 5 of this module (R270). -/
def setMem (a ref : Nat) : List Host.Cell := cells a (fields 72 [(0, 2, 1), (2, 1, ref), (64, 8, 5)])
/-- A template of one HISTORY segment (R348). -/
def templateMem (a : Nat) : List Host.Cell := cells a (fields 80 [(0, 4, 1), (4, 4, 0x00010001), (8, 4, 1), (64, 4, 2)])
/-- Objects of the steps: 3 a shard set, 4 a segmenter model, 5 a table, 6 a generator, 7 an encoder, 9 a template. -/
def stepObjs : Tab Obj :=
  [(3 * 4096 + 1, object 1 true none), (3 * 4096 + 2, object 2 false none), (3 * 4096 + 3, objAt 2 0x020000200000 none),
   (3 * 4096 + 4, objAt 3 0x020000300000 none), (3 * 4096 + 5, objAt 10 0x020000400000 none),
   (3 * 4096 + 6, objAt 6 0x020000500000 (some declGen)), (3 * 4096 + 7, objAt 4 0x020000600000 (some declEnc)),
   (3 * 4096 + 9, objAt 9 0x020000700000 none)]
/-- `onRoute` with lists 0 and 1 of given kinds and counts, at 2,048 and 4,096 bytes of the context range, a text record
whose VOCAB is 4, and shard 5; object bytes `ex`. -/
def stepBlock (i : List Byte) (ex : List Host.Cell) (la lb : Nat × Nat) (las lbs : List Byte) : Block :=
  { onRoute i with
    ctxs := [(32, { Ctx.new with
      tenant := 3, state := .running, routeId := 0x3FF, routeVer := 1, routeHeld := true, req := some { req0 with inLen := 3 }
      gen := 6, lh := [(0, ⟨la.1, la.2, 32⟩), (1, ⟨lb.1, lb.2, 64⟩)] })]
    ske := (sharded .live).ske
    mt := { busy.mt with objs := stepObjs }
    mem := ex ++ cells ctxRangeBase (fields 16 [(0, 2, 4)]) ++ cells (ctxRangeBase + 2048) las ++ cells (ctxRangeBase + 4096) lbs }
def stepState (i : List Byte) (la lb : Nat × Nat) (las lbs : List Byte) (ex : List Host.Cell) : State := st (stepBlock i ex la lb las lbs)
/-- The shard's bytes and a shard set. -/
def searchMem (ref : Nat) : List Host.Cell := (sharded .live).mem ++ setMem 0x020000200000 ref
/-- A context in the middle of a step. -/
def midStep (s : State) (r : StepRun) (f : Ctx → Ctx) : State :=
  ⟨s.pending, s.b.modCtx 32 fun c => f { c with step := some r }⟩

def segStep : List Byte := instr 1 4 0 0
def segList : List Byte := flagged (instr 1 4 0 0)
def toSegList : State := stepState segList (kBytes, 3) (0, 0) [0x61, 0x61, 0x61] [] (segModelMem 0x020000300000)
def segNone : List Byte := instr 1 99 0 0
def toSegment : State := stepState segStep (0, 0) (0, 0) [] [] (segModelMem 0x020000300000)
def badSegment : State := stepState segNone (0, 0) (0, 0) [] [] []
def segReq : Req := { req0 with inLen := 3 }
def segRun : StepRun := ⟨0, 1, .rounds, 1, none, none, none, none, none, [], 0, 0, [], none⟩
def segCmd : SegCmd := ⟨32, 4, 1, [0x61], TextIssue.new⟩
def inSegmenter : State :=
  midStep ⟨[], { toSegment.b with txu := { toSegment.b.txu with segQ := [segCmd] } }⟩ segRun id
def model4 : Obj := objAt 3 0x020000300000 none
def maskOff : List Byte := instr 0xD 0 0 0
def maskOn : List Byte := instr 0xD 65535 0xFFFF 0
def maskState (i : List Byte) : State :=
  let s := stepState i (0, 0) (0, 0) [] [] []
  ⟨[], { s.b with mt := { s.b.mt with objs := stepObjs ++ [(3 * 4096 + 65535, objAt 8 0x020000800000 none)] } }⟩
def obj8 : Obj := objAt 8 0x020000800000 none
def stopsOff : List Byte := flagged (instr 0xE 0 0 0)
def stopsOn : List Byte := instr 0xE 0 0 0
def stopsState (i : List Byte) : State := stepState i (kBytes, 4) (0, 0) [1, 2, 0x61, 0x62] [] []
def detokStep : List Byte := instr 0xF 0 0 0
def toDetok : State := stepState detokStep (kTokens, 1) (0, 0) (le 4 0x61) [] (segModelMem 0x020000300000)
def detokCmd : DetokCmd := ⟨32, [0x61], TextIssue.new⟩
def detokRun : StepRun := ⟨0, 0xF, .rounds, 1, none, none, none, none, none, [], 0, 0, [], none⟩
def inDetok : State := midStep ⟨[], { toDetok.b with txu := { toDetok.b.txu with detokQ := [detokCmd] } }⟩ detokRun id

def embedStep : List Byte := instr 2 7 0 0
def toEmbed : State := stepState embedStep (kTokens, 1) (0, 0) (le 4 9) [] []
def encoder7 : Obj := objAt 4 0x020000600000 (some declEnc)
def vec0 : List Byte := vectorBytes 32 0 0 (List.replicate 32 0x38) (List.replicate 32 0)
def query0 : QueryVec := queryOf vec0
def table5 : Table := tableOf (5 * 2 ^ 35) (fields 64 [(0, 4, 1), (4, 4, 4), (8, 4, 4), (0x10, 8, 1)])
def gatherNone : List Byte := instr 3 5 0 0
def toGatherNone : State := stepState gatherNone (kIndices, 0) (0, 0) [] [] (tableMem 0x020000400000)
def gatherBytes (s : State) : List Byte :=
  match s.b.fetchTask (laneCmd (s.b.ctx 32).tenant table5.addr) Codes.gtuXlate (table5.addr + 0x80) table5.rb with
  | .ok d => d
  | .error _ => []
def probeStep : List Byte := instr 5 3 1 0
def toProbe : State := stepState probeStep (kVector, vec0.length) (0, 0) vec0 [] (searchMem 0)
def gatherStep : List Byte := instr 3 5 0 0
def toGather : State := stepState gatherStep (kTokens, 2) (0, 0) (le 4 9 ++ le 4 8) [] (tableMem 0x020000400000)
def updateStep : List Byte := instr 4 5 0 0
def toUpdate : State := stepState updateStep (kIndices, 1) (kRows, 1) (le 8 3) (fields 128 [(0, 4, 4)]) (tableMem 0x020000400000)

def scanOf : List Byte := instr 6 3 1 0
def toScan : State := stepState scanOf (kVector, vec0.length) (kPartitions, 1) vec0 (List.replicate 8 0) (searchMem 0)
def walkOf : List Byte := instr 7 3 1 1
def seed5 : List Byte := ({ id := 5 * 2 ^ 26, score := 0, setIdx := 0, flags := 0, cache := 0xFFFF } : Cand).bytes
def toWalk : State := stepState walkOf (kVector, vec0.length) (kCandidates, 1) vec0 seed5 (searchMem 0)
def toRefWalk : State := st (stepBlock walkOf (searchMem 1) (kVector, vec0.length) (kCandidates, 1) vec0 seed5)
def beam5 : BeamEnt := ⟨{ id := 5 * 2 ^ 26, score := 0, setIdx := 0, flags := 2, cache := 0xFFFF }, 0, 0, false, true, false⟩
def walk5 : WalkRun := { WalkRun.new 0 5 none 6 with beam := [beam5], seen := [5 * 2 ^ 26] }
def walkSearch : SearchRun := { SearchRun.new query0 with k := 1, maxHops := 2, walks := [walk5] }
def walkRun : StepRun := ⟨0, 7, .rounds, 1, none, some walkSearch, none, none, none, [], 0, 0, [], none⟩
def hopping : State := midStep toWalk walkRun id
def hopRecord : List Byte := putField (List.replicate 4096 1) 0x1C 4 0xFFFFFFFF
/-- The same with the record in the request's cache. -/
def hopHeld : State :=
  ⟨[], hopping.b.modCtx 32 fun c => { c with req := some { req0 with inLen := 3, records := [(5 * 2 ^ 26, hopRecord)] } }⟩
/-- The record's read is under way. -/
def hopWaits : State :=
  ⟨[], hopping.b.modCtx 32 fun c => { c with req := some { req0 with inLen := 3, fetching := [5 * 2 ^ 26] } }⟩
def fetchOf (s : State) : CacheRes × WalkRun := s.b.fetchWalk 32 (shard5 .live) walk5 [5 * 2 ^ 26]
def fetchBlock (s : State) : Block :=
  match (fetchOf s).1 with
  | .ok b => b
  | _ => busy
def hopB1 : Block := fetchBlock hopHeld
def hopNext : Option Block :=
  hopB1.walkOn 32 (shard5 .live) walkSearch (hopB1.expand (shard5 .live) walkSearch (fetchOf hopHeld).2 (5 * 2 ^ 26) hopRecord)
def hopB2 : Block := hopNext.getD busy
def awaiting : SearchRun := { SearchRun.new query0 with queries := [.new 0 5 (some 7) 0] }
def awaitRun : StepRun := ⟨0, 6, .search, 1, none, some awaiting, none, none, none, [], 0, 0, [], none⟩
def remoteLate : State :=
  midStep ⟨[], { toScan.b with clk := { toScan.b.clk with cclk := 0x3000 * 1024 } }⟩ awaitRun id
def eng8 : EngQuery := ⟨32, 0, 8, 0, 0⟩
def turnEnd : State :=
  st { busy with clk := { busy.clk with cclk := 12288 }
                 ske := { busy.ske with engines := [(0, { Engine.new 0 with waiting := [eng8] })] } }
def idlePass : Pass := ⟨5, 0, [], none⟩
def passEnd : State :=
  st { sharded .live with ske := { (sharded .live).ske with engines := [(5, { Engine.new 5 with passes := [idlePass] })] } }
def eng5 : EngQuery := ⟨32, 0, 5, 0, 0⟩
def pass5 : Pass := ⟨5, 0, [eng5], none⟩
def query5 : ShardQuery := { ShardQuery.new 0 5 none 6 with pending := [(0, 0)] }
def twoQueries : SearchRun := { SearchRun.new query0 with k := 1, queries := [query5, .new 1 6 none 0] }
def scanRun5 : StepRun := ⟨0, 6, .search, 1, none, some twoQueries, none, none, none, [], 0, 0, [], none⟩
def scanning : State :=
  midStep ⟨[], { toScan.b with
    ske := { toScan.b.ske with engines := [(5, { Engine.new 5 with passes := [pass5] })] }
    mem := cells 0x020000000000 (fields 16 [(4, 4, 8), (8, 4, 1)]) ++ cells 0x020000001000 (List.replicate 32 0) ++
      toScan.b.mem.drop 16 }⟩ scanRun5 id

def rerankOf : List Byte := instr 8 0 1 0
def toRerank : State := stepState rerankOf (kVector, vec0.length) (kCandidates, 0) vec0 [] (searchMem 0)
def rerankSeed : State := stepState rerankOf (kVector, vec0.length) (kCandidates, 1) vec0 seed5 (searchMem 0)
def noVector : State := stepState rerankOf (0, 0) (kCandidates, 0) [] [] (searchMem 0)
def idleSearch : SearchRun := { SearchRun.new query0 with fetching := true }
def rerankRun : StepRun := ⟨0, 8, .search, 1, none, some idleSearch, none, none, none, [], 0, 0, [], none⟩
def reranking : State := midStep toRerank rerankRun id
def reranked : Block :=
  reranking.b.rerankGo 32 (instrOf rerankOf) (reranking.b.prepared 32 idleSearch)
    ⟨idleSearch.dim, idleSearch.fmt, 0, idleSearch.vec, idleSearch.sketch⟩ []
def packStep : List Byte := instr 9 9 0 100
def toPack : State := stepState packStep (0, 0) (0, 0) [] [] (templateMem 0x020000700000)
def template9 : Template := ⟨0, false, none, 1, 1, 1, 0, [⟨2, false, 0, 0, 0, 0⟩], []⟩
def packRun : StepRun := ⟨0, 9, .search, 1, none, some idleSearch, none, none, none, [], 0, 0, [], none⟩
def packing : State := midStep toPack packRun id
def packed : Block := packing.b.packGo 32 (instrOf packStep) (packing.b.prepared 32 idleSearch)

def prefillStep : List Byte := instr 0xA 6 0 0
def toPrefill : State := stepState prefillStep (kTokens, 2) (0, 0) (le 4 7 ++ le 4 8) [] []
def generator6 : Obj := objAt 6 0x020000500000 (some declGen)
def kv0 : KvToken := ⟨[1, 2], [[0x3F800000]]⟩
def prefilled : Alloc × List Nat := toPrefill.b.prefillWrite 32 gen4 6 [7, 8] [kv0, kv0]
def prefillBlock : Block :=
  match prefilled.1 with
  | .done b => b
  | _ => busy
def specOff : List Byte := instr 0xC 0 0 0
def specOn : List Byte := instr 0xC 6 8 0
def specState (i : List Byte) : State := stepState i (0, 0) (0, 0) [] [] []
def decodeOf : List Byte := instr 0xB 6 4 0
def toDecode : State :=
  let s := stepState decodeOf (0, 0) (0, 0) [] [] (segModelMem 0x020000300000)
  ⟨[], s.b.modCtx 32 fun c => { c with nextRec := some [0x3F800000, 0] }⟩
def roundRun : StepRun := ⟨0, 0xB, .rounds, 0, none, none, some ⟨[], false⟩, none, none, [], 0, 0, [], none⟩
def inRound : State := midStep toDecode roundRun id
def round0 : RoundData := ⟨[], [], [kv0], [[0x3F800000, 0]], kv0, [], []⟩
def env0 : GenEnv :=
  { n := 32, tenant := (inRound.b.ctx 32).tenant, g := gen4, gram := none, text := false, max := (instrOf decodeOf).imm16
    seed := (inRound.b.ctx 32).reg 15, endOnDead := bit (instrOf decodeOf).iflags 0, unit := inRound.b.reinsUnit 32 }
def genStart : Gen := { b := inRound.b.nextEpoch, rec_ := inRound.b.textRec 32, mask := none, det := ⟨0, [], []⟩, toks := [] }
def genChosen : Gen := genStart.sampled env0 ((inRound.b.ctx 32).nextRec.getD [])
def genEmit : Gen := (genChosen.emit env0 0 false false).1
def genPass : Gen :=
  match genEmit.pass env0 (instrOf decodeOf) round0 none 0 with
  | some (x, _) => x
  | none => genStart
def detokDone : Detok := ⟨1, [], []⟩
def noPrep : Prep := ⟨[], 0, 0⟩
def segRes : SegResult :=
  match inSegmenter.b.segmentRun model4 segCmd.remain segCmd.input with
  | .ok r => r
  | .error _ => ⟨[], 0, false, 0⟩

/-- States and operands that meet the hypotheses of `Obligations.TextSteps`, clause by clause. -/
theorem witness_TextSteps :
    (toSegment.b.starts 32 1 (instrOf segStep) ∧ bit (instrOf segStep).iflags 0 = false ∧ toSegment.b.liveObj? (toSegment.b.ctx 32).tenant (instrOf segStep).obj = some model4 ∧ model4.kind = 3 ∧ (toSegment.b.ctx 32).req = some segReq ∧ BitVec.toNat ((toSegment.b.ctx 32).reg (instrOf segStep).ra) < segReq.inLen) ∧
    (toSegList.b.starts 32 1 (instrOf segList) ∧ bit (instrOf segList).iflags 0 = true ∧ toSegList.b.liveObj? (toSegList.b.ctx 32).tenant (instrOf segList).obj = some model4 ∧ model4.kind = 3 ∧ ((toSegList.b.ctx 32).list (instrOf segList).la).kind = kBytes ∧ toSegList.b.listPoison 32 (instrOf segList).la = false) ∧
    (badSegment.b.starts 32 1 (instrOf segNone) ∧ badSegment.b.liveObj? (badSegment.b.ctx 32).tenant (instrOf segNone).obj = none ∧ (badSegment.b.ctx 32).req = some segReq ∧ segReq.reservation = true ∧ segReq.pins = [] ∧ badSegment.b.onCoach 32 = false) ∧
    (inSegmenter.b.txu.segQ = [segCmd] ∧ inSegmenter.b.nextLane = some 0 ∧ (inSegmenter.b.ctx segCmd.ctx).step = some segRun ∧ segRun.opcode = 1 ∧ 1 ≤ segRun.tasks ∧ inSegmenter.b.instrAt segCmd.ctx = some (instrOf segStep) ∧ inSegmenter.b.obj? (inSegmenter.b.ctx segCmd.ctx).tenant segCmd.obj = some model4 ∧ (inSegmenter.b.ctx segCmd.ctx).state ≠ CtxState.free ∧ Except.toOption (inSegmenter.b.segmentRun model4 segCmd.remain segCmd.input) = some segRes) ∧
    ((maskState maskOff).b.starts 32 13 (instrOf maskOff) ∧ (instrOf maskOff).obj = 0) ∧
    ((maskState maskOn).b.starts 32 13 (instrOf maskOn) ∧ 0 < (instrOf maskOn).obj ∧ (instrOf maskOn).obj < 2 ^ 16 ∧ (maskState maskOn).b.liveObj? ((maskState maskOn).b.ctx 32).tenant (instrOf maskOn).obj = some obj8 ∧ bit (instrOf maskOn).iflags 0 = false) ∧
    ((stopsState stopsOff).b.starts 32 14 (instrOf stopsOff) ∧ bit (instrOf stopsOff).iflags 0 = true) ∧
    ((stopsState stopsOn).b.starts 32 14 (instrOf stopsOn) ∧ bit (instrOf stopsOn).iflags 0 = false ∧ (stopsState stopsOn).b.listOk 32 (instrOf stopsOn).la [kBytes] = true ∧ (stopsState stopsOn).b.listPoison 32 (instrOf stopsOn).la = false ∧ fieldAt ((stopsState stopsOn).b.listBytes 32 (instrOf stopsOn).la) 0 1 ≤ 8 ∧ stopStrings (fieldAt ((stopsState stopsOn).b.listBytes 32 (instrOf stopsOn).la) 0 1) (List.drop 1 ((stopsState stopsOn).b.listBytes 32 (instrOf stopsOn).la)) = some [[(97 : Byte), (98 : Byte)]]) ∧
    (toDetok.b.starts 32 15 (instrOf detokStep) ∧ ((toDetok.b.ctx 32).list (instrOf detokStep).la).kind = kTokens ∧ toDetok.b.listPoison 32 (instrOf detokStep).la = false ∧ tVocab (toDetok.b.textRec 32) ≠ 0) ∧
    (inDetok.b.txu.detokQ = [detokCmd] ∧ (inDetok.b.ctx detokCmd.ctx).step = some detokRun ∧ detokRun.opcode = 15 ∧ (inDetok.b.ctx detokCmd.ctx).state ≠ CtxState.free ∧ 1 ≤ detokRun.tasks ∧ inDetok.b.instrAt detokCmd.ctx = some (instrOf detokStep) ∧ bit (instrOf detokStep).rpl 3 = false ∧ inDetok.b.detokTokens (inDetok.b.ctx detokCmd.ctx).tenant false (inDetok.b.textRec detokCmd.ctx) detokCmd.tokens { tokens := 0, wait := [], out := [] } (tHold (inDetok.b.textRec detokCmd.ctx)) = (detokDone, [], none, none) ∧ (detokDone.finish false [] none).out = []) := by delta Block.starts; and_intros <;> decide +kernel

/-- States and operands that meet the hypotheses of `Obligations.EmbedProbeGatherUpdateBegin`, clause by clause. -/
theorem witness_EmbedProbeGatherUpdateBegin :
    (toEmbed.b.starts 32 2 (instrOf embedStep) ∧ bit (instrOf embedStep).iflags 0 = false ∧ toEmbed.b.liveObj? (toEmbed.b.ctx 32).tenant (instrOf embedStep).obj = some encoder7 ∧ encoder7.kind = 4 ∧ encoder7.decl = some declEnc ∧ declEnc.encoder = some { dim := 32, fmt := 0, sketch := 0, cclk := 500 } ∧ toEmbed.b.listOk 32 (instrOf embedStep).la [kTokens] = true ∧ toEmbed.b.listPoison 32 (instrOf embedStep).la = false) ∧
    (toProbe.b.starts 32 5 (instrOf probeStep) ∧ Except.toOption (toProbe.b.searchStart 32 (instrOf probeStep) none) = some (false, [(0, 5)], query0) ∧ (([(0, 5)].all fun e => e.fst == toProbe.b.cb.module) = true)) ∧
    (toGather.b.starts 32 3 (instrOf gatherStep) ∧ Except.toOption (toGather.b.stepTable (toGather.b.ctx 32).tenant (instrOf gatherStep).obj) = some table5 ∧ (((toGather.b.ctx 32).list (instrOf gatherStep).la).kind = kTokens ∨ ((toGather.b.ctx 32).list (instrOf gatherStep).la).kind = kIndices) ∧ (∀ (q : Nat), q < 4 → toGather.b.fenced 6 q = false) ∧ (instrOf gatherStep).sub = 0 ∧ keyRuns (((toGather.b.ctx 32).list (instrOf gatherStep).la).kind == kTokens) table5.ngram ((toGather.b.ctx 32).list (instrOf gatherStep).la).count ≠ []) ∧
    (toGatherNone.b.starts 32 3 (instrOf gatherNone) ∧ Except.toOption (toGatherNone.b.stepTable (toGatherNone.b.ctx 32).tenant (instrOf gatherNone).obj) = some table5 ∧ ((toGatherNone.b.ctx 32).list (instrOf gatherNone).la).kind = kIndices ∧ ((toGatherNone.b.ctx 32).list (instrOf gatherNone).la).count = 0 ∧ table5.keys = false ∧ (∀ (q : Nat), q < 4 → toGatherNone.b.fenced 6 q = false) ∧ (instrOf gatherNone).sub = 0 ∧ Except.toOption (toGatherNone.b.fetchTask (laneCmd (toGatherNone.b.ctx 32).tenant table5.addr) Codes.gtuXlate (table5.addr + 128) table5.rb) = some (gatherBytes toGatherNone)) ∧
    (toUpdate.b.starts 32 4 (instrOf updateStep) ∧ Except.toOption (toUpdate.b.stepTable (toUpdate.b.ctx 32).tenant (instrOf updateStep).obj) = some table5 ∧ ((toUpdate.b.ctx 32).list (instrOf updateStep).la).kind = kIndices ∧ ((toUpdate.b.ctx 32).list (instrOf updateStep).lb).kind = kRows ∧ table5.updatable = true ∧ toUpdate.b.poisoned (ctxRangeBase + ((toUpdate.b.ctx 32).list (instrOf updateStep).lb).offset * 64) 64 = false ∧ bits (fieldAt (toUpdate.b.readMem (ctxRangeBase + ((toUpdate.b.ctx 32).list (instrOf updateStep).lb).offset * 64) 4) 0 4) 10 0 = table5.elems ∧ bits (fieldAt (toUpdate.b.readMem (ctxRangeBase + ((toUpdate.b.ctx 32).list (instrOf updateStep).lb).offset * 64) 4) 0 4) 12 11 = table5.fmt ∧ ((toUpdate.b.ctx 32).list (instrOf updateStep).la).count = ((toUpdate.b.ctx 32).list (instrOf updateStep).lb).count ∧ (∀ (q : Nat), q < 4 → toUpdate.b.fenced 6 q = false)) := by delta Block.starts; and_intros <;> first | decide +kernel | rfl

/-- States and operands that meet the hypotheses of `Obligations.SearchSteps`, clause by clause. -/
theorem witness_SearchSteps :
    (toScan.b.starts 32 6 (instrOf scanOf) ∧ Except.toOption (toScan.b.searchStart 32 (instrOf scanOf) (some kPartitions)) = some (false, [(0, 5)], query0) ∧ toScan.b.searchGone = false) ∧
    (toRefWalk.b.starts 32 7 (instrOf walkOf) ∧ Except.toOption (toRefWalk.b.searchStart 32 (instrOf walkOf) (some kCandidates)) = some (true, [(0, 5)], query0) ∧ toRefWalk.b.searchGone = false ∧ toRefWalk.b.kindGone 5 4 = false) ∧
    (toWalk.b.starts 32 7 (instrOf walkOf) ∧ Except.toOption (toWalk.b.searchStart 32 (instrOf walkOf) (some kCandidates)) = some (false, [(0, 5)], query0) ∧ toWalk.b.kindGone 5 4 = false ∧ (instrOf walkOf).imm32 / 256 % 256 = 0) ∧
    (hopHeld.b.search? 32 = some walkSearch ∧ (List.find? (fun w => w.shard == 5 && w.module.isNone && !w.done) walkSearch.walks = some walk5) ∧ hopHeld.b.shard? 5 = some (shard5 ShardState.live) ∧ walk5.best = some beam5 ∧ ((match (fetchOf hopHeld).1 with | .ok _ => true | _ => false) = true) ∧ List.lookup beam5.cand.id (hopB1.cacheOf 32).records = some hopRecord ∧ hopNext.isSome = true) ∧
    (hopWaits.b.search? 32 = some walkSearch ∧ (List.find? (fun w => w.shard == 5 && w.module.isNone && !w.done) walkSearch.walks = some walk5) ∧ hopWaits.b.shard? 5 = some (shard5 ShardState.live) ∧ walk5.best = some beam5 ∧ ((match (fetchOf hopWaits).1 with | .ok _ => true | _ => false) = true) ∧ List.lookup beam5.cand.id ((fetchBlock hopWaits).cacheOf 32).records = none) ∧
    ((remoteLate.b.ctx 32).step = some awaitRun ∧ remoteLate.b.work? 32 = none ∧ remoteLate.b.search? 32 = some awaiting ∧ awaiting.owes = true ∧ awaitRun.remoteSince + BitVec.toNat remoteLate.b.ske.remoteWait * 1024 ≤ remoteLate.b.clk.cclk ∧ 1 ≤ awaitRun.tasks ∧ (remoteLate.b.ctx 32).state ≠ CtxState.free ∧ remoteLate.b.cb.domEnable = (0 : BitVec 4) ∧ remoteLate.b.inTeam = false) ∧
    (turnEnd.b.mainUp = true ∧ turnEnd.b.cycleOf 0 ≠ [] ∧ turnEnd.b.fenced 4 0 = false ∧ turnEnd.b.ske.shared = false ∧ (turnEnd.b.engine 0).length * 3 ≤ (turnEnd.b.clk.cclk - (turnEnd.b.engine 0).since) * 4) ∧
    ((List.find? (fun p => p.shard == passEnd.b.turnShard 5) (passEnd.b.engine 5).passes = some idlePass) ∧ passEnd.b.shard? (passEnd.b.turnShard 5) = some (shard5 ShardState.live) ∧ passEnd.b.fenced 4 5 = false ∧ idlePass.queries = []) ∧
    ((List.find? (fun p => p.shard == scanning.b.turnShard 5) (scanning.b.engine 5).passes = some pass5) ∧ scanning.b.shard? (scanning.b.turnShard 5) = some (shard5 ShardState.live) ∧ scanning.b.fenced 4 5 = false ∧ pass5.queries = [eng5] ∧ scanning.b.search? eng5.ctx = some twoQueries ∧ (scanning.b.ctx eng5.ctx).state ≠ CtxState.free ∧ ((twoQueries.queries.any fun q => q.setIdx != eng5.setIdx && !q.done) = true) ∧ scanning.b.rel.poison = []) := by delta Block.starts; and_intros <;> first | decide +kernel | rfl

/-- States and operands that meet the hypotheses of `Obligations.RerankAndPackSteps`, clause by clause. -/
theorem witness_RerankAndPackSteps :
    (rerankSeed.b.starts 32 8 (instrOf rerankOf) ∧ (instrOf rerankOf).obj = 0 ∧ (instrOf rerankOf).imm32 % 65536 = 0 ∧ rerankSeed.b.listOk 32 (instrOf rerankOf).la [kVector] = true ∧ rerankSeed.b.listOk 32 (instrOf rerankOf).lb [kCandidates] = true ∧ rerankSeed.b.listPoison 32 (instrOf rerankOf).la = false ∧ rerankSeed.b.listPoison 32 (instrOf rerankOf).lb = false ∧ query0 = queryOf (rerankSeed.b.listBytes 32 (instrOf rerankOf).la) ∧ rerankSeed.b.prepAccess 32 (some query0) (candsOf (rerankSeed.b.listBytes 32 (instrOf rerankOf).lb)) = none ∧ rerankSeed.b.kindGone 5 4 = false ∧ (((candsOf (rerankSeed.b.listBytes 32 (instrOf rerankOf).lb)).all fun c => idModule c.id == rerankSeed.b.cb.module) = true) ∧ rerankSeed.b.work? 32 = none) ∧
    ((reranking.b.ctx 32).step = some rerankRun ∧ reranking.b.search? 32 = some idleSearch ∧ reranking.b.instrAt 32 = some (instrOf rerankOf) ∧ rerankRun.opcode = 8 ∧ rerankRun.wait = StepWait.search ∧ idleSearch.owes = false ∧ idleSearch.parked = [] ∧ idleSearch.fetching = true ∧ reranking.b.prepNeeds 32 idleSearch = [] ∧ rerankRun.rerank = none) ∧
    ((packing.b.ctx 32).step = some packRun ∧ packing.b.search? 32 = some idleSearch ∧ packing.b.instrAt 32 = some (instrOf packStep) ∧ packRun.opcode = 9 ∧ packRun.wait = StepWait.search ∧ idleSearch.owes = false ∧ idleSearch.parked = [] ∧ idleSearch.fetching = true ∧ packing.b.prepNeeds 32 idleSearch = [] ∧ packing.b.instrAt 32 = some (instrOf packStep)) ∧
    ((instrOf rerankOf).obj = 0 ∧ (instrOf rerankOf).imm32 % 65536 = 0 ∧ noPrep.kept = []) ∧
    (toPack.b.starts 32 9 (instrOf packStep) ∧ Except.toOption (toPack.b.template (toPack.b.ctx 32).tenant (instrOf packStep).obj) = some template9 ∧ ((template9.segs.any fun g => g.kind == 3) = false) ∧ ((toPack.b.ctx 32).list (instrOf packStep).la).kind = 0 ∧ ((toPack.b.ctx 32).list (instrOf packStep).lb).kind = 0 ∧ toPack.b.work? 32 = none) ∧
    (noVector.b.starts 32 8 (instrOf rerankOf) ∧ ((noVector.b.ctx 32).list (instrOf rerankOf).la).kind ≠ kVector ∧ (noVector.b.ctx 32).req = some segReq ∧ segReq.reservation = true ∧ segReq.pins = [] ∧ noVector.b.onCoach 32 = false ∧ (noVector.b.ctx 32).step = none) := by delta Block.starts; and_intros <;> decide +kernel

/-- States and operands that meet the hypotheses of `Obligations.GenerationSteps`, clause by clause. -/
theorem witness_GenerationSteps :
    (toPrefill.b.starts 32 10 (instrOf prefillStep) ∧ toPrefill.b.liveObj? (toPrefill.b.ctx 32).tenant (instrOf prefillStep).obj = some generator6 ∧ toPrefill.b.generator (toPrefill.b.ctx 32).tenant (instrOf prefillStep).obj = some gen4 ∧ ((toPrefill.b.ctx 32).kvLen = 0 ∨ (toPrefill.b.ctx 32).gen = (instrOf prefillStep).obj) ∧ (toPrefill.b.ctx 32).kvLen + ((toPrefill.b.ctx 32).list (instrOf prefillStep).la).count ≤ maxPositions ∧ toPrefill.b.listOk 32 (instrOf prefillStep).la [kTokens] = true ∧ toPrefill.b.listPoison 32 (instrOf prefillStep).la = false ∧ prefillBlock.framesPoisoned 32 = false) ∧
    ((specState specOff).b.starts 32 12 (instrOf specOff) ∧ (instrOf specOff).obj = 0) ∧
    ((specState specOn).b.starts 32 12 (instrOf specOn) ∧ (instrOf specOn).obj ≠ 0 ∧ (specState specOn).b.liveObj? ((specState specOn).b.ctx 32).tenant (instrOf specOn).obj = some generator6) ∧
    (toDecode.b.starts 32 11 (instrOf decodeOf) ∧ toDecode.b.liveObj? (toDecode.b.ctx 32).tenant (instrOf decodeOf).obj = some generator6 ∧ toDecode.b.generator (toDecode.b.ctx 32).tenant (instrOf decodeOf).obj = some gen4 ∧ (toDecode.b.ctx 32).nextRec.isSome = true ∧ (toDecode.b.ctx 32).gen = (instrOf decodeOf).obj ∧ (toDecode.b.ctx 32).spec = none ∧ gen4.vocabObj ≠ 0 ∧ toDecode.b.liveObj? (toDecode.b.ctx 32).tenant gen4.vocabObj = some model4 ∧ tGrammar (toDecode.b.textRec 32) = 0 ∧ toDecode.b.kindGone 5 4 = false ∧ gen4.vocabObj < 2 ^ 16) ∧
    ((inRound.b.ctx 32).step = some roundRun ∧ inRound.b.instrAt 32 = some (instrOf decodeOf) ∧ roundRun.opcode = 11 ∧ roundRun.wait = StepWait.rounds ∧ roundRun.tasks = 0 ∧ roundRun.decode = some { tokens := [], started := false } ∧ inRound.b.generator (inRound.b.ctx 32).tenant (instrOf decodeOf).obj = some gen4 ∧ (inRound.b.ctx 32).replyWait = false ∧ (inRound.b.ctx 32).freeing = false ∧ (inRound.b.ctx 32).req = some segReq ∧ segReq.ending = none ∧ (inRound.b.ctx 32).state = CtxState.running ∧ (inRound.b.ctx 32).recompute = false ∧ (inRound.b.ctx 32).spec = none ∧ (inRound.b.ctx 32).pendTok = none ∧ (inRound.b.ctx 32).kvLen + 1 ≤ maxPositions ∧ tGrammar (inRound.b.textRec 32) = 0 ∧ bit (instrOf decodeOf).rpl 3 = false ∧ inRound.b.kindGone 5 4 = false ∧ inRound.b.framesPoisoned 32 = false ∧ env0 = { n := 32, tenant := (inRound.b.ctx 32).tenant, g := gen4, gram := none, text := false, max := (instrOf decodeOf).imm16, seed := (inRound.b.ctx 32).reg 15, endOnDead := bit (instrOf decodeOf).iflags 0, unit := inRound.b.reinsUnit 32 } ∧ genStart.toks = [] ∧ genChosen.toks = [] ∧ Except.toOption (genChosen.choose env0 (inRound.b.ctx 32).kvLen ((inRound.b.ctx 32).nextRec.getD [])) = some (0, false) ∧ (genChosen.emit env0 0 false false).2 = none ∧ (genEmit.pass env0 (instrOf decodeOf) round0 none 0).map (·.2) = some none ∧ (genPass.b.ctx 32).step = some roundRun ∧ (genPass.b.ctx 32).state = CtxState.running ∧ genPass.det.out = []) := by delta Block.starts; and_intros <;> decide +kernel

/-- The positions of PREFILL are written; `prefillBlock` is what this answers. -/
theorem witness_GenerationSteps_prefill :
    (match prefilled with
    | (.done b, chain) => b.ctxs == prefillBlock.ctxs && chain == []
    | _ => false) = true := by decide +kernel

def slot2 : Slot := ⟨2, 0, false, false⟩
/-- A slot under the predicate NOT P0, and a slot that another one of its bundle follows. -/
def slotOff : Slot := ⟨2, 0, true, false⟩
def slotMore : Slot := ⟨2, 1, false, true⟩
def kernel2 : Kernel := ⟨true, 5, 0, 0, 3, 100, 64, [⟨0, [(0, 1)]⟩, ⟨4, []⟩], 256, []⟩
def task2 : TileTask := ⟨9, 32, false, 2, 0, 0, 5, 100, 64, none, [], [], []⟩
/-- A coach that runs `task2`, with values in its registers. -/
def runner : Coach :=
  { Coach.new with
    st := .running, task := some task2, tenant := 3, kernel := some kernel2, pc := 4095, round := true, tile := 7, fpflags := 0b101
    s := [(1, 0xFFFFFFFF), (2, 33), (3, 5), (4, 0), (5, 0x380)], a := [(0, 0x7FFFFFFFFFFF), (1, 64), (15, 0x100)]
    p := [(1, 0), (2, 0xF0F0F0F0F0F0F0F0), (7, 0x00000000FFFFFFFF)]
    vTag := [(0, 3), (31, 3)], v := [(0, (List.range 64).map fun i => BitVec.ofNat 32 (i * 0x01010101)), (31, List.replicate 64 0x3F800000)] }
def onCoach (c : Coach) : State := st { busy with coaches := [(2, c)], clk := { busy.clk with delivered := 65536 } }
def running2 : State := onCoach runner
def loop4 : LoopLevel := ⟨10, 4095, 2⟩
def looping (n : Nat) : State := onCoach { runner with loops := List.replicate n loop4 }
def tagIdle : TagSt := ⟨false, .move, 0, 0, 0, 0, false, false, 0, 0⟩
def tagBusy : TagSt := ⟨true, .recv, 0, 0, 0, 0, false, false, 0, 0⟩
def tagged (t : TagSt) : State := onCoach { runner with tags := [(15, t)] }
def preempted (d : Bool) : State := onCoach { runner with preempt := true, discard := d }
def overdue : State := onCoach { runner with stretchBase := -1 }
def loopLast : LoopLevel := ⟨10, 4095, 1⟩

/-- States and operands that meet the hypotheses of `Obligations.ScalarSlotsCompute`, clause by clause. -/
theorem witness_ScalarSlotsCompute :
    BundleReady running2.b slot2 ∧ (running2.b.coach slot2.coach).pred slot2 = true := by delta BundleReady; and_intros <;> decide +kernel

/-- States and operands that meet the hypotheses of `Obligations.AddressAndControlRegisterSlots`, clause by clause. -/
theorem witness_AddressAndControlRegisterSlots :
    (BundleReady running2.b slot2 ∧ (running2.b.coach slot2.coach).pred slot2 = true) ∧
    (BundleReady running2.b slot2 ∧ (running2.b.coach slot2.coach).pred slot2 = true ∧ 4 < 5 ∧ (running2.b.coach slot2.coach).issues 0 slot2 (Instr.csrw slot2 0 4) = true) := by delta BundleReady; and_intros <;> decide +kernel

/-- States and operands that meet the hypotheses of `Obligations.ControlFlowSlots`, clause by clause. -/
theorem witness_ControlFlowSlots :
    (BundleReady running2.b slot2 ∧ (running2.b.coach slot2.coach).pred slot2 = true ∧ (running2.b.coach slot2.coach).issues 0 slot2 (Instr.br slot2 (32768 : BitVec 16)) = true) ∧
    (BundleReady (looping 3).b slot2 ∧ ((looping 3).b.coach slot2.coach).pred slot2 = true ∧ ((looping 3).b.coach slot2.coach).loops.length < 4 ∧ ((looping 3).b.coach slot2.coach).sReg 3 ≠ (0 : W32) ∧ ((looping 3).b.coach slot2.coach).issues 0 slot2 (Instr.loop slot2 3 4096) = true) ∧
    (BundleReady (looping 3).b slot2 ∧ ((looping 3).b.coach slot2.coach).pred slot2 = true ∧ ((looping 3).b.coach slot2.coach).loops.length < 4 ∧ ((looping 3).b.coach slot2.coach).sReg 4 = (0 : W32) ∧ ((looping 3).b.coach slot2.coach).issues 0 slot2 (Instr.loop slot2 4 4096) = true) ∧
    (BundleReady (looping 4).b slot2 ∧ ((looping 4).b.coach slot2.coach).pred slot2 = true ∧ 4 ≤ ((looping 4).b.coach slot2.coach).loops.length ∧ ((looping 4).b.coach slot2.coach).issues 0 slot2 (Instr.loop slot2 3 1) = true) ∧
    (BundleReady (tagged tagIdle).b slot2 ∧ ((tagged tagIdle).b.coach slot2.coach).pred slot2 = true ∧ ((List.all ((tagged tagIdle).b.coach slot2.coach).tags fun t => !(decide (t.fst < 16) && BitVec.getLsbD (65535 : BitVec 16) t.fst) || !t.snd.busy && !t.snd.fault) = true) ∧ ((tagged tagIdle).b.coach slot2.coach).issues 0 slot2 (Instr.wait slot2 (65535 : BitVec 16)) = true) ∧
    (BundleReady (tagged tagBusy).b slot2 ∧ ((tagged tagBusy).b.coach slot2.coach).pred slot2 = true ∧ ((List.any ((tagged tagBusy).b.coach slot2.coach).tags fun t => decide (t.fst < 16) && BitVec.getLsbD (32768 : BitVec 16) t.fst && t.snd.busy) = true) ∧ ((tagged tagBusy).b.coach slot2.coach).issues 0 slot2 (Instr.wait slot2 (32768 : BitVec 16)) = true) ∧
    (BundleReady running2.b slot2 ∧ (running2.b.coach slot2.coach).pred slot2 = true ∧ (running2.b.coach slot2.coach).anyBusy = false ∧ (running2.b.coach slot2.coach).preempt = false ∧ (running2.b.coach slot2.coach).issues 0 slot2 (Instr.relay slot2 true 0) = true) ∧
    (BundleReady (preempted false).b slot2 ∧ ((preempted false).b.coach slot2.coach).pred slot2 = true ∧ ((preempted false).b.coach slot2.coach).anyBusy = false ∧ ((preempted false).b.coach slot2.coach).preempt = true ∧ ((preempted false).b.coach slot2.coach).discard = false ∧ ((preempted false).b.coach slot2.coach).kernel = some kernel2 ∧ kernel2.relays[1]? = some { live := (4 : W64), ranges := [] } ∧ ((preempted false).b.coach slot2.coach).issues 0 slot2 (Instr.relay slot2 false 1) = true) ∧
    (BundleReady (preempted true).b slot2 ∧ ((preempted true).b.coach slot2.coach).pred slot2 = true ∧ ((preempted true).b.coach slot2.coach).anyBusy = false ∧ ((preempted true).b.coach slot2.coach).preempt = true ∧ ((preempted true).b.coach slot2.coach).discard = true ∧ ((preempted true).b.coach slot2.coach).issues 0 slot2 (Instr.relay slot2 true 1) = true) ∧
    (BundleReady running2.b slot2 ∧ (running2.b.coach slot2.coach).pred slot2 = true ∧ (running2.b.coach slot2.coach).anyBusy = false ∧ ((running2.b.coach slot2.coach).firmware = true ∨ (running2.b.coach slot2.coach).sReg 4 = (0 : W32) ∨ 896 ≤ BitVec.toNat ((running2.b.coach slot2.coach).sReg 4) ∧ BitVec.toNat ((running2.b.coach slot2.coach).sReg 4) ≤ 1023) ∧ (running2.b.coach slot2.coach).issues 0 slot2 (Instr.tend slot2 4) = true) ∧
    (BundleReady running2.b slot2 ∧ (running2.b.coach slot2.coach).pred slot2 = true ∧ (running2.b.coach slot2.coach).anyBusy = false ∧ ((running2.b.coach slot2.coach).firmware = true ∨ (running2.b.coach slot2.coach).sReg 5 = (0 : W32) ∨ 896 ≤ BitVec.toNat ((running2.b.coach slot2.coach).sReg 5) ∧ BitVec.toNat ((running2.b.coach slot2.coach).sReg 5) ≤ 1023) ∧ (running2.b.coach slot2.coach).issues 0 slot2 (Instr.tend slot2 5) = true) ∧
    ((overdue.b.coach 2).live = true ∧ (65536 : Int) < (overdue.b.coach 2).stretch overdue.b.clk.delivered) := by delta BundleReady; and_intros <;> decide +kernel

/-- States and operands that meet the hypotheses of `Obligations.LoopsGoRound`, clause by clause. -/
theorem witness_LoopsGoRound :
    (loop4.last ≠ 4094) ∧
    (loop4.last = 4095 ∧ 1 < loop4.remaining) ∧
    (loopLast.last = 4095 ∧ loopLast.remaining ≤ 1) ∧
    ((∀ (m : LoopLevel), m ∈ [loop4] → m.first ≤ 4095 ∧ 4095 ≤ m.last)) := by and_intros <;> decide +kernel

/-- A coach whose bundle holds results for S, A, V and P. -/
def bundled : State := onCoach { runner with bundle := [.s 1 7, .a 15 64, .v 2 (List.replicate 64 9), .p 3 5, .flags 1], slots := [0, 1, 2] }

/-- States and operands that meet the hypotheses of `Obligations.PredicatesAndBundles`, clause by clause. -/
theorem witness_PredicatesAndBundles :
    (BundleReady running2.b slotOff ∧ (running2.b.coach slotOff.coach).pred slotOff = false ∧
      (running2.b.coach slotOff.coach).issues 0 slotOff (.add slotOff 1 2 3) = true ∧
      (running2.b.coach slotOff.coach).issues 3 slotOff (.mzero slotOff 0) = true) ∧
    (slotMore.more = true ∧ (running2.b.coach slotMore.coach).live = true) ∧
    ((running2.b.coach slot2.coach).issues 1 { slot2 with more := true } (.ucmd { slot2 with more := true } 1 2 6 0 true) = true ∧
      (running2.b.coach slot2.coach).issues 1 { slot2 with more := false } (.ucmd { slot2 with more := false } 1 2 6 0 true) = true) ∧
    ((bundled.b.coach 2).live = true ∧ (bundled.b.coach 2).bundle.all SlotWr.register = true ∧
      (bundled.b.coach 2).bundleExn = [] ∧ (bundled.b.coach 2).bundleRelay = false ∧ (bundled.b.coach 2).relayDue = false ∧
      (bundled.b.coach 2).remoteFrom = none ∧ (bundled.b.coach 2).stretch bundled.b.clk.delivered ≤ 65536) := by
  delta BundleReady; and_intros <;> decide +kernel

def lanesA : List W32 := (List.range 64).map fun i => [0x3F800000, 0x80000000, 0, 0x7FC00001, 0xFF800000, 0x7F800000, 0x00000001, 0xC0490FDB].getD (i % 8) 0
def lanesB : List W32 := (List.range 64).map fun i => [0, 0x80000000, 0x3F800000, 0x7F7FFFFF, 0xBF800000].getD (i % 5) 0
/-- V1, V2 and V3 hold such lanes; P1 takes lanes 0 to 31, P2 none. -/
def vectors : State :=
  onCoach { runner with v := [(1, lanesA), (2, lanesB), (3, lanesA.reverse)], vTag := [(1, 3), (2, 3), (3, 3)], p := [(1, 0xFFFFFFFF), (2, 0)] }
def half1 : Slot := ⟨2, 1, false, false⟩
def none2 : Slot := ⟨2, 2, false, false⟩



/-- A slot under P1, which takes lanes 0 to 31 of V1, V2 and V3, may issue; lane 3 of V1 is a NaN, lanes 0 and 1 hold no NaN
and zeros of both signs. -/
theorem witness_VectorLaneSlots :
    BundleReady vectors.b half1 ∧ (1 ≤ 1) ∧ ((2 = 1 ∨ 2 = 2) ∧ 5 < 6) ∧ 63 < 64 := by
  delta BundleReady; and_intros <;> decide +kernel

theorem witness_MaximumMinimumAndNan :
    BundleReady vectors.b half1 ∧ (f32 (vectors.lane half1 1 3)).isNan = true ∧
    (f32 (vectors.lane half1 1 1)).isNan = false ∧ (f32 (vectors.lane half1 2 1)).isNan = false ∧
    vectors.lane half1 1 1 = 0x80000000 ∧ vectors.lane half1 2 0 = 0 ∧ vectors.takes half1 3 ∧
    (2 < 3 ∧ (2 = 2 ∨ 2 = 3)) ∧ BundleReady vectors.b none2 ∧ (∀ l, l < 64 → ((vectors.b.coach 2).mask none2).getLsbD l = false) := by
  delta BundleReady State.takes; and_intros <;> decide +kernel

/-- Bytes of a MOVE, a unit command and a collective descriptor of coach 2, at 1,024 of its SRAM. -/
def desc2 : List Byte := fields 64 [(0, 1, 1), (3, 1, 3), (4, 2, 77), (8, 4, 64), (12, 4, 2048)]
def badDesc : List Byte := fields 64 [(0, 1, 1), (3, 1, 1), (4, 2, 77), (8, 4, 64), (12, 4, 2048)]
/-- A coach with SRAM lines 16 to 19 and 32 under its tag, a vector, an accumulator tile and weight buffers. -/
def loader : Coach :=
  { runner with
    a := [(0, 1024), (1, 1056), (2, 0x300000), (3, 0x2FF000), (4, 0x2FFF00), (5, 5 * 2 ^ 35), (6, 6 * 2 ^ 35)]
    s := [(1, 64), (2, 32), (3, 0), (4, 0x300040), (5, 0x2FFC40), (6, 1), (7, 256), (8, 0xDEADBEEF), (9, 257)]
    ranges := [(5 * 2 ^ 35, 4096)], lineTag := [(16, 3), (17, 3), (18, 3), (19, 3), (32, 3)]
    acc := [(32, List.replicate 32 0x3F800000)], accTag := [(1, 3)]
    ws := [(1, ⟨some 0, List.replicate 2048 0x38⟩)], wsTag := [(1, 3)], wa := [(1, ⟨some 2, List.replicate 2048 1⟩)], waTag := [(1, 3)] }
def loadBlock2 (c : Coach) (d : List Byte) : Block :=
  { busy with
    coaches := [(2, c)], mem := cells 0x800400 d
    mt := { busy.mt with objs := [(3 * 4096 + 5, object 5 true none)] } }
def loading (c : Coach) (d : List Byte) : State := st (loadBlock2 c d)
def sram256 : List Byte := (List.range 256).map fun i => BitVec.ofNat 8 (3 * i)
def toLoad : State := loading loader sram256
def poisonLoad : State := st { loadBlock2 loader sram256 with rel := { busy.rel with poison := [0x800400 / 64] } }
def moveTag (out : Bool) (a : Nat) : TagSt := ⟨true, .move, 0, 64, 1024, a, out, false, 0, 0⟩
def moving (out : Bool) (a : Nat) : State := loading { loader with tags := [(9, moveTag out a)] } sram256
def ucmdBusy : TagSt := ⟨true, .ucmd, 0, 0, 0, 0, false, false, 0, 0⟩
def tagTaken : State := loading { loader with tags := [(9, ucmdBusy)] } (desc2 ++ List.replicate 64 0)
def toCommand : State := loading loader (desc2 ++ List.replicate 64 0)
def finalSeen2 : State := loading { loader with finalSeen := true } (desc2 ++ List.replicate 64 0)
/-- `toCommand` on position 0 of a team of two. -/
def teamed (d : List Byte) : State :=
  st { loadBlock2 loader (d ++ List.replicate 64 0) with
       clk := { busy.clk with straps := 0b110000 }, cb := { busy.cb with size := 2, present := 3, expected := 3, l := 10 } }
def weights1 : List Byte := (loader.wbuf true 1).2
def oneRow (s : State) (quad : Bool) : List SramRow :=
  match s.b.passRows 2 1024 1 0 quad false with
  | .ok r => r
  | .error _ => []
def row0 : SramRow := ⟨0, some 1024, 0, List.replicate 64 9, []⟩
def row1 : SramRow := ⟨1, some 1088, 0, List.replicate 64 9, []⟩
/-- A weight load in progress whose second line has still to be read. -/
def stream1 : SramStream := ⟨1, true, 1, 0, 0, false, false, 0, [], [], [row0, row1]⟩
def streaming : State := loading { loader with streams := [stream1] } sram256

/-- States and operands that meet the hypotheses of `Obligations.LoadStoreSlots`, clause by clause. -/
theorem witness_LoadStoreSlots :
    (BundleReady toLoad.b slot2 ∧ (toLoad.b.coach slot2.coach).pred slot2 = true ∧ 1024 = offsetAddr ((toLoad.b.coach slot2.coach).aReg 0) (0 : BitVec 12) (256 : Int) ∧ sramCheck 1024 256 256 = none ∧ toLoad.b.poisoned (sramAddr slot2.coach 1024) 256 = false ∧ (toLoad.b.coach slot2.coach).issues 1 slot2 (Instr.vld slot2 31 0 true (0 : BitVec 12)) = true) ∧
    (BundleReady toLoad.b slot2 ∧ (toLoad.b.coach slot2.coach).pred slot2 = true ∧ 1024 = offsetAddr ((toLoad.b.coach slot2.coach).aReg 0) (0 : BitVec 12) (256 : Int) ∧ sramCheck 1024 256 256 = none ∧ (toLoad.b.coach slot2.coach).issues 1 slot2 (Instr.vst slot2 31 0 true (0 : BitVec 12)) = true) ∧
    (BundleReady poisonLoad.b slot2 ∧ (poisonLoad.b.coach slot2.coach).pred slot2 = true ∧ 1024 = offsetAddr ((poisonLoad.b.coach slot2.coach).aReg 0) (0 : BitVec 12) (256 : Int) ∧ sramCheck 1024 256 256 = none ∧ poisonLoad.b.poisoned (sramAddr slot2.coach 1024) 256 = true ∧ (poisonLoad.b.coach slot2.coach).issues 1 slot2 (Instr.vld slot2 31 0 true (0 : BitVec 12)) = true) ∧
    (BundleReady toLoad.b slot2 ∧ (toLoad.b.coach slot2.coach).pred slot2 = true ∧ 3145472 = offsetAddr ((toLoad.b.coach slot2.coach).aReg 4) (0 : BitVec 12) (256 : Int) ∧ sramCheck 3145472 256 256 = none ∧ (toLoad.b.coach slot2.coach).issues 1 slot2 (Instr.vst slot2 31 4 false (0 : BitVec 12)) = true) ∧
    (BundleReady toLoad.b slot2 ∧ (toLoad.b.coach slot2.coach).pred slot2 = true ∧ 1056 = offsetAddr ((toLoad.b.coach slot2.coach).aReg 1) (0 : BitVec 12) (256 : Int) ∧ 1056 % 256 ≠ 0) ∧
    (BundleReady toLoad.b slot2 ∧ (toLoad.b.coach slot2.coach).pred slot2 = true ∧ 3145728 = offsetAddr ((toLoad.b.coach slot2.coach).aReg 2) (0 : BitVec 12) (256 : Int) ∧ 3145728 % 256 = 0 ∧ 3145728 ≤ 3145728) ∧
    (BundleReady toLoad.b slot2 ∧ (toLoad.b.coach slot2.coach).pred slot2 = true ∧ 1028 = offsetAddr ((toLoad.b.coach slot2.coach).aReg 0) (1 : BitVec 12) (4 : Int) ∧ sramCheck 1028 4 4 = none ∧ toLoad.b.poisoned (sramAddr slot2.coach 1028) 4 = false ∧ (toLoad.b.coach slot2.coach).issues 1 slot2 (Instr.sld slot2 62 0 (1 : BitVec 12)) = true) ∧
    (BundleReady toLoad.b slot2 ∧ (toLoad.b.coach slot2.coach).pred slot2 = true ∧ 1020 = offsetAddr ((toLoad.b.coach slot2.coach).aReg 0) (4095 : BitVec 12) (4 : Int) ∧ sramCheck 1020 4 4 = none ∧ (toLoad.b.coach slot2.coach).issues 1 slot2 (Instr.sst slot2 8 0 (4095 : BitVec 12)) = true) ∧
    (BundleReady toLoad.b slot2 ∧ (toLoad.b.coach slot2.coach).pred slot2 = true ∧ 1 < 8 ∧ 0 < 4 ∧ 3141632 = BitVec.toNat ((toLoad.b.coach slot2.coach).aReg 3) ∧ 4 = [4, 2, 2, 1].getD 0 0 ∧ sramCheck 3141632 (1024 * 4) 256 = none ∧ (toLoad.b.coach slot2.coach).issues 1 slot2 (Instr.accst slot2 1 3 0) = true) ∧
    (BundleReady toLoad.b slot2 ∧ (toLoad.b.coach slot2.coach).pred slot2 = true ∧ 1 < 8 ∧ 3 < 4 ∧ 3141632 = BitVec.toNat ((toLoad.b.coach slot2.coach).aReg 3) ∧ 1 = [4, 2, 2, 1].getD 3 0 ∧ sramCheck 3141632 (1024 * 1) 256 = none ∧ (toLoad.b.coach slot2.coach).issues 1 slot2 (Instr.accst slot2 1 3 3) = true) ∧
    (BundleReady toLoad.b slot2 ∧ (toLoad.b.coach slot2.coach).pred slot2 = true ∧ 1024 = BitVec.toNat ((toLoad.b.coach slot2.coach).aReg 0) ∧ sramCheck 1024 4096 256 = none ∧ toLoad.b.poisoned (sramAddr slot2.coach 1024) 4096 = false ∧ (toLoad.b.coach slot2.coach).issues 1 slot2 (Instr.accld slot2 1 0 0) = true) ∧
    (BundleReady toLoad.b slot2 ∧ (toLoad.b.coach slot2.coach).pred slot2 = true ∧ (toLoad.b.coach slot2.coach).issues 1 slot2 (Instr.vext slot2 62 31 63) = true) ∧
    (BundleReady toLoad.b slot2 ∧ (toLoad.b.coach slot2.coach).pred slot2 = true ∧ 63 < 64 ∧ (toLoad.b.coach slot2.coach).issues 1 slot2 (Instr.vins slot2 31 8 63 false) = true) ∧
    (BundleReady toLoad.b slot2 ∧ (toLoad.b.coach slot2.coach).pred slot2 = true ∧ 63 < 64 ∧ (toLoad.b.coach slot2.coach).issues 1 slot2 (Instr.vins slot2 31 8 63 true) = true) := by delta BundleReady; and_intros <;> decide +kernel

/-- States and operands that meet the hypotheses of `Obligations.TaggedOperations`, clause by clause. -/
theorem witness_TaggedOperations :
    (BundleReady tagTaken.b slot2 ∧ (tagTaken.b.coach slot2.coach).pred slot2 = true ∧ 1024 = BitVec.toNat ((tagTaken.b.coach slot2.coach).aReg 0) ∧ 5 * 2 ^ 35 = BitVec.toNat ((tagTaken.b.coach slot2.coach).aReg 5) ∧ 64 = BitVec.toNat ((tagTaken.b.coach slot2.coach).sReg 1) ∧ ((tagTaken.b.coach slot2.coach).tag 9).busy = true ∧ (tagTaken.b.coach slot2.coach).issues 1 slot2 (Instr.move slot2 9 0 5 1 true) = true) ∧
    (BundleReady toLoad.b slot2 ∧ (toLoad.b.coach slot2.coach).pred slot2 = true ∧ 1056 = BitVec.toNat ((toLoad.b.coach slot2.coach).aReg 1) ∧ 5 * 2 ^ 35 = BitVec.toNat ((toLoad.b.coach slot2.coach).aReg 5) ∧ 64 = BitVec.toNat ((toLoad.b.coach slot2.coach).sReg 1) ∧ ((toLoad.b.coach slot2.coach).tag 9).busy = false ∧ (1056 % 64 ≠ 0 ∨ 5 * 2 ^ 35 % 64 ≠ 0 ∨ 64 % 64 ≠ 0) ∧ (toLoad.b.coach slot2.coach).issues 1 slot2 (Instr.move slot2 9 1 5 1 true) = true) ∧
    (BundleReady toLoad.b slot2 ∧ (toLoad.b.coach slot2.coach).pred slot2 = true ∧ 1024 = BitVec.toNat ((toLoad.b.coach slot2.coach).aReg 0) ∧ 5 * 2 ^ 35 = BitVec.toNat ((toLoad.b.coach slot2.coach).aReg 5) ∧ 3145792 = BitVec.toNat ((toLoad.b.coach slot2.coach).sReg 4) ∧ ((toLoad.b.coach slot2.coach).tag 9).busy = false ∧ 1024 % 64 = 0 ∧ 5 * 2 ^ 35 % 64 = 0 ∧ 3145792 % 64 = 0 ∧ (3145792 = 0 ∨ 3145728 < 3145792) ∧ (toLoad.b.coach slot2.coach).issues 1 slot2 (Instr.move slot2 9 0 5 4 true) = true) ∧
    (BundleReady toLoad.b slot2 ∧ (toLoad.b.coach slot2.coach).pred slot2 = true ∧ 1024 = BitVec.toNat ((toLoad.b.coach slot2.coach).aReg 0) ∧ 5 * 2 ^ 35 = BitVec.toNat ((toLoad.b.coach slot2.coach).aReg 5) ∧ 3144768 = BitVec.toNat ((toLoad.b.coach slot2.coach).sReg 5) ∧ ((toLoad.b.coach slot2.coach).tag 9).busy = false ∧ 1024 % 64 = 0 ∧ 5 * 2 ^ 35 % 64 = 0 ∧ 3144768 % 64 = 0 ∧ 64 ≤ 3144768 ∧ 3144768 ≤ 3145728 ∧ 3145728 < 1024 + 3144768 ∧ (toLoad.b.coach slot2.coach).issues 1 slot2 (Instr.move slot2 9 0 5 5 true) = true) ∧
    (BundleReady toLoad.b slot2 ∧ (toLoad.b.coach slot2.coach).pred slot2 = true ∧ 1024 = BitVec.toNat ((toLoad.b.coach slot2.coach).aReg 0) ∧ 6 * 2 ^ 35 = BitVec.toNat ((toLoad.b.coach slot2.coach).aReg 6) ∧ 64 = BitVec.toNat ((toLoad.b.coach slot2.coach).sReg 1) ∧ ((toLoad.b.coach slot2.coach).tag 9).busy = false ∧ 1024 % 64 = 0 ∧ 6 * 2 ^ 35 % 64 = 0 ∧ 64 % 64 = 0 ∧ 64 ≤ 64 ∧ 1024 + 64 ≤ 3145728 ∧ true = true ∧ inRanges (toLoad.b.coach slot2.coach).ranges (6 * 2 ^ 35) 64 = false ∧ (toLoad.b.coach slot2.coach).issues 1 slot2 (Instr.move slot2 9 0 6 1 true) = true) ∧
    (BundleReady toLoad.b slot2 ∧ (toLoad.b.coach slot2.coach).pred slot2 = true ∧ 1024 = BitVec.toNat ((toLoad.b.coach slot2.coach).aReg 0) ∧ 5 * 2 ^ 35 = BitVec.toNat ((toLoad.b.coach slot2.coach).aReg 5) ∧ 64 = BitVec.toNat ((toLoad.b.coach slot2.coach).sReg 1) ∧ ((toLoad.b.coach slot2.coach).tag 9).busy = false ∧ 1024 % 64 = 0 ∧ 5 * 2 ^ 35 % 64 = 0 ∧ 64 % 64 = 0 ∧ 64 ≤ 64 ∧ 1024 + 64 ≤ 3145728 ∧ (true = true → inRanges (toLoad.b.coach slot2.coach).ranges (5 * 2 ^ 35) 64 = true) ∧ (toLoad.b.coach slot2.coach).issues 1 slot2 (Instr.move slot2 9 0 5 1 true) = true) ∧
    (((moving true (7 * 2 ^ 35)).b.coach 2).task.isSome = true ∧ tabFind? 9 ((moving true (7 * 2 ^ 35)).b.coach 2).tags = some (moveTag true (7 * 2 ^ 35)) ∧ (moveTag true (7 * 2 ^ 35)).busy = true ∧ (moveTag true (7 * 2 ^ 35)).kind = TagKind.move ∧ (moving true (7 * 2 ^ 35)).b.xlate ((moving true (7 * 2 ^ 35)).b.coach 2).tenant (moveTag true (7 * 2 ^ 35)).memAddr (moveTag true (7 * 2 ^ 35)).bytes = none) ∧
    (((moving true (5 * 2 ^ 35)).b.coach 2).task.isSome = true ∧ tabFind? 9 ((moving true (5 * 2 ^ 35)).b.coach 2).tags = some (moveTag true (5 * 2 ^ 35)) ∧ (moveTag true (5 * 2 ^ 35)).busy = true ∧ (moveTag true (5 * 2 ^ 35)).kind = TagKind.move ∧ (moving true (5 * 2 ^ 35)).b.xlate ((moving true (5 * 2 ^ 35)).b.coach 2).tenant (moveTag true (5 * 2 ^ 35)).memAddr (moveTag true (5 * 2 ^ 35)).bytes = some 1099511627776 ∧ (moveTag true (5 * 2 ^ 35)).out = true) ∧
    (((moving false (5 * 2 ^ 35)).b.coach 2).task.isSome = true ∧ tabFind? 9 ((moving false (5 * 2 ^ 35)).b.coach 2).tags = some (moveTag false (5 * 2 ^ 35)) ∧ (moveTag false (5 * 2 ^ 35)).busy = true ∧ (moveTag false (5 * 2 ^ 35)).kind = TagKind.move ∧ (moving false (5 * 2 ^ 35)).b.xlate ((moving false (5 * 2 ^ 35)).b.coach 2).tenant (moveTag false (5 * 2 ^ 35)).memAddr (moveTag false (5 * 2 ^ 35)).bytes = some 1099511627776 ∧ (moveTag false (5 * 2 ^ 35)).out = false) ∧
    (BundleReady tagTaken.b slot2 ∧ (tagTaken.b.coach slot2.coach).pred slot2 = true ∧ Except.toOption (tagTaken.b.descriptor slot2.coach (BitVec.toNat ((tagTaken.b.coach slot2.coach).aReg 0))) = some desc2 ∧ ((tagTaken.b.coach slot2.coach).tag 9).busy = true ∧ (tagTaken.b.coach slot2.coach).issues 1 slot2 (Instr.ucmd slot2 9 0 2 3 false) = true) ∧
    (BundleReady toCommand.b slot2 ∧ (toCommand.b.coach slot2.coach).pred slot2 = true ∧ Except.toOption (toCommand.b.descriptor slot2.coach (BitVec.toNat ((toCommand.b.coach slot2.coach).aReg 0))) = some desc2 ∧ ((toCommand.b.coach slot2.coach).tag 9).busy = false ∧ (2 = 2 ∨ 2 = 3 ∨ 2 = 4) ∧ toCommand.b.fenced (2 + 3) 3 = false ∧ (toCommand.b.coach slot2.coach).issues 1 slot2 (Instr.ucmd slot2 9 0 2 3 false) = true) ∧
    (BundleReady toCommand.b slot2 ∧ (toCommand.b.coach slot2.coach).pred slot2 = true ∧ Except.toOption (toCommand.b.descriptor slot2.coach (BitVec.toNat ((toCommand.b.coach slot2.coach).aReg 0))) = some desc2 ∧ ((toCommand.b.coach slot2.coach).tag 9).busy = false ∧ (3 = 2 ∨ 3 = 3 ∨ 3 = 4) ∧ toCommand.b.fenced (3 + 3) 0 = false ∧ (toCommand.b.coach slot2.coach).issues 1 slot2 (Instr.ucmd slot2 9 0 3 0 false) = true) ∧
    (BundleReady toCommand.b slot2 ∧ (toCommand.b.coach slot2.coach).pred slot2 = true ∧ Except.toOption (toCommand.b.descriptor slot2.coach (BitVec.toNat ((toCommand.b.coach slot2.coach).aReg 0))) = some desc2 ∧ ((toCommand.b.coach slot2.coach).tag 9).busy = false ∧ (4 = 2 ∨ 4 = 3 ∨ 4 = 4) ∧ toCommand.b.fenced (4 + 3) 0 = false ∧ (toCommand.b.coach slot2.coach).issues 1 slot2 (Instr.ucmd slot2 9 0 4 0 false) = true) ∧
    (BundleReady toCommand.b slot2 ∧ (toCommand.b.coach slot2.coach).pred slot2 = true ∧ Except.toOption (toCommand.b.descriptor slot2.coach (BitVec.toNat ((toCommand.b.coach slot2.coach).aReg 0))) = some desc2 ∧ (0 ≠ 0 ∨ (toCommand.b.coach slot2.coach).finalSeen = false ∨ 8 ≤ (toCommand.b.coach slot2.coach).deferred.length) ∧ (toCommand.b.coach slot2.coach).issues 1 slot2 (Instr.ucmd slot2 0 0 3 0 true) = true) ∧
    (BundleReady finalSeen2.b slot2 ∧ (finalSeen2.b.coach slot2.coach).pred slot2 = true ∧ Except.toOption (finalSeen2.b.descriptor slot2.coach (BitVec.toNat ((finalSeen2.b.coach slot2.coach).aReg 0))) = some desc2 ∧ (finalSeen2.b.coach slot2.coach).finalSeen = true ∧ (finalSeen2.b.coach slot2.coach).deferred.length < 8 ∧ (finalSeen2.b.coach slot2.coach).issues 1 slot2 (Instr.ucmd slot2 0 0 3 0 true) = true) ∧
    (BundleReady tagTaken.b slot2 ∧ (tagTaken.b.coach slot2.coach).pred slot2 = true ∧ 1024 = BitVec.toNat ((tagTaken.b.coach slot2.coach).aReg 0) ∧ Except.toOption (tagTaken.b.descriptor slot2.coach 1024) = some desc2 ∧ ((tagTaken.b.coach slot2.coach).tag 9).busy = true ∧ ((tagTaken.b.coach slot2.coach).issues 1 slot2 (if true = true then Instr.send slot2 9 0 else Instr.recv slot2 9 0) = true)) ∧
    (BundleReady (teamed badDesc).b slot2 ∧ ((teamed badDesc).b.coach slot2.coach).pred slot2 = true ∧ 1024 = BitVec.toNat (((teamed badDesc).b.coach slot2.coach).aReg 0) ∧ Except.toOption ((teamed badDesc).b.descriptor slot2.coach 1024) = some badDesc ∧ (((teamed badDesc).b.coach slot2.coach).tag 9).busy = false ∧ (teamed badDesc).b.descCheck badDesc true = some Codes.cbDescBad ∧ (((teamed badDesc).b.coach slot2.coach).issues 1 slot2 (if true = true then Instr.send slot2 9 0 else Instr.recv slot2 9 0) = true)) ∧
    (BundleReady (teamed desc2).b slot2 ∧ ((teamed desc2).b.coach slot2.coach).pred slot2 = true ∧ 1024 = BitVec.toNat (((teamed desc2).b.coach slot2.coach).aReg 0) ∧ Except.toOption ((teamed desc2).b.descriptor slot2.coach 1024) = some desc2 ∧ (((teamed desc2).b.coach slot2.coach).tag 9).busy = false ∧ (teamed desc2).b.descCheck desc2 true = none ∧ (((teamed desc2).b.cb.colls.any fun c => c.cid == descCid desc2) = false) ∧ true = true ∧ (teamed desc2).b.poisoned (sramAddr slot2.coach (descBuf desc2)) (descLen desc2) = false ∧ ((teamed desc2).b.coach slot2.coach).issues 1 slot2 (Instr.send slot2 9 0) = true) ∧
    (BundleReady (teamed desc2).b slot2 ∧ ((teamed desc2).b.coach slot2.coach).pred slot2 = true ∧ 1024 = BitVec.toNat (((teamed desc2).b.coach slot2.coach).aReg 0) ∧ Except.toOption ((teamed desc2).b.descriptor slot2.coach 1024) = some desc2 ∧ (((teamed desc2).b.coach slot2.coach).tag 9).busy = false ∧ (teamed desc2).b.descCheck desc2 false = none ∧ (((teamed desc2).b.cb.colls.any fun c => c.cid == descCid desc2) = false) ∧ false = false ∧ ((teamed desc2).b.coach slot2.coach).issues 1 slot2 (Instr.recv slot2 9 0) = true) := by delta BundleReady; and_intros <;> decide +kernel

/-- States and operands that meet the hypotheses of `Obligations.MatrixSlots`, clause by clause. -/
theorem witness_MatrixSlots :
    (BundleReady toLoad.b slot2 ∧ (toLoad.b.coach slot2.coach).pred slot2 = true ∧ sramCheck (BitVec.toNat ((toLoad.b.coach slot2.coach).aReg 0)) 2048 64 = none ∧ toLoad.b.poisoned (sramAddr slot2.coach (BitVec.toNat ((toLoad.b.coach slot2.coach).aReg 0))) 2048 = false ∧ (toLoad.b.coach slot2.coach).issues 3 slot2 (Instr.mldw slot2 3 0 0) = true) ∧
    (BundleReady toLoad.b slot2 ∧ (toLoad.b.coach slot2.coach).pred slot2 = true ∧ BitVec.toNat ((toLoad.b.coach slot2.coach).aReg 1) % 64 ≠ 0 ∧ (toLoad.b.coach slot2.coach).issues 3 slot2 (Instr.mldw slot2 3 1 0) = true) ∧
    (BundleReady toLoad.b slot2 ∧ (toLoad.b.coach slot2.coach).pred slot2 = true ∧ (BitVec.toNat ((toLoad.b.coach slot2.coach).sReg 3) = 0 ∨ 256 < BitVec.toNat ((toLoad.b.coach slot2.coach).sReg 3)) ∧ (toLoad.b.coach slot2.coach).issues 3 slot2 (Instr.mpass slot2 1 0 1 3 0 true false true false) = true) ∧
    (BundleReady toLoad.b slot2 ∧ (toLoad.b.coach slot2.coach).pred slot2 = true ∧ (BitVec.toNat ((toLoad.b.coach slot2.coach).sReg 9) = 0 ∨ 256 < BitVec.toNat ((toLoad.b.coach slot2.coach).sReg 9)) ∧ (toLoad.b.coach slot2.coach).issues 3 slot2 (Instr.mpass slot2 1 0 1 9 0 true false true false) = true) ∧
    (BundleReady toLoad.b slot2 ∧ (toLoad.b.coach slot2.coach).pred slot2 = true ∧ 1 ≤ BitVec.toNat ((toLoad.b.coach slot2.coach).sReg 6) ∧ BitVec.toNat ((toLoad.b.coach slot2.coach).sReg 6) ≤ 256 ∧ ((toLoad.b.coach slot2.coach).wbuf true 1).1 = 0 ∧ Except.toOption (toLoad.b.passRows slot2.coach (BitVec.toNat ((toLoad.b.coach slot2.coach).aReg 0)) (BitVec.toNat ((toLoad.b.coach slot2.coach).sReg 6)) 0 false false) = some (oneRow toLoad false) ∧ (toLoad.b.coach slot2.coach).issues 3 slot2 (Instr.mpass slot2 1 0 7 6 0 true false true false) = true) ∧
    (BundleReady toLoad.b slot2 ∧ (toLoad.b.coach slot2.coach).pred slot2 = true ∧ 1 ≤ BitVec.toNat ((toLoad.b.coach slot2.coach).sReg 6) ∧ BitVec.toNat ((toLoad.b.coach slot2.coach).sReg 6) ≤ 128 ∧ ((toLoad.b.coach slot2.coach).wbuf true 1).1 = 0 ∧ Except.toOption (toLoad.b.passRows slot2.coach (BitVec.toNat ((toLoad.b.coach slot2.coach).aReg 0)) (BitVec.toNat ((toLoad.b.coach slot2.coach).sReg 6)) 0 true false) = some (oneRow toLoad true) ∧ (toLoad.b.coach slot2.coach).issues 3 slot2 (Instr.mpass slot2 1 0 7 6 0 true true true false) = true) ∧
    (BundleReady toLoad.b slot2 ∧ (toLoad.b.coach slot2.coach).pred slot2 = true ∧ (toLoad.b.coach slot2.coach).issues 3 slot2 (Instr.mzero slot2 (130 : BitVec 8)) = true) ∧
    (BundleReady toLoad.b slot2 ∧ (toLoad.b.coach slot2.coach).pred slot2 = true ∧ (toLoad.b.coach slot2.coach).issues 3 slot2 (Instr.maccv slot2 1 0 31) = true) ∧
    (BundleReady toLoad.b slot2 ∧ (toLoad.b.coach slot2.coach).pred slot2 = true ∧ 1 < 8 ∧ 15 < 16 ∧ (toLoad.b.coach slot2.coach).issues 3 slot2 (Instr.mvacc slot2 1 15 31) = true) ∧
    (BundleReady streaming.b slot2 ∧ (streaming.b.coach slot2.coach).pred slot2 = true ∧ row1 ∈ stream1.rows ∧ row1.addr = some 1088 ∧ 1088 < 1088 + 64 ∧ 1088 < 1088 + row1.bytes.length ∧ 1 < stream1.start + row1.after ∧ stream1.load = true ∧ (streaming.b.coach slot2.coach).streams = [stream1]) := by delta BundleReady; and_intros <;> decide +kernel

/-- A command of the task of coach 2 at a station of quarter 1, its record at 0x2040; it may write to 4 KiB of object 1. -/
def unitCmd (station : Nat) (fs : List (Nat × Nat × Nat)) : UnitCmd :=
  { station := station, quarter := 1, coach := some 2, tag := 4, desc := 0x2000, task := 9, tenant := 3, ctx := 32, decode := false
    firmware := false, deferred := false, ranges := [(2 ^ 35, 4096)], bytes := fields 64 fs, seq := 0 }
/-- `busy` with `task2` on coach 2, objects 1 and 2, lines of its SRAM tagged, and bytes of memory. -/
def issuer (lines : List Nat) (mem : List Host.Cell) : Block :=
  { busy with
    coaches := [(2, { runner with lineTag := lines.map fun l => (l, 3), tags := [(4, tagBusy)] })]
    mt := { busy.mt with objs := [(3 * 4096 + 1, object 1 true none), (3 * 4096 + 2, object 2 false none)] }
    mem := mem }
/-- Scores 1.0, NaN, -1.0 and 2.0 at the start of object 2. -/
def scores : List Host.Cell := cells 0x020000000000 (le 4 0x3F800000 ++ le 4 0x7FC00000 ++ le 4 0xBF800000 ++ le 4 0x40000000)
def toSlu (c : UnitCmd) (lines : List Nat) (mem : List Host.Cell) : State := st ((issuer lines mem).modSlu 1 fun u => { u with queue := [c] })
def selectCmd (mode k : Nat) : UnitCmd :=
  unitCmd 2 [(0, 1, 1), (1, 1, mode), (4, 4, k), (8, 4, 4), (0x18, 8, 2 * 2 ^ 35), (0x28, 8, 2 ^ 35 + 0x100)]
def badSelect : UnitCmd := selectCmd 0 0
/-- A list table of one list of two entries, of identifiers 5 and 6. -/
def lists : List Host.Cell :=
  cells 0x020000000000 (fields 32 [(0, 8, 2 * 2 ^ 35 + 64), (8, 4, 2), (0xC, 1, 7)]) ++
  cells 0x020000000040 (fields 32 [(0, 8, 5), (8, 4, 0x3F800000), (16, 8, 5), (24, 4, 0x40000000)])
def mergeCmd (g : Nat) : UnitCmd :=
  unitCmd 2 [(0, 1, 2), (1, 1, 1), (4, 4, 2), (8, 4, g), (0x18, 8, 2 * 2 ^ 35), (0x28, 8, 2 ^ 35 + 0x100)]
def openCmd : UnitCmd := unitCmd 2 [(0, 1, 3), (1, 1, 1), (4, 4, 3), (0x14, 4, 0x3000), (0x28, 8, 2 ^ 35 + 0x100)]
def histCmd : UnitCmd := unitCmd 2 [(0, 1, 4), (8, 4, 4), (0x14, 4, 0x3000), (0x18, 8, 2 * 2 ^ 35)]
def threshCmd : UnitCmd := unitCmd 2 [(0, 1, 5), (0x14, 4, 0x3000)]
def emitCmd : UnitCmd := unitCmd 2 [(0, 1, 6), (8, 4, 4), (0x14, 4, 0x3000), (0x18, 8, 2 * 2 ^ 35)]
def closeCmd : UnitCmd := unitCmd 2 [(0, 1, 7), (0x14, 4, 0x3000)]
/-- The first line of a state record in the SRAM of coach 2 at 0x3000. -/
def sluState (mode phase level : Nat) (fs : List (Nat × Nat × Nat)) : List Host.Cell :=
  cells 0x803000 (fields 64 ([(0, 1, 3), (1, 1, mode), (4, 4, 3), (0x18, 8, 2 ^ 35 + 0x100), (0x20, 1, phase + 16 * level)] ++ fs))
def inHist : State := toSlu histCmd [0xC0] (sluState 0 1 1 [] ++ scores)
def histLate : State := toSlu histCmd [0xC0] (sluState 0 2 1 [])
/-- Bucket 1,023 of the record counts 4. -/
def inThresh : State := toSlu threshCmd [0xC0, 0x103] (sluState 0 1 1 [(0x30, 4, 3)] ++ cells 0x8040C0 (fields 64 [(60, 4, 4)]))
def inEmit : State := toSlu emitCmd [0xC0] (sluState 1 2 4 [(0x2C, 4, 0xBF800000), (0x30, 4, 1), (0x24, 4, 4)] ++ scores)
def inClose : State := toSlu closeCmd [0xC0] (sluState 1 2 4 [(0x34, 4, 1)] ++ cells 0x010000000100 (le 4 3 ++ le 4 0x40000000))

/-- A grammar of `v` tokens of class 0xFFFF but token 1, of class 1; state 0 accepts and goes on class 1 to state 1, which lists
nothing. Only the bytes of the first tokens and of the last are given. -/
def grammarMem (a v : Nat) : List Host.Cell :=
  cells a (fields 64 [(0, 4, v), (4, 4, 2), (8, 4, 1), (0xC, 4, v - 1)]) ++
  cells (a + 64) (le 2 0xFFFF ++ le 2 1 ++ le 2 0xFFFF ++ le 2 0xFFFF) ++ (if v = 4 then [] else cells (a + 62 + 2 * v) (le 2 0xFFFF)) ++
  cells (a + 64 + roundUp (2 * v) 64) (le 8 (2 ^ 48 + 2 ^ 32) ++ le 8 0) ++ cells (a + 128 + roundUp (2 * v) 64) (le 8 (2 ^ 48 + 2 ^ 32))
def reinsCmd (op k arg : Nat) : UnitCmd := unitCmd 4 [(0, 1, op), (1, 1, k), (4, 4, arg), (8, 8, 2 ^ 47), (0x10, 8, 2 * 2 ^ 35)]
def page3 : PageEnt := ⟨3, false, 0, false, false, false, 0, 0, 0⟩
def gObj : Obj := { object 8 false none with base := 0x020000000000 }
def modelObj : Obj := { object 3 false none with base := 0x020000100000 }
/-- The text record of context 32 at the start of the context window: VOCAB 4, `undo` undo entries. -/
def textMem (undo : Nat) : List Host.Cell :=
  cells ctxRangeBase (fields 16 [(0, 2, 4), (0xA, 1, undo)]) ++ cells (ctxRangeBase + 0x4C0) (le 8 0xFFFF0000)
def toRnu (c : UnitCmd) (undo : Nat) (mem : List Host.Cell) : State :=
  st { (issuer [] (mem ++ textMem undo)).modRnu 1 fun u => { u with queue := [c] } with
    mt := { busy.mt with map := [(0, page3)], objs := [(3 * 4096 + 2, gObj), (3 * 4096 + 4, modelObj)] }
    ctxs := [(32, { Ctx.new with tenant := 3, state := .running, blockTable := 65536, req := some req0 })] }

def toGtu (c : UnitCmd) (mem : List Host.Cell) : State :=
  st { (issuer [] mem).modGtu 1 fun u => { u with queue := [c] } with
    mt := { busy.mt with objs := [(3 * 4096 + 1, object 1 true none), (3 * 4096 + 2, object 10 false none)] } }
/-- Header of a table of 16 rows of four F32 elements from 0x1000 on in object 2, served by quarter 1; its first word is `w`. -/
def tableHdr (w hot : Nat) : List Byte :=
  fields 64 ([(0, 4, w), (4, 4, 4), (8, 4, 4), (0x10, 8, 1), (0x20, 8, 2 * 2 ^ 35 + 0x1000), (0x38, 4, 2 ^ 17 + hot)] ++
    if hot = 0 then [] else [(0x30, 8, 2 ^ 35)])
def keyHdr : List Byte := fields 64 [(0, 4, 0x101), (0x38, 4, 2 ^ 17)]
def tableAt (h : List Byte) : Table := tableOf (2 * 2 ^ 35) h
def gatherCmd (op n : Nat) : UnitCmd :=
  unitCmd 3 [(0, 1, op), (4, 4, n), (8, 8, 2 * 2 ^ 35), (0x10, 8, 2 * 2 ^ 35 + 0x400), (0x20, 8, 2 ^ 35 + 0x100)]
def updateCmd : UnitCmd :=
  { unitCmd 3 [(0, 1, 2), (4, 4, 1), (8, 8, 2 * 2 ^ 35), (0x10, 8, 2 * 2 ^ 35 + 0x400), (0x18, 8, 2 * 2 ^ 35 + 0x500)] with deferred := true }
/-- Key 3 and the invalid key, the default row, row 3. -/
def lookupMem : List Host.Cell :=
  cells 0x020000000000 (tableHdr 0x201 0) ++ cells 0x020000000080 (fields 16 [(0, 4, 9)]) ++
  cells 0x020000000400 (le 8 3 ++ le 8 (2 ^ 64 - 1)) ++ cells 0x020000001030 (fields 16 [(4, 4, 7)])
def toLookup : State := toGtu (gatherCmd 1 2) lookupMem
def looked : Except Code (Block × List (Nat × List W32)) :=
  ((toLookup.b.modGtu 1 fun g => { g with queue := [] }).touched [((gatherCmd 1 2).gtuSrc, (gatherCmd 1 2).gtuN * (if (gatherCmd 1 2).gtuTok then 4 else 8))]).fetchRows
    1 (gatherCmd 1 2) (tableAt (tableHdr 0x201 0)) ((tableAt (tableHdr 0x201 0)).needs [3, 2 ^ 64 - 1])
def lookedB : Block := ((looked.toOption).map (·.1)).getD busy
def toKeys : State := toGtu (gatherCmd 3 2) (cells 0x020000000000 keyHdr ++ cells 0x020000000400 (le 8 3 ++ le 8 (2 ^ 64 - 1)))
/-- One delta of 1.0 for row 3, which holds 2.0. -/
def updateMem : List Host.Cell :=
  cells 0x020000000000 (tableHdr 1 0) ++ cells 0x020000000400 (le 8 (3 * 2 ^ 60)) ++
  cells 0x020000000500 (fields 64 [(4, 4, 0x3F800000)]) ++ cells 0x020000001030 (fields 16 [(4, 4, 0x40000000)])
def toAdd : State := toGtu updateCmd updateMem
def deltas : List Byte := fields 64 [(4, 4, 0x3F800000)]
def oldRow : List Byte := fields 16 [(4, 4, 0x40000000)]
def badUpdate : State := toGtu updateCmd (cells 0x020000000000 (fields 64 []))
/-- A table of 4 hot rows; their slots are FREE. -/
def hotMem (slot0 : Nat) : List Host.Cell :=
  cells 0x010000000040 (fields 64 [(0, 8, slot0)]) ++ cells 0x020000000000 (tableHdr 1 4) ++
  cells 0x020000001030 (fields 16 [(4, 4, 0x40000000)])
def hotTable : Table := tableAt (tableHdr 1 4)
def candidate3 : State :=
  st { (issuer [] (hotMem 0)).modGtu 1 fun u => { u with candidate := some (3, 2 * 2 ^ 35, 2, 3) } with
    mt := { busy.mt with objs := [(3 * 4096 + 1, object 1 true none), (3 * 4096 + 2, object 10 false none)] } }
def lane3 : Lane := ⟨3, 2 * 2 ^ 35, 2, 0, 3, 3, false, oldRow⟩
def copying : State :=
  st { (issuer [] (hotMem (3 + 2 ^ 41))).modGtu 1 fun u => { u with lane := some lane3 } with
    mt := { busy.mt with objs := [(3 * 4096 + 1, object 1 true none), (3 * 4096 + 2, object 10 false none)] } }
def toSelect : State := toSlu (selectCmd 1 2) [] scores
def scoreBytes : List Byte := le 4 0x3F800000 ++ le 4 0x7FC00000 ++ le 4 0xBF800000 ++ le 4 0x40000000
def scoreUs : List (Option Nat) := [some 0xBF800000, none, some 0x407FFFFF, some 0xC0000000]
def toMerge (g : Nat) : State := toSlu (mergeCmd g) [] lists
def mergeTab : List Byte := fields 32 [(0, 8, 2 * 2 ^ 35 + 64), (8, 4, 2), (0xC, 1, 7)]
def ent5 : MergeEnt := ⟨5, 0x3F800000, le 8 5 ++ le 4 0x3F800000 ++ le 4 0, 7⟩
def ent5b : MergeEnt := ⟨5, 0x40000000, le 8 5 ++ le 4 0x40000000 ++ le 4 0, 7⟩
def toOpen : State := toSlu openCmd [] []
def closeOld : List Byte := le 4 3 ++ le 4 0x40000000
def rStart : UnitCmd := reinsCmd 1 0 0
def rStep (arg : Nat) : UnitCmd := reinsCmd 2 0 arg
def rQuery : UnitCmd := reinsCmd 3 0 0
def rCommit : UnitCmd := reinsCmd 4 0 0
def rBack (k : Nat) : UnitCmd := reinsCmd 5 k 0
/-- The text record as the command reads it. -/
def recOf (s : State) (c : UnitCmd) : List Byte := ((s.b.fetchTask c Codes.reinsOperand (c.at 8 8) 1280).toOption).getD []
def atStart : State := toRnu rStart 0 (grammarMem 0x020000000000 256 ++ cells 0x020000100000 (fields 64 [(0, 4, 256), (8, 4, 10)]))
def atStep (arg : Nat) : State := toRnu (rStep arg) 0 (grammarMem 0x020000000000 4)
def atQuery : State := toRnu rQuery 0 (grammarMem 0x020000000000 4)
def atUndo (c : UnitCmd) (undo : Nat) : State := toRnu c undo []
def noReins : ReinsOk := ⟨[], ⟨0, []⟩, [], false⟩
def afterStart : ReinsOk := ((atStart.b.reinsStart 3 gObj (recOf atStart rStart) 0).toOption).getD noReins
def afterStep : ReinsOk := (((atStep 1).b.reinsStep gObj (recOf (atStep 1) (rStep 1)) 1 false).toOption).getD noReins
def afterQuery : ReinsOk := ((atQuery.b.reinsQuery gObj (recOf atQuery rQuery)).toOption).getD noReins
def gram : Grammar := ⟨4, 2, 1, 3⟩
def g0 : GState := ⟨0, []⟩
def edge : Trans := ⟨1, 1, 0, false, 0⟩

/-- States and operands that meet the hypotheses of `Obligations.SelectionUnits`, clause by clause. -/
theorem witness_SelectionUnits :
    (((toSlu badSelect [] []).b.sluQ 1).queue = [badSelect] ∧ OfTask (toSlu badSelect [] []) 2 badSelect ∧ badSelect.sluOp = 1 ∧ sluCheck badSelect = some Codes.kRange) ∧
    ((toSelect.b.sluQ 1).queue = [selectCmd 1 2] ∧ OfTask toSelect 2 (selectCmd 1 2) ∧ (selectCmd 1 2).sluOp = 1 ∧ sluCheck (selectCmd 1 2) = none ∧ (selectCmd 1 2).sluMode < 2 ∧ (selectCmd 1 2).sluSort = false ∧ (selectCmd 1 2).sluIdx = 0 ∧ inRanges (selectCmd 1 2).ranges (selectCmd 1 2).sluOut (8 * (selectCmd 1 2).sluK) = true ∧ Except.toOption (toSelect.b.fetchTask (selectCmd 1 2) Codes.sluXlate (selectCmd 1 2).sluSrc (4 * (selectCmd 1 2).sluN)) = some scoreBytes ∧ toSelect.b.xlate (selectCmd 1 2).tenant (selectCmd 1 2).sluOut (8 * (selectCmd 1 2).sluK) = some 1099511628032 ∧ scoreUs = orderedAll (selectCmd 1 2).sluFmt (lanes scoreBytes) ∧ (¬(selectCmd 1 2).sluMode = 0)) ∧
    (((toMerge 1).b.sluQ 1).queue = [mergeCmd 1] ∧ OfTask (toMerge 1) 2 (mergeCmd 1) ∧ (mergeCmd 1).sluOp = 2 ∧ sluCheck (mergeCmd 1) = none ∧ (mergeCmd 1).sluMode = 1 ∧ (mergeCmd 1).sluSort = false ∧ 1 ≤ (mergeCmd 1).sluN ∧ (mergeCmd 1).sluN ≤ 256 ∧ Except.toOption ((toMerge 1).b.fetchTask (mergeCmd 1) Codes.sluXlate (mergeCmd 1).sluSrc (32 * (mergeCmd 1).sluN)) = some mergeTab ∧ (∀ (l : MergeList), l ∈ mergeTable mergeTab → l.rsvd = true ∧ l.addr % 16 = 0) ∧ (natSum (List.map (fun x => x.count) (mergeTable mergeTab)) ≤ 262144) ∧ (List.Pairwise (fun x1 x2 => x1 < x2) (List.map (fun x => x.list) (mergeTable mergeTab))) ∧ inRanges (mergeCmd 1).ranges (mergeCmd 1).sluOut (16 * (mergeCmd 1).sluK) = true ∧ Except.toOption ((toMerge 1).b.mergeLists (mergeCmd 1) (mergeTable mergeTab)) = some [ent5, ent5b] ∧ (toMerge 1).b.xlate (mergeCmd 1).tenant (mergeCmd 1).sluOut (16 * (mergeCmd 1).sluK) = some 1099511628032) ∧
    (((toMerge 0).b.sluQ 1).queue = [mergeCmd 0] ∧ OfTask (toMerge 0) 2 (mergeCmd 0) ∧ (mergeCmd 0).sluOp = 2 ∧ sluCheck (mergeCmd 0) = none ∧ ((mergeCmd 0).sluN = 0 ∨ 256 < (mergeCmd 0).sluN)) ∧
    (((toMerge 257).b.sluQ 1).queue = [mergeCmd 257] ∧ OfTask (toMerge 257) 2 (mergeCmd 257) ∧ (mergeCmd 257).sluOp = 2 ∧ sluCheck (mergeCmd 257) = none ∧ ((mergeCmd 257).sluN = 0 ∨ 256 < (mergeCmd 257).sluN)) ∧
    ((toOpen.b.sluQ 1).queue = [openCmd] ∧ OfTask toOpen 2 openCmd ∧ sluCheck openCmd = none ∧ (openCmd.sluState + 4352 ≤ openCmd.desc + 64 ∨ openCmd.desc + 128 ≤ openCmd.sluState) ∧ openCmd.sluOp = 3) ∧
    ((inHist.b.sluQ 1).queue = [histCmd] ∧ OfTask inHist 2 histCmd ∧ sluCheck histCmd = none ∧ (histCmd.sluState + 4352 ≤ histCmd.desc + 64 ∨ histCmd.desc + 128 ≤ histCmd.sluState) ∧ inHist.b.sluRecBad histCmd = false ∧ histCmd.sluOp = 4 ∧ (inHist.b.sluRec histCmd).phase = 1 ∧ (inHist.b.sluRec histCmd).level = 1 ∧ (inHist.b.sluRec histCmd).mode = 0 ∧ (inHist.b.sluRec histCmd).total + histCmd.sluN ≤ 16777216 ∧ (inHist.b.sluRec histCmd).seen + histCmd.sluN < 2 ^ 32 ∧ Except.toOption (inHist.b.fetchTask histCmd Codes.sluXlate histCmd.sluSrc (4 * histCmd.sluN)) = some scoreBytes) ∧
    ((histLate.b.sluQ 1).queue = [histCmd] ∧ OfTask histLate 2 histCmd ∧ sluCheck histCmd = none ∧ (histCmd.sluState + 4352 ≤ histCmd.desc + 64 ∨ histCmd.desc + 128 ≤ histCmd.sluState) ∧ histLate.b.sluRecBad histCmd = false ∧ histCmd.sluOp = 4 ∧ ((histLate.b.sluRec histCmd).phase = 2 ∨ (histLate.b.sluRec histCmd).phase = 3) ∧ ((histLate.b.sluRec histCmd).level = 1 → (histLate.b.sluRec histCmd).total + histCmd.sluN ≤ 16777216)) ∧
    ((inThresh.b.sluQ 1).queue = [threshCmd] ∧ OfTask inThresh 2 threshCmd ∧ sluCheck threshCmd = none ∧ (threshCmd.sluState + 4352 ≤ threshCmd.desc + 64 ∨ threshCmd.desc + 128 ≤ threshCmd.sluState) ∧ inThresh.b.sluRecBad threshCmd = false ∧ threshCmd.sluOp = 5 ∧ (inThresh.b.sluRec threshCmd).phase = 1 ∧ (inThresh.b.sluRec threshCmd).mode = 0 ∧ (inThresh.b.sluRec threshCmd).seen = (inThresh.b.sluRec threshCmd).total ∧ 1023 < 1024 ∧ (inThresh.b.sluRec threshCmd).at 48 ≤ natSum (List.drop 1023 (inThresh.b.sluRec threshCmd).hist) ∧ natSum (List.drop (1023 + 1) (inThresh.b.sluRec threshCmd).hist) < (inThresh.b.sluRec threshCmd).at 48) ∧
    ((inEmit.b.sluQ 1).queue = [emitCmd] ∧ OfTask inEmit 2 emitCmd ∧ sluCheck emitCmd = none ∧ (emitCmd.sluState + 4352 ≤ emitCmd.desc + 64 ∨ emitCmd.desc + 128 ≤ emitCmd.sluState) ∧ inEmit.b.sluRecBad emitCmd = false ∧ emitCmd.sluOp = 6 ∧ (inEmit.b.sluRec emitCmd).phase = 2 ∧ emitCmd.sluIdx = 0 ∧ (inEmit.b.sluRec emitCmd).mode = 1 ∧ inRanges emitCmd.ranges ((inEmit.b.sluRec emitCmd).out + 8 * (inEmit.b.sluRec emitCmd).at 52) (8 * min ((inEmit.b.sluRec emitCmd).k - (inEmit.b.sluRec emitCmd).at 52) emitCmd.sluN) = true ∧ Except.toOption (inEmit.b.fetchTask emitCmd Codes.sluXlate emitCmd.sluSrc (4 * emitCmd.sluN)) = some scoreBytes ∧ sluEmitPos id ((inEmit.b.sluRec emitCmd).at 44) ((inEmit.b.sluRec emitCmd).at 48) ((inEmit.b.sluRec emitCmd).at 56) (orderedAll (inEmit.b.sluRec emitCmd).fmt (lanes scoreBytes)) = ([0, 3], 1) ∧ [0, 3] ≠ [] ∧ [0, 3].length ≤ (inEmit.b.sluRec emitCmd).k - (inEmit.b.sluRec emitCmd).at 52 ∧ inEmit.b.xlate emitCmd.tenant ((inEmit.b.sluRec emitCmd).out + 8 * (inEmit.b.sluRec emitCmd).at 52) (8 * [0, 3].length) = some 1099511628032) ∧
    ((inClose.b.sluQ 1).queue = [closeCmd] ∧ OfTask inClose 2 closeCmd ∧ sluCheck closeCmd = none ∧ (closeCmd.sluState + 4352 ≤ closeCmd.desc + 64 ∨ closeCmd.desc + 128 ≤ closeCmd.sluState) ∧ inClose.b.sluRecBad closeCmd = false ∧ closeCmd.sluOp = 7 ∧ (inClose.b.sluRec closeCmd).phase = 2 ∧ (inClose.b.sluRec closeCmd).mode = 1 ∧ (inClose.b.sluRec closeCmd).sort = false ∧ (inClose.b.sluRec closeCmd).seen = (inClose.b.sluRec closeCmd).total ∧ (inClose.b.sluRec closeCmd).at 52 ≤ (inClose.b.sluRec closeCmd).k ∧ inRanges closeCmd.ranges (inClose.b.sluRec closeCmd).out (8 * (inClose.b.sluRec closeCmd).k) = true ∧ Except.toOption (inClose.b.fetchTask closeCmd Codes.sluXlate (inClose.b.sluRec closeCmd).out (8 * (inClose.b.sluRec closeCmd).at 52)) = some closeOld ∧ inClose.b.xlate closeCmd.tenant (inClose.b.sluRec closeCmd).out (8 * (inClose.b.sluRec closeCmd).k) = some 1099511628032) := by delta OfTask; and_intros <;> decide +kernel

/-- States and operands that meet the hypotheses of `Obligations.ReinsUnits`, clause by clause. -/
theorem witness_ReinsUnits :
    ((atStart.b.rnuQ 1).queue = [rStart] ∧ OfTask atStart 2 rStart ∧ rnuRsvd rStart = true ∧ atStart.b.rnuObj rStart = some (2, gObj) ∧ rStart.at 8 8 = ctxTva (atStart.b.ctx rStart.ctx).textRec ∧ rStart.rnuOut = 0 ∧ (atStart.b.fetchTask rStart Codes.reinsOperand (rStart.at 8 8) 1280).isOk = true ∧ atStart.b.xlate rStart.tenant (rStart.at 8 8) 1280 = some ctxRangeBase ∧ rStart.rnuOp = 1 ∧ (atStart.b.reinsStart rStart.tenant gObj (recOf atStart rStart) rStart.rnuArg).isOk = true) ∧
    (((atStep 1).b.rnuQ 1).queue = [rStep 1] ∧ OfTask (atStep 1) 2 (rStep 1) ∧ rnuRsvd (rStep 1) = true ∧ (atStep 1).b.rnuObj (rStep 1) = some (2, gObj) ∧ (rStep 1).at 8 8 = ctxTva ((atStep 1).b.ctx (rStep 1).ctx).textRec ∧ (rStep 1).rnuOut = 0 ∧ ((atStep 1).b.fetchTask (rStep 1) Codes.reinsOperand ((rStep 1).at 8 8) 1280).isOk = true ∧ (atStep 1).b.xlate (rStep 1).tenant ((rStep 1).at 8 8) 1280 = some ctxRangeBase ∧ (rStep 1).rnuOp = 2 ∧ (rStep 1).rnuArg < 2 ^ 24 ∧ ((atStep 1).b.reinsStep gObj (recOf (atStep 1) (rStep 1)) (rStep 1).rnuArg (bit ((rStep 1).at 0 4) 16)).isOk = true) ∧
    (((atStep 2).b.rnuQ 1).queue = [rStep 2] ∧ OfTask (atStep 2) 2 (rStep 2) ∧ rnuRsvd (rStep 2) = true ∧ (atStep 2).b.rnuObj (rStep 2) = some (2, gObj) ∧ (rStep 2).at 8 8 = ctxTva ((atStep 2).b.ctx (rStep 2).ctx).textRec ∧ (rStep 2).rnuOut = 0 ∧ ((atStep 2).b.fetchTask (rStep 2) Codes.reinsOperand ((rStep 2).at 8 8) 1280).isOk = true ∧ (atStep 2).b.xlate (rStep 2).tenant ((rStep 2).at 8 8) 1280 = some ctxRangeBase ∧ (rStep 2).rnuOp = 2 ∧ (rStep 2).rnuArg < 2 ^ 24 ∧ Except.toOption ((atStep 2).b.grammar gObj) = some gram ∧ g0 = tGState (recOf (atStep 2) (rStep 2)) ∧ (rStep 2).rnuArg < gram.vocab ∧ (bit ((rStep 2).at 0 4) 16 = true → tUndo (recOf (atStep 2) (rStep 2)) < 8) ∧ Except.toOption ((atStep 2).b.gramState gObj gram g0.state) = some (true, [edge]) ∧ Except.toOption ((atStep 2).b.tokenClass gObj (rStep 2).rnuArg) = some 65535 ∧ (rStep 2).rnuArg ≠ gram.endToken ∧ (∀ (t : Machine.Trans), t ∈ [edge] → t.applies g0 65535 = false)) ∧
    ((atQuery.b.rnuQ 1).queue = [rQuery] ∧ OfTask atQuery 2 rQuery ∧ rnuRsvd rQuery = true ∧ atQuery.b.rnuObj rQuery = some (2, gObj) ∧ rQuery.at 8 8 = ctxTva (atQuery.b.ctx rQuery.ctx).textRec ∧ rQuery.rnuOut = 0 ∧ (atQuery.b.fetchTask rQuery Codes.reinsOperand (rQuery.at 8 8) 1280).isOk = true ∧ atQuery.b.xlate rQuery.tenant (rQuery.at 8 8) 1280 = some ctxRangeBase ∧ rQuery.rnuOp = 3 ∧ (atQuery.b.reinsQuery gObj (recOf atQuery rQuery)).isOk = true) ∧
    (((atUndo rCommit 1).b.rnuQ 1).queue = [rCommit] ∧ OfTask (atUndo rCommit 1) 2 rCommit ∧ rnuRsvd rCommit = true ∧ (atUndo rCommit 1).b.rnuObj rCommit = some (2, gObj) ∧ rCommit.at 8 8 = ctxTva ((atUndo rCommit 1).b.ctx rCommit.ctx).textRec ∧ rCommit.rnuOut = 0 ∧ ((atUndo rCommit 1).b.fetchTask rCommit Codes.reinsOperand (rCommit.at 8 8) 1280).isOk = true ∧ (atUndo rCommit 1).b.xlate rCommit.tenant (rCommit.at 8 8) 1280 = some ctxRangeBase ∧ rCommit.rnuOp = 4) ∧
    (((atUndo (rBack 1) 1).b.rnuQ 1).queue = [rBack 1] ∧ OfTask (atUndo (rBack 1) 1) 2 (rBack 1) ∧ rnuRsvd (rBack 1) = true ∧ (atUndo (rBack 1) 1).b.rnuObj (rBack 1) = some (2, gObj) ∧ (rBack 1).at 8 8 = ctxTva ((atUndo (rBack 1) 1).b.ctx (rBack 1).ctx).textRec ∧ (rBack 1).rnuOut = 0 ∧ ((atUndo (rBack 1) 1).b.fetchTask (rBack 1) Codes.reinsOperand ((rBack 1).at 8 8) 1280).isOk = true ∧ (atUndo (rBack 1) 1).b.xlate (rBack 1).tenant ((rBack 1).at 8 8) 1280 = some ctxRangeBase ∧ (rBack 1).rnuOp = 5 ∧ 1 ≤ (rBack 1).at 1 1 ∧ (rBack 1).at 1 1 ≤ 8 ∧ (rBack 1).at 1 1 ≤ tUndo (recOf (atUndo (rBack 1) 1) (rBack 1))) ∧
    (((atUndo (rBack 8) 8).b.rnuQ 1).queue = [rBack 8] ∧ OfTask (atUndo (rBack 8) 8) 2 (rBack 8) ∧ rnuRsvd (rBack 8) = true ∧ (atUndo (rBack 8) 8).b.rnuObj (rBack 8) = some (2, gObj) ∧ (rBack 8).at 8 8 = ctxTva ((atUndo (rBack 8) 8).b.ctx (rBack 8).ctx).textRec ∧ (rBack 8).rnuOut = 0 ∧ ((atUndo (rBack 8) 8).b.fetchTask (rBack 8) Codes.reinsOperand ((rBack 8).at 8 8) 1280).isOk = true ∧ (atUndo (rBack 8) 8).b.xlate (rBack 8).tenant ((rBack 8).at 8 8) 1280 = some ctxRangeBase ∧ (rBack 8).rnuOp = 5 ∧ 1 ≤ (rBack 8).at 1 1 ∧ (rBack 8).at 1 1 ≤ 8 ∧ (rBack 8).at 1 1 ≤ tUndo (recOf (atUndo (rBack 8) 8) (rBack 8))) ∧
    (((atUndo (rBack 0) 1).b.rnuQ 1).queue = [rBack 0] ∧ OfTask (atUndo (rBack 0) 1) 2 (rBack 0) ∧ rnuRsvd (rBack 0) = true ∧ (atUndo (rBack 0) 1).b.rnuObj (rBack 0) = some (2, gObj) ∧ (rBack 0).at 8 8 = ctxTva ((atUndo (rBack 0) 1).b.ctx (rBack 0).ctx).textRec ∧ (rBack 0).rnuOut = 0 ∧ ((atUndo (rBack 0) 1).b.fetchTask (rBack 0) Codes.reinsOperand ((rBack 0).at 8 8) 1280).isOk = true ∧ (atUndo (rBack 0) 1).b.xlate (rBack 0).tenant ((rBack 0).at 8 8) 1280 = some ctxRangeBase ∧ (rBack 0).rnuOp = 5 ∧ ((rBack 0).at 1 1 = 0 ∨ 8 < (rBack 0).at 1 1 ∨ tUndo (recOf (atUndo (rBack 0) 1) (rBack 0)) < (rBack 0).at 1 1)) ∧
    (((atUndo (rBack 9) 1).b.rnuQ 1).queue = [rBack 9] ∧ OfTask (atUndo (rBack 9) 1) 2 (rBack 9) ∧ rnuRsvd (rBack 9) = true ∧ (atUndo (rBack 9) 1).b.rnuObj (rBack 9) = some (2, gObj) ∧ (rBack 9).at 8 8 = ctxTva ((atUndo (rBack 9) 1).b.ctx (rBack 9).ctx).textRec ∧ (rBack 9).rnuOut = 0 ∧ ((atUndo (rBack 9) 1).b.fetchTask (rBack 9) Codes.reinsOperand ((rBack 9).at 8 8) 1280).isOk = true ∧ (atUndo (rBack 9) 1).b.xlate (rBack 9).tenant ((rBack 9).at 8 8) 1280 = some ctxRangeBase ∧ (rBack 9).rnuOp = 5 ∧ ((rBack 9).at 1 1 = 0 ∨ 8 < (rBack 9).at 1 1 ∨ tUndo (recOf (atUndo (rBack 9) 1) (rBack 9)) < (rBack 9).at 1 1)) ∧
    (((atUndo (rBack 2) 1).b.rnuQ 1).queue = [rBack 2] ∧ OfTask (atUndo (rBack 2) 1) 2 (rBack 2) ∧ rnuRsvd (rBack 2) = true ∧ (atUndo (rBack 2) 1).b.rnuObj (rBack 2) = some (2, gObj) ∧ (rBack 2).at 8 8 = ctxTva ((atUndo (rBack 2) 1).b.ctx (rBack 2).ctx).textRec ∧ (rBack 2).rnuOut = 0 ∧ ((atUndo (rBack 2) 1).b.fetchTask (rBack 2) Codes.reinsOperand ((rBack 2).at 8 8) 1280).isOk = true ∧ (atUndo (rBack 2) 1).b.xlate (rBack 2).tenant ((rBack 2).at 8 8) 1280 = some ctxRangeBase ∧ (rBack 2).rnuOp = 5 ∧ ((rBack 2).at 1 1 = 0 ∨ 8 < (rBack 2).at 1 1 ∨ tUndo (recOf (atUndo (rBack 2) 1) (rBack 2)) < (rBack 2).at 1 1)) := by delta OfTask; and_intros <;> decide +kernel

/-- States and operands that meet the hypotheses of `Obligations.GatherUnits`, clause by clause. -/
theorem witness_GatherUnits :
    ((toLookup.b.gtuQ 1).queue = [gatherCmd 1 2] ∧ (toLookup.b.gtuQ 1).wait = none ∧ OfTask toLookup 2 (gatherCmd 1 2) ∧ Except.toOption (toLookup.b.gtuCheck 1 (gatherCmd 1 2)) = some (tableAt (tableHdr 513 0)) ∧ Except.toOption (toLookup.b.gtuKeys (gatherCmd 1 2) (tableAt (tableHdr 513 0))) = some [3, 2 ^ 64 - 1] ∧ [3, 2 ^ 64 - 1] ≠ [] ∧ (gatherCmd 1 2).gtuOp = 1 ∧ (tableAt (tableHdr 513 0)).spread = 0 ∧ (gatherCmd 1 2).gtuPool = false ∧ (looked.toOption.map (fun x => x.2) = some [(3, [(0 : W32), 7, 0, 0])]) ∧ Except.toOption (lookedB.fetchTask (gatherCmd 1 2) Codes.gtuXlate ((tableAt (tableHdr 513 0)).addr + 128) (tableAt (tableHdr 513 0)).rb) = some (fields 16 [(0, 4, 9)]) ∧ toLookup.b.xlate (gatherCmd 1 2).tenant (gatherCmd 1 2).gtuOut ([3, 2 ^ 64 - 1].length * (tableAt (tableHdr 513 0)).rs64) = some 1099511628032 ∧ 1 ≤ (tableAt (tableHdr 513 0)).elems) ∧
    ((toKeys.b.gtuQ 1).queue = [gatherCmd 3 2] ∧ (toKeys.b.gtuQ 1).wait = none ∧ OfTask toKeys 2 (gatherCmd 3 2) ∧ Except.toOption (toKeys.b.gtuCheck 1 (gatherCmd 3 2)) = some (tableAt keyHdr) ∧ Except.toOption (toKeys.b.gtuKeys (gatherCmd 3 2) (tableAt keyHdr)) = some [3, 2 ^ 64 - 1] ∧ [3, 2 ^ 64 - 1] ≠ [] ∧ (gatherCmd 3 2).gtuOp = 3 ∧ toKeys.b.xlate (gatherCmd 3 2).tenant (gatherCmd 3 2).gtuOut (8 * [3, 2 ^ 64 - 1].length) = some 1099511628032) ∧
    ((toAdd.b.gtuQ 1).queue = [updateCmd] ∧ (toAdd.b.gtuQ 1).wait = none ∧ updateCmd.deferred = true ∧ updateCmd.forwarded = none ∧ updateCmd.gtuOp = 2 ∧ Except.toOption (toAdd.b.gtuCheck 1 updateCmd) = some (tableAt (tableHdr 1 0)) ∧ Except.toOption (toAdd.b.gtuKeys updateCmd (tableAt (tableHdr 1 0))) = some [3 * 2 ^ 60] ∧ (tableAt (tableHdr 1 0)).rowOf (3 * 2 ^ 60) = some (3, 0) ∧ 3 < rowB ∧ (tableAt (tableHdr 1 0)).spread = 0 ∧ (tableAt (tableHdr 1 0)).hotRows = 0 ∧ (toAdd.b.gtuQ 1).lane = none ∧ Except.toOption (toAdd.b.fetchTask updateCmd Codes.gtuXlate updateCmd.gtuDelta (tableAt (tableHdr 1 0)).rs64) = some deltas ∧ Except.toOption (toAdd.b.fetchTask updateCmd Codes.gtuXlate ((tableAt (tableHdr 1 0)).baseA + 3 * (tableAt (tableHdr 1 0)).rs) (tableAt (tableHdr 1 0)).rb) = some oldRow ∧ oldRow.length = (tableAt (tableHdr 1 0)).rb ∧ toAdd.b.xlate updateCmd.tenant ((tableAt (tableHdr 1 0)).baseA + 3 * (tableAt (tableHdr 1 0)).rs) (tableAt (tableHdr 1 0)).rb = some 2199023259696) ∧
    ((badUpdate.b.gtuQ 1).queue = [updateCmd] ∧ (badUpdate.b.gtuQ 1).wait = none ∧ updateCmd.deferred = true ∧ updateCmd.forwarded = none ∧ updateCmd.gtuOp = 2 ∧ ((match badUpdate.b.gtuCheck 1 updateCmd with | Except.error e => e == Codes.gtuTableBad | Except.ok _ => false) = true)) ∧
    ((candidate3.b.gtuQ 1).candidate = some (3, 2 * 2 ^ 35, 2, 3) ∧ Except.toOption (candidate3.b.gtuTable (laneCmd 3 (2 * 2 ^ 35))) = some hotTable ∧ (candidate3.b.gtuQ 1).lane = none ∧ candidate3.b.fenced 6 1 = false ∧ 0 < hotTable.hotRows ∧ 3 < 2 ^ 40 ∧ (List.find? (fun x => x.snd.snd.fst == 0) (List.filterMap (fun j => Option.map (fun x => (j, x)) (candidate3.b.hotSlotAt 3 hotTable j)) (hotTable.bucketSlots 3)) = some (0, (candidate3.b.hotSlotAt 3 hotTable 0).getD (0, 0, 0))) ∧ candidate3.b.readV 3 (candidate3.b.addrOf hotTable 3) hotTable.rb = some oldRow) ∧
    ((copying.b.gtuQ 1).lane = some lane3 ∧ lane3.draining = false ∧ lane3.row < 2 ^ 40 ∧ Except.toOption (copying.b.gtuTable (laneCmd lane3.tenant lane3.table)) = some hotTable ∧ copying.b.hotSlotAt lane3.tenant hotTable lane3.slot = some (3, 2, 0) ∧ (copying.b.xlate lane3.tenant (hotTable.hotRow lane3.slot) (replayLedger hotTable.fmt (copying.b.gtuQ 1).ledger lane3.copy).length).isSome = true) := by delta OfTask; and_intros <;> decide +kernel

/-- A started object command of tenant 3 with its word 0 (less the tenant), object, size or offset, host address and length. -/
def toOc (w obj size host len : Nat) (objs : Tab Obj) : State :=
  st { busy with mt := { busy.mt with
    objBusy := true, objCmd := fields 64 [(0, 4, w + 3 * 2 ^ 20), (4, 4, obj), (8, 8, size), (0x10, 8, host), (0x18, 4, len)], objs := objs } }
def obj5 : Obj := object 4 false none
def one5 : Tab Obj := [(3 * 4096 + 5, obj5)]
def badOc (op : Nat) : State := toOc op 0 0 0 0 []
def createOc : State := toOc (0x101 + 2 ^ 18) 6 65536 0 0 []
def createAny : State := toOc (0x101 + 2 ^ 19) 6 65536 0 0 []
def createHbm : State := toOc (0x101 + 2 ^ 16 + 3 * 2 ^ 17) 6 65536 0 0 []
def writeOc : State := toOc 2 5 64 0x1000 64 one5
def boundOc : State :=
  ⟨[], { (toOc 2 1 64 0x1000 64 [(3 * 4096 + 1, object 1 true none)]).b with ske := (sharded .live).ske }⟩
def readOc : State := toOc 3 5 64 0x1000 64 one5
/-- The same with every dray channel fenced. -/
def readNoDray : State :=
  ⟨[], { readOc.b with rel := { readOc.b.rel with fenced := [⟨9, 78⟩, ⟨9, 79⟩] } }⟩
def releaseOc : State := toOc 4 5 0 0 0 one5
def leaving : Obj := { obj5 with state := .releasing }
def released : State := st { busy with mt := { busy.mt with objs := [(3 * 4096 + 5, leaving)] } }
def ent3 : PageEnt := ⟨3, false, 1, false, false, false, 200, 0, 9⟩
def movingEnt (dirty : Bool) : PageEnt := { ent3 with migrating := true, dirty := dirty }
def toMove : State := st { busy with mt := { busy.mt with map := [(7, ent3)], candidate := [(1, 7)] } }
def move7 : PageMove := ⟨7, true, 4, false, 0, none⟩
def moved (dirty : Bool) : State :=
  st { busy with
    clk := { busy.clk with cclk := 1572864 }, mt := { busy.mt with map := [(7, movingEnt dirty)], moves := [(1, move7)] } }
def holding : State :=
  st { busy with ctxs := [], clk := { busy.clk with cclk := 1572864 }, mt := { busy.mt with held := [⟨true, 1, 4, 0⟩, ⟨true, 1, 4, 1⟩, ⟨false, 0, 5, 0⟩] } }

/-- A slot command of tenant 3 on the command path. -/
def slotBytes (op count slot addr : Nat) : List Byte := fields 64 [(0, 4, op + 3 * 2 ^ 20), (4, 4, count), (8, 5, slot), (0x10, 8, addr)]
def slotC (op count slot addr : Nat) : SlotCmd := ⟨none, 3, slotBytes op count slot addr⟩
def onSb (bytes : List Byte) (slots : Tab SbSlot) : State :=
  st { busy with
    mt := { busy.mt with objs := [(3 * 4096 + 1, object 1 true none)] }
    sb := { busy.sb with busy := true, cmd := bytes, slots := slots, erased := 1 } }
def place9 : Place := ⟨9, 8, 7, 2⟩
def ones : List Byte := List.replicate 4096 1
def slotB : SbSlot := ⟨[1, 2], false, none, none, 8, 0⟩
def slotBig : SbSlot := { slotB with data := ones }
def slotP : SbSlot := ⟨[1, 2], false, none, some place9, 8, 0⟩
def slots1 (x : SbSlot) : Tab SbSlot := [(slotKey 3 0, x)]
def badSlot (op : Nat) : State := onSb (slotBytes op 0 0 0) []
def discardS : State := onSb (slotBytes 3 1 0 0) (slots1 slotB)
def writeS : State := onSb (slotBytes 2 1 5 0x1000) (slots1 slotB)
def readS (x : SbSlot) : State := onSb (slotBytes 1 1 0 0x1000) (slots1 x)
def toObjS : State := onSb (slotBytes 4 1 0 (2 ^ 35 + 4096)) (slots1 slotBig)
def write8 : SbWrite := ⟨3, none, [], 1, Codes.ok⟩
def writtenS : State := st { busy with sb := { busy.sb with busy := true, writes := [(8, [write8])] } }
def read9 : SbRead := ⟨4, 6, 0, 3, 0, [1, 2], place9, false, 0, 5, none⟩
def job6 : SbJob := ⟨6, none, 1, 3, 0x1000, 1, 0, [], Codes.ok, none⟩
def turnR : State :=
  st { busy with sb := { busy.sb with busy := true, slots := slots1 slotP, reads := [(9, [read9])], jobs := [job6], turns := [(9, 8)] } }
def turnP : State := st { busy with sb := { busy.sb with slots := slots1 slotB, turns := [(9, 17)], erased := 1 } }
def turnE : State := st { busy with sb := { busy.sb with blocks := [(blockKey 9 8, 1536)], turns := [(9, 1)], slots := [] } }
def ckptS : State := ⟨[], { turnE.b with sb := { turnE.b.sb with ckpt := true, ckptFrom := 4, journal := 6 } }⟩

/-- A descriptor on channel 0 of quarter 1: from object 2 to object 1. -/
def dray (w len nch stride : Nat) : UnitCmd :=
  unitCmd 5 [(0, 4, w), (4, 4, 1), (8, 4, len), (0xC, 4, nch), (0x10, 8, 2 * 2 ^ 35), (0x18, 8, 2 ^ 35 + 0x100), (0x20, 4, stride)]
def toDray (c : UnitCmd) (mem : List Byte) : State :=
  st ((issuer [] (cells 0x020000000000 mem)).modChan 16 fun u => { u with queue := [c] })
def rising (n : Nat) : List Byte := (List.range n).map fun i => BitVec.ofNat 8 (37 * i + 5)
def copy5 : UnitCmd := dray 1 5 0 0
def deint8 : UnitCmd := dray (2 + 2 ^ 18) 8 2 16
def int8 : UnitCmd := dray (3 + 2 ^ 18) 8 2 4
def split64 : UnitCmd := dray 4 64 0 8
def join64 : UnitCmd := dray 5 64 0 8
def readBack : State := st ((toDray copy5 []).b.modChan 16 fun u => { u with moved := some (5, 3) })
def hostCopy : UnitCmd := { dray (1 + 2 ^ 17) 5 0 0 with deferred := true }
def hostBack : State := st ((toDray hostCopy []).b.modChan 16 fun u => { u with moved := some (5, 3) })

/-- States and operands that meet the hypotheses of `Obligations.ObjectAndPageCommands`, clause by clause. -/
theorem witness_ObjectAndPageCommands :
    ((badOc 1).b.mt.objBusy = true ∧ (badOc 1).b.ocCheck = some Codes.objBad ∧ ((badOc 1).b.ocOp = 1 ∨ (badOc 1).b.ocOp = 0 ∨ 4 < (badOc 1).b.ocOp)) ∧
    ((badOc 0).b.mt.objBusy = true ∧ (badOc 0).b.ocCheck = some Codes.objBad ∧ ((badOc 0).b.ocOp = 1 ∨ (badOc 0).b.ocOp = 0 ∨ 4 < (badOc 0).b.ocOp)) ∧
    ((badOc 5).b.mt.objBusy = true ∧ (badOc 5).b.ocCheck = some Codes.objBad ∧ ((badOc 5).b.ocOp = 1 ∨ (badOc 5).b.ocOp = 0 ∨ 4 < (badOc 5).b.ocOp)) ∧
    ((badOc 2).b.mt.objBusy = true ∧ (badOc 2).b.ocCheck = some Codes.objBad ∧ (badOc 2).b.ocOp = 2) ∧
    ((badOc 3).b.mt.objBusy = true ∧ (badOc 3).b.ocCheck = some Codes.objBad ∧ (badOc 3).b.ocOp = 3) ∧
    ((badOc 4).b.mt.objBusy = true ∧ (badOc 4).b.ocCheck = some Codes.objBad ∧ (badOc 4).b.ocOp = 4) ∧
    (createOc.b.mt.objBusy = true ∧ createOc.b.ocOp = 1 ∧ createOc.b.ocCheck = none ∧ createOc.b.obj? createOc.b.ocTenant createOc.b.ocObj = none ∧ (if createOc.b.ocHbm = true then (createOc.b.use createOc.b.ocTenant).hbm + createOc.b.ocSize ≤ (createOc.b.ten createOc.b.ocTenant).quota.hbm else (createOc.b.use createOc.b.ocTenant).ddr + createOc.b.ocSize ≤ (createOc.b.ten createOc.b.ocTenant).quota.ddr) ∧ (2 = if createOc.b.ocAnyq = true then createOc.b.roomiest createOc.b.ocHbm else createOc.b.ocQuarter) ∧ createOc.b.placeObj createOc.b.ocHbm 2 createOc.b.ocSize = some ((createOc.b.placeObj false 2 65536).getD 0)) ∧
    (createAny.b.mt.objBusy = true ∧ createAny.b.ocOp = 1 ∧ createAny.b.ocCheck = none ∧ createAny.b.obj? createAny.b.ocTenant createAny.b.ocObj = none ∧ (if createAny.b.ocHbm = true then (createAny.b.use createAny.b.ocTenant).hbm + createAny.b.ocSize ≤ (createAny.b.ten createAny.b.ocTenant).quota.hbm else (createAny.b.use createAny.b.ocTenant).ddr + createAny.b.ocSize ≤ (createAny.b.ten createAny.b.ocTenant).quota.ddr) ∧ (0 = if createAny.b.ocAnyq = true then createAny.b.roomiest createAny.b.ocHbm else createAny.b.ocQuarter) ∧ createAny.b.placeObj createAny.b.ocHbm 0 createAny.b.ocSize = some ((createAny.b.placeObj false 0 65536).getD 0)) ∧
    (createHbm.b.mt.objBusy = true ∧ createHbm.b.ocOp = 1 ∧ createHbm.b.ocCheck = none ∧ createHbm.b.obj? createHbm.b.ocTenant createHbm.b.ocObj = none ∧ (if createHbm.b.ocHbm = true then (createHbm.b.use createHbm.b.ocTenant).hbm + createHbm.b.ocSize ≤ (createHbm.b.ten createHbm.b.ocTenant).quota.hbm else (createHbm.b.use createHbm.b.ocTenant).ddr + createHbm.b.ocSize ≤ (createHbm.b.ten createHbm.b.ocTenant).quota.ddr) ∧ (3 = if createHbm.b.ocAnyq = true then createHbm.b.roomiest createHbm.b.ocHbm else createHbm.b.ocQuarter) ∧ createHbm.b.placeObj createHbm.b.ocHbm 3 createHbm.b.ocSize = some ((createHbm.b.placeObj true 3 65536).getD 0)) ∧
    (writeOc.b.mt.objBusy = true ∧ writeOc.b.ocCheck = none ∧ writeOc.b.obj? writeOc.b.ocTenant writeOc.b.ocObj = some obj5 ∧ writeOc.b.ocOp = 2 ∧ writeOc.b.objBound writeOc.b.ocTenant writeOc.b.ocObj = false ∧ writeOc.b.objHolds writeOc.b.ocTenant writeOc.b.ocObj = 0 ∧ writeOc.b.ocChannel.isSome = true) ∧
    (boundOc.b.mt.objBusy = true ∧ boundOc.b.ocCheck = none ∧ boundOc.b.obj? boundOc.b.ocTenant boundOc.b.ocObj = some (object 1 true none) ∧ boundOc.b.ocOp = 2 ∧ (boundOc.b.objBound boundOc.b.ocTenant boundOc.b.ocObj = true ∨ 0 < boundOc.b.objHolds boundOc.b.ocTenant boundOc.b.ocObj)) ∧
    (readOc.b.mt.objBusy = true ∧ readOc.b.ocCheck = none ∧ readOc.b.obj? readOc.b.ocTenant readOc.b.ocObj = some obj5 ∧ readOc.b.ocOp = 3 ∧ readOc.b.poisoned (obj5.base + readOc.b.ocSize) readOc.b.ocLen = false ∧ readOc.b.ocChannel.isSome = true) ∧
    (readNoDray.b.mt.objBusy = true ∧ readNoDray.b.ocCheck = none ∧ readNoDray.b.obj? readNoDray.b.ocTenant readNoDray.b.ocObj = some obj5 ∧ readNoDray.b.ocOp = 3 ∧ readNoDray.b.ocChannel = none) ∧
    (releaseOc.b.mt.objBusy = true ∧ releaseOc.b.ocCheck = none ∧ releaseOc.b.obj? releaseOc.b.ocTenant releaseOc.b.ocObj = some obj5 ∧ releaseOc.b.ocOp = 4 ∧ releaseOc.b.objBound releaseOc.b.ocTenant releaseOc.b.ocObj = false) ∧
    (released.b.obj? 3 5 = some leaving ∧ leaving.state = ObjState.releasing ∧ released.b.objHolds 3 5 = 0 ∧ (leaving.forced = true ∨ released.b.objBound 3 5 = false) ∧ (released.b.ten 3).closing = none) ∧
    (tabFind? 1 toMove.b.mt.candidate = some 7 ∧ tabFind? 1 toMove.b.mt.moves = none ∧ toMove.b.fenced 8 1 = false ∧ toMove.b.freePoolPage true 1 = some ((toMove.b.freePoolPage true 1).getD 0) ∧ tabFind? 7 toMove.b.mt.map = some ent3) ∧
    (tabFind? 1 (moved true).b.mt.moves = some move7 ∧ tabFind? move7.page (moved true).b.mt.map = some (movingEnt true) ∧ move7.since + 1572864 ≤ (moved true).b.clk.cclk ∧ (movingEnt true).dirty = true) ∧
    (tabFind? 1 (moved false).b.mt.moves = some move7 ∧ tabFind? move7.page (moved false).b.mt.map = some (movingEnt false) ∧ move7.since + 1572864 ≤ (moved false).b.clk.cclk ∧ (movingEnt false).dirty = false ∧ move7.promoteNext = none) := by and_intros <;> decide +kernel

/-- States and operands that meet the hypotheses of `Obligations.StrongboxCommands`, clause by clause. -/
theorem witness_StrongboxCommands :
    ((badSlot 1).b.slotCmd SlotSource.cmdPath = some (slotC 1 0 0 0) ∧ (badSlot 1).b.slotCheck (slotC 1 0 0 0) = some Codes.sbOperand ∧ ((slotC 1 0 0 0).op = 1 ∨ (slotC 1 0 0 0).op = 0 ∨ 4 < (slotC 1 0 0 0).op)) ∧
    ((badSlot 5).b.slotCmd SlotSource.cmdPath = some (slotC 5 0 0 0) ∧ (badSlot 5).b.slotCheck (slotC 5 0 0 0) = some Codes.sbOperand ∧ ((slotC 5 0 0 0).op = 1 ∨ (slotC 5 0 0 0).op = 0 ∨ 4 < (slotC 5 0 0 0).op)) ∧
    ((badSlot 2).b.slotCmd SlotSource.cmdPath = some (slotC 2 0 0 0) ∧ (badSlot 2).b.slotCheck (slotC 2 0 0 0) = some Codes.sbOperand ∧ (slotC 2 0 0 0).op = 2) ∧
    ((badSlot 3).b.slotCmd SlotSource.cmdPath = some (slotC 3 0 0 0) ∧ (badSlot 3).b.slotCheck (slotC 3 0 0 0) = some Codes.sbOperand ∧ (slotC 3 0 0 0).op = 3) ∧
    ((badSlot 4).b.slotCmd SlotSource.cmdPath = some (slotC 4 0 0 0) ∧ (badSlot 4).b.slotCheck (slotC 4 0 0 0) = some Codes.sbOperand ∧ (slotC 4 0 0 0).op = 4) ∧
    (discardS.b.slotCmd SlotSource.cmdPath = some (slotC 3 1 0 0) ∧ discardS.b.slotCheck (slotC 3 1 0 0) = none ∧ (slotC 3 1 0 0).op = 3) ∧
    (writeS.b.slotCmd SlotSource.cmdPath = some (slotC 2 1 5 4096) ∧ writeS.b.slotCheck (slotC 2 1 5 4096) = none ∧ (slotC 2 1 5 4096).op = 2 ∧ (slotC 2 1 5 4096).count = 1 ∧ ones.length = 4096 ∧ tabGet [] 8 writeS.b.sb.writes = [] ∧ writeS.b.inBuffer 8 < 1024 ∧ writeS.b.canPlace = true) ∧
    ((readS slotB).b.slotCmd SlotSource.cmdPath = some (slotC 1 1 0 4096) ∧ (readS slotB).b.slotCheck (slotC 1 1 0 4096) = none ∧ (slotC 1 1 0 4096).op = 1 ∧ (slotC 1 1 0 4096).count = 1 ∧ (readS slotB).b.slot? (slotC 1 1 0 4096).tenant (slotC 1 1 0 4096).slot = some slotB ∧ slotB.lost = false ∧ (∀ (j : SbJob), j ∈ (readS slotB).b.sb.jobs → j.id ≠ (readS slotB).b.sb.nextSeq) ∧ slotB.place = none) ∧
    ((readS slotP).b.slotCmd SlotSource.cmdPath = some (slotC 1 1 0 4096) ∧ (readS slotP).b.slotCheck (slotC 1 1 0 4096) = none ∧ (slotC 1 1 0 4096).op = 1 ∧ (slotC 1 1 0 4096).count = 1 ∧ (readS slotP).b.slot? (slotC 1 1 0 4096).tenant (slotC 1 1 0 4096).slot = some slotP ∧ slotP.lost = false ∧ (∀ (j : SbJob), j ∈ (readS slotP).b.sb.jobs → j.id ≠ (readS slotP).b.sb.nextSeq) ∧ slotP.place = some place9) ∧
    (toObjS.b.slotCmd SlotSource.cmdPath = some (slotC 4 1 0 (2 ^ 35 + 4096)) ∧ toObjS.b.slotCheck (slotC 4 1 0 (2 ^ 35 + 4096)) = none ∧ (slotC 4 1 0 (2 ^ 35 + 4096)).op = 4 ∧ (slotC 4 1 0 (2 ^ 35 + 4096)).count = 1 ∧ ((toObjS.b.slot? 3 0).any (fun x => x.data.length == 4096 && x.place.isNone && !x.lost) = true) ∧ slotBig.lost = false ∧ slotBig.place = none ∧ slotBig.data.length = 4096 ∧ (∀ (j : SbJob), j ∈ toObjS.b.sb.jobs → j.id ≠ toObjS.b.sb.nextSeq) ∧ toObjS.b.xlate (slotC 4 1 0 (2 ^ 35 + 4096)).tenant (slotC 4 1 0 (2 ^ 35 + 4096)).addr 4096 = some 1099511631872) ∧
    (tabGet [] 8 writtenS.b.sb.writes = [write8] ∧ write8.rest = [] ∧ write8.cmd = none) ∧
    (tabGet 0 9 turnR.b.sb.turns % 2 = 0 ∧ tabGet [] 9 turnR.b.sb.reads = [read9] ∧ read9.owner = turnR.b.turnOwner 9 ∧ read9.place.die = 9 ∧ read9.index = 0 ∧ turnR.b.sb.jobs = [job6] ∧ read9.fetch = none ∧ turnR.b.ske.works = [] ∧ job6.id = read9.job ∧ job6.cmd = none ∧ job6.op = 1 ∧ job6.count = 1 ∧ job6.next = 0 ∧ job6.buf = [] ∧ turnR.b.dieFenced 9 = false) ∧
    (tabGet 0 9 turnP.b.sb.turns % 2 = 1 ∧ parityPage 9 8 0 = false ∧ (turnP.b.takePage 9 8 0).isSome = true ∧ tabGet [] 8 turnP.b.sb.writes = []) ∧
    (tabGet 0 9 turnE.b.sb.turns % 2 = 1 ∧ (tabFind? (blockKey 9 8) turnE.b.sb.blocks).isSome = true ∧ (¬blockKey 9 8 ∈ turnE.b.sb.retired) ∧ turnE.b.slotsIn 9 8 = [] ∧ turnE.b.readHolds 9 8 = false) ∧
    (tabGet 0 9 ckptS.b.sb.turns % 2 = 1 ∧ ckptS.b.sb.ckpt = true) ∧
    (tabGet 0 9 ckptS.b.sb.turns % 2 = 1 ∧ (tabFind? (blockKey 9 8) ckptS.b.sb.blocks).isSome = true ∧ (¬blockKey 9 8 ∈ ckptS.b.sb.retired) ∧ ckptS.b.slotsIn 9 8 = [] ∧ ckptS.b.readHolds 9 8 = false) := by and_intros <;> decide +kernel

/-- States and operands that meet the hypotheses of `Obligations.DrayCommands`, clause by clause. -/
theorem witness_DrayCommands :
    (((toDray copy5 (rising 5)).b.chan 16).queue = [copy5] ∧ ((toDray copy5 (rising 5)).b.chan 16).moved = none ∧ OfTask (toDray copy5 (rising 5)) 2 copy5 ∧ (toDray copy5 (rising 5)).b.fenced 9 16 = false ∧ (toDray copy5 (rising 5)).b.otherTransfers 16 copy5 = [] ∧ copy5.srcHost = false ∧ copy5.dstHost = false ∧ copy5.drOperands = true ∧ Except.toOption ((toDray copy5 (rising 5)).b.draySource copy5 HostRead.fault) = some (rising 5) ∧ copy5.drOp = 1 ∧ copy5.srcFix = false ∧ copy5.dstFix = false ∧ (toDray copy5 (rising 5)).b.copyOverlap copy5 (rising 5) = rising 5 ∧ (toDray copy5 (rising 5)).b.xlate copy5.tenant copy5.drDst copy5.drLen = some 1099511628032) ∧
    (((toDray deint8 (rising 8)).b.chan 16).queue = [deint8] ∧ ((toDray deint8 (rising 8)).b.chan 16).moved = none ∧ OfTask (toDray deint8 (rising 8)) 2 deint8 ∧ (toDray deint8 (rising 8)).b.fenced 9 16 = false ∧ (toDray deint8 (rising 8)).b.otherTransfers 16 deint8 = [] ∧ deint8.srcHost = false ∧ deint8.dstHost = false ∧ deint8.drOperands = true ∧ Except.toOption ((toDray deint8 (rising 8)).b.draySource deint8 HostRead.fault) = some (rising 8) ∧ deint8.drOp = 2 ∧ (∀ (n : Nat), n < deint8.drNch → (toDray deint8 (rising 8)).b.xlate deint8.tenant (deint8.drDst + n * deint8.drStride) (deint8.drF * deint8.drS) = some (1099511628032 + n * deint8.drStride))) ∧
    (((toDray int8 (rising 8)).b.chan 16).queue = [int8] ∧ ((toDray int8 (rising 8)).b.chan 16).moved = none ∧ OfTask (toDray int8 (rising 8)) 2 int8 ∧ (toDray int8 (rising 8)).b.fenced 9 16 = false ∧ (toDray int8 (rising 8)).b.otherTransfers 16 int8 = [] ∧ int8.srcHost = false ∧ int8.dstHost = false ∧ int8.drOperands = true ∧ Except.toOption ((toDray int8 (rising 8)).b.draySource int8 HostRead.fault) = some (rising 8) ∧ int8.drOp = 3 ∧ (toDray int8 (rising 8)).b.xlate int8.tenant int8.drDst int8.drLen = some 1099511628032) ∧
    (((toDray split64 (rising 64)).b.chan 16).queue = [split64] ∧ ((toDray split64 (rising 64)).b.chan 16).moved = none ∧ OfTask (toDray split64 (rising 64)) 2 split64 ∧ (toDray split64 (rising 64)).b.fenced 9 16 = false ∧ (toDray split64 (rising 64)).b.otherTransfers 16 split64 = [] ∧ split64.srcHost = false ∧ split64.dstHost = false ∧ split64.drOperands = true ∧ Except.toOption ((toDray split64 (rising 64)).b.draySource split64 HostRead.fault) = some (rising 64) ∧ split64.drOp = 4 ∧ (∀ (p : Nat), p < split64.drW → (toDray split64 (rising 64)).b.xlate split64.tenant (split64.drDst + p * split64.drStride) (split64.drLen / split64.drW) = some (1099511628032 + p * split64.drStride))) ∧
    (((toDray join64 (rising 64)).b.chan 16).queue = [join64] ∧ ((toDray join64 (rising 64)).b.chan 16).moved = none ∧ OfTask (toDray join64 (rising 64)) 2 join64 ∧ (toDray join64 (rising 64)).b.fenced 9 16 = false ∧ (toDray join64 (rising 64)).b.otherTransfers 16 join64 = [] ∧ join64.srcHost = false ∧ join64.dstHost = false ∧ join64.drOperands = true ∧ Except.toOption ((toDray join64 (rising 64)).b.draySource join64 HostRead.fault) = some (rising 64) ∧ join64.drOp = 5 ∧ (toDray join64 (rising 64)).b.xlate join64.tenant join64.drDst join64.drLen = some 1099511628032) ∧
    ((readBack.b.chan 16).queue = [copy5] ∧ (readBack.b.chan 16).moved = some (5, 3) ∧ OfTask readBack 2 copy5) ∧
    ((hostBack.b.chan 16).queue = [hostCopy] ∧ (hostBack.b.chan 16).moved = some (5, 3) ∧ hostCopy.deferred = true ∧ hostCopy.dstHost = true) := by delta OfTask; and_intros <;> decide +kernel

/-- No context of `holding` has a step. -/
theorem witness_ObjectAndPageCommands_holding : ∀ n, (holding.b.ctx n).step = none := fun _ => rfl

/-- A word for module 0 from member 1, in link cycle 100 at team latency 4. -/
def rawWord (ty : Nat) : LinkWord :=
  { type := ty, relay := false, src := 1, dst := 0, seq := 255, id := 7, offset := 2, payload := List.replicate 256 3, ackSeq := 0
    ack := 0, credit := 63, cycle := 96, crc := 0 }
/-- The same with its CRC. -/
def word (ty : Nat) : LinkWord := (rawWord ty).sealed

/-- The lead of a team of two in lockstep, its port 0 UP. -/
def team : Block :=
  { ready with
    clk := { ready.clk with straps := 0 }
    cb := { ready.cb with
      lockstep := true, l := 4, linkCycle := 100, size := 2, present := 3, expected := 3
      ports := [(0, { Port.new with state := .up, rxSeq := 255, credits := 480 })], teamMods := [(0, 0), (1, 1)] } }

/-- Member 1, before lockstep, its port 7 in training. -/
def member : Block :=
  { ready with
    clk := { ready.clk with straps := 1, stage := .teamJoin }
    cb := { ready.cb with ports := [(7, { Port.new with state := .training }), (6, { Port.new with state := .training })] } }

def work (b : WorkBody) : WorkMsg :=
  { module := 1, version := 0, ctx := 5, coachman := 5, tenant := 0, dtid := 0, setIdx := 0, pin := none, body := b }

def result : ResultMsg :=
  { module := 1, ctx := 5, setIdx := 2, code := 0, epoch := 0, ids := [], scores := [], deaths := [], tails := [], records := []
    rows := [[1], [2]], gather := true }

/-- A LOOKUP on unit 2 that waits for rows of members 1 and 2. -/
def lookupWait : GtuWait := ⟨laneCmd 0 0, [(1, [10, 11]), (2, [12])], []⟩

/-- `team` with port 0 as given, in link cycle `n`. -/
def teamPort (p : Port) (n : Nat) : State :=
  st { team with cb := { team.cb with ports := [(0, p)], linkCycle := n } }

/-- Port 0 UP with 6 or 7 failed CYCLE checks, NAKs for SEQ 9, a replay buffer, or a last valid word in a link cycle. -/
def portFails (n : Nat) : Port := { Port.new with state := .up, rxSeq := 255, cycleFail := n }
def portNaks (n : Nat) (r : List SentFlit) : Port := { Port.new with state := .up, nakRun := n, nakSeq := 9, replay := r }
def portValid (n : Nat) : Port := { Port.new with state := .up, lastValid := n }
def portDown : Port := { Port.new with state := .down, downSince := 10 }
def sent (seq cycle : Nat) : SentFlit := ⟨{ rawWord 3 with seq := seq }, cycle⟩
def lateWord : LinkWord := ({ rawWord 3 with cycle := 95 } : LinkWord).sealed
def badCrc : LinkWord := { rawWord 3 with crc := ~~~(rawWord 3).crcOf }
def pinned : State := st { team with ske := { team.ske with remote := [(1, 5, 63, 9)] } }
def newerWork : WorkMsg := { work (.lookup 3 []) with version := 1 }
def waiting : State := st { team with gtu := [(2, { Gtu.new with wait := some lookupWait })] }
def train (pos port latency : Nat) (l : Option (Nat × Nat)) : TrainInfo := ⟨pos, port, 0, 9, latency, l⟩
def lookupWork : WorkMsg := { work (.lookup 2 [3]) with tenant := 3 }
/-- `team` with a table of tenant 3 that quarter 1 serves. -/
def tabled : State :=
  st { team with
    tenants := [(3, tenant3)], mem := lookupMem
    mt := { team.mt with objs := [(3 * 4096 + 1, object 1 true none), (3 * 4096 + 2, object 10 false none)] } }
def tableOfWork : Table := tableAt (tableHdr 0x201 0)
def fwd1 : Forward := ⟨false, 1, lookupWork⟩
def workCmd : UnitCmd :=
  { laneCmd 3 tableOfWork.addr with
    quarter := 1, bytes := fitBytes 64 (le 8 1 ++ le 8 tableOfWork.addr), forwarded := some fwd1 }
/-- The same with that LOOKUP work waiting at the unit. -/
def workQueued : State := ⟨[], tabled.b.modGtu 1 fun g => { g with queue := [workCmd] }⟩
def fetchedRows : Except Code (Block × List (Nat × List W32)) :=
  (workQueued.b.modGtu 1 fun g => { g with queue := g.queue.erase workCmd, cmdCount := sat32 g.cmdCount 1 }).fetchRows 1 workCmd tableOfWork [3]
def fetchedBlock : Block := ((fetchedRows.toOption).map (·.1)).getD team
def fetchedGot : List (Nat × List W32) := ((fetchedRows.toOption).map (·.2)).getD []

/-- States and operands that meet the hypotheses of `Obligations.TeamPortWords`, clause by clause. -/
theorem witness_TeamPortWords :
    ((st team).b.takesFlit 0 3 (word 3)) ∧
    ((st team).b.portUp 0 = true ∧ (st team).b.cb.lockstep = true ∧ (st team).b.wordOk (word 0) = true ∧ (word 0).type = 0) ∧
    ((st team).b.takesFlit 0 2 (word 2) ∧ (st team).b.coll? (word 2).id (descMembers (List.replicate 12 (1 : Byte))) = none) ∧
    ((st team).b.takesFlit 0 3 (word 3) ∧ (st team).b.remotePlace 1099511627776 (64 * 2) = some 1099511627776) ∧
    ((st team).b.takesFlit 0 3 (word 3) ∧ (st team).b.remotePlace (2 ^ 49 + 1099511627776) (64 * 2) = none) ∧
    ((st team).b.takesFlit 0 4 (word 4) ∧ (st team).b.remotePlace 1408749273085 [(1 : Byte), (2 : Byte), (3 : Byte)].length = some 1408749273085) ∧
    ((st team).b.takesFlit 0 5 (word 5)) ∧
    (pinned.b.takesFlit 0 6 (word 6) ∧ (work (WorkBody.drop 63)).body = WorkBody.drop 63 ∧ (∀ (x : Nat × WorkRun), x ∈ pinned.b.ske.works → ¬(x.snd.msg.module = (work (WorkBody.drop 63)).module ∧ x.snd.msg.ctx = (work (WorkBody.drop 63)).ctx ∧ x.snd.msg.body.shard = some 63))) ∧
    ((st team).b.takesFlit 0 6 (word 6) ∧ newerWork.body = WorkBody.lookup 3 [] ∧ (newerWork.version ≠ (st team).b.sec.svn ∨ (st team).b.clk.stage ≠ Stage.ready)) ∧
    (tabled.b.takesFlit 0 6 (word 6) ∧ lookupWork.body = WorkBody.lookup 2 [3] ∧ lookupWork.version = tabled.b.sec.svn ∧ tabled.b.clk.stage = Stage.ready ∧ (tabled.b.ten lookupWork.tenant).state = TenState.on ∧ tabled.b.kindGone 6 4 = false ∧ Except.toOption ((tabled.b.received 0 (word 6)).stepTable lookupWork.tenant 2) = some tableOfWork ∧ 1 = tabled.b.servedBy tableOfWork) ∧
    ((workQueued.b.gtuQ 1).next = some workCmd ∧ workCmd.gtuOp = 1 ∧ workCmd.forwarded = some fwd1 ∧ fwd1.msg.body = WorkBody.lookup 2 [3] ∧ fwd1.domain = false ∧ Except.toOption (workQueued.b.stepTable workCmd.tenant 2) = some tableOfWork ∧ (((workQueued.b.modGtu 1 fun g => { queue := g.queue.erase workCmd, cmdCount := sat32 g.cmdCount 1, rowCount := g.rowCount, hotSample := g.hotSample, hotEvict := g.hotEvict, migrateCount := g.migrateCount, abandonCount := g.abandonCount, updFailCount := g.updFailCount, failTenant := g.failTenant, failCode := g.failCode, lane := g.lane, candidate := g.candidate, ledger := g.ledger, wait := g.wait }).fetchRows 1 workCmd tableOfWork [3]).isOk = true)) ∧
    (waiting.b.takesFlit 0 7 (word 7) ∧ result.gather = true ∧ result.setIdx < 4 ∧ (waiting.b.gtuQ result.setIdx).wait = some lookupWait ∧ List.lookup (word 7).src lookupWait.owed = some [10, 11] ∧ result.code = Codes.ok ∧ (∃ o, o ∈ lookupWait.owed ∧ o.fst ≠ (word 7).src)) := by delta Block.takesFlit; and_intros <;> first | exact Block.wordOk_cycle _ _ (by decide +kernel) | exact Block.wordOk_sealed _ (rawWord _) (by decide +kernel) (by decide +kernel) | decide +kernel | rfl

/-- States and operands that meet the hypotheses of `Obligations.TeamPortStates`, clause by clause. -/
theorem witness_TeamPortStates :
    ((teamPort (portFails 6) 100).b.portUp 0 = true ∧ (teamPort (portFails 6) 100).b.cb.lockstep = true ∧ (teamPort (portFails 6) 100).b.wordOk lateWord = false ∧ ((lateWord.cycle != ((teamPort (portFails 6) 100).b.cb.linkCycle + 65536 * 64 - (teamPort (portFails 6) 100).b.cb.l) % 65536) = false ∨ ((teamPort (portFails 6) 100).b.port 0).cycleFail < 7)) ∧
    ((teamPort (portFails 7) 100).b.portUp 0 = true ∧ (teamPort (portFails 7) 100).b.cb.lockstep = true ∧ badCrc.type < 10 ∧ ((badCrc.cycle != ((teamPort (portFails 7) 100).b.cb.linkCycle + 65536 * 64 - (teamPort (portFails 7) 100).b.cb.l) % 65536) = false ∨ ((teamPort (portFails 7) 100).b.port 0).cycleFail < 7)) ∧
    ((teamPort (portFails 7) 100).b.portUp 0 = true ∧ (teamPort (portFails 7) 100).b.cb.lockstep = true ∧ (teamPort (portFails 7) 100).b.wordOk lateWord = false ∧ (lateWord.cycle != ((teamPort (portFails 7) 100).b.cb.linkCycle + 65536 * 64 - (teamPort (portFails 7) 100).b.cb.l) % 65536) = true ∧ 7 ≤ ((teamPort (portFails 7) 100).b.port 0).cycleFail) ∧
    ((teamPort (portNaks 3 []) 100).b.portUp 0 = true ∧ ((teamPort (portNaks 3 []) 100).b.cb.retryLimit ≤ if ((teamPort (portNaks 3 []) 100).b.port 0).nakSeq = 9 then ((teamPort (portNaks 3 []) 100).b.port 0).nakRun + 1 else 1)) ∧
    ((teamPort (portNaks 2 [sent 8 90, sent 9 91]) 100).b.portUp 0 = true ∧ ((if ((teamPort (portNaks 2 [sent 8 90, sent 9 91]) 100).b.port 0).nakSeq = 9 then ((teamPort (portNaks 2 [sent 8 90, sent 9 91]) 100).b.port 0).nakRun + 1 else 1) < (teamPort (portNaks 2 [sent 8 90, sent 9 91]) 100).b.cb.retryLimit) ∧ (List.findIdx? (fun f => f.word.seq == 9) ((teamPort (portNaks 2 [sent 8 90, sent 9 91]) 100).b.port 0).replay = some 1)) ∧
    ((teamPort (portNaks 0 [sent 8 91]) 100).b.portUp 0 = true ∧ ((teamPort (portNaks 0 [sent 8 91]) 100).b.port 0).replay = [sent 8 91] ∧ (sent 8 91).cycle + 2 * (teamPort (portNaks 0 [sent 8 91]) 100).b.cb.l + 1 ≤ (teamPort (portNaks 0 [sent 8 91]) 100).b.cb.linkCycle) ∧
    ((teamPort (portNaks 0 [sent 8 92]) 100).b.portUp 0 = true ∧ ((teamPort (portNaks 0 [sent 8 92]) 100).b.port 0).replay = [sent 8 92] ∧ (teamPort (portNaks 0 [sent 8 92]) 100).b.cb.linkCycle < (sent 8 92).cycle + 2 * (teamPort (portNaks 0 [sent 8 92]) 100).b.cb.l + 1) ∧
    ((teamPort (portValid 36) 100).b.cb.lockstep = true ∧ (teamPort (portValid 36) 100).b.portUp 0 = true ∧ ((teamPort (portValid 36) 100).b.port 0).lastValid + 64 ≤ (teamPort (portValid 36) 100).b.cb.linkCycle) ∧
    ((teamPort (portValid 37) 100).b.cb.lockstep = true ∧ (teamPort (portValid 37) 100).b.portUp 0 = true ∧ (teamPort (portValid 37) 100).b.cb.linkCycle < ((teamPort (portValid 37) 100).b.port 0).lastValid + 64) ∧
    (((teamPort portDown 65546).b.port 0).state = PortState.down ∧ ((teamPort portDown 65546).b.port 0).downSince + 65536 ≤ (teamPort portDown 65546).b.cb.linkCycle) ∧
    (((teamPort portDown 65546).b.port 0).state = PortState.down ∧ ((teamPort portDown 65546).b.port 0).downSince + 65536 ≤ (teamPort portDown 65546).b.cb.linkCycle ∧ (teamPort portDown 65546).b.cb.l < 5) ∧
    (((teamPort portDown 65546).b.port 0).state = PortState.down ∧ ((teamPort portDown 65546).b.port 0).downSince + 65536 ≤ (teamPort portDown 65546).b.cb.linkCycle ∧ 4 ≤ (teamPort portDown 65546).b.cb.l ∧ ((teamPort portDown 65546).b.port 0).sendQ = []) ∧
    ((st member).b.clk.mainOn = true ∧ (st member).b.solo = false ∧ ((st member).b.port 6).state = PortState.training ∧ ((train 1 6 4 none).pos, (train 1 6 4 none).port) ≠ partnerOf (st member).b.position 6) ∧
    ((st member).b.clk.mainOn = true ∧ (st member).b.solo = false ∧ ((st member).b.port 6).state = PortState.training ∧ ((train 0 0 64 none).pos, (train 0 0 64 none).port) = partnerOf (st member).b.position 6 ∧ (∀ (m : Nat × Nat), m ∈ (st member).b.cb.teamMods → m.fst ≠ (train 0 0 64 none).pos → m.snd ≠ (train 0 0 64 none).module) ∧ (train 0 0 64 none).latency ≤ 64 ∧ (st member).b.cb.lockstep = false ∧ (train 0 0 64 none).lockstep = none) ∧
    ((st member).b.clk.mainOn = true ∧ (st member).b.solo = false ∧ ((st member).b.port 6).state = PortState.training ∧ ((train 0 0 64 (some (5, 3))).pos, (train 0 0 64 (some (5, 3))).port) = partnerOf (st member).b.position 6 ∧ (∀ (m : Nat × Nat), m ∈ (st member).b.cb.teamMods → m.fst ≠ (train 0 0 64 (some (5, 3))).pos → m.snd ≠ (train 0 0 64 (some (5, 3))).module) ∧ (train 0 0 64 (some (5, 3))).latency ≤ 64 ∧ (st member).b.cb.lockstep = false ∧ (train 0 0 64 (some (5, 3))).lockstep = some (5, 3) ∧ (train 0 0 64 (some (5, 3))).pos = 0 ∧ (st member).b.isLead = false ∧ 3 < 256 ∧ bit 3 0 = true ∧ bit 3 (st member).b.position = true) := by and_intros <;> first | exact Block.wordOk_cycle _ _ (by decide +kernel) | exact Block.wordOk_sealed _ (rawWord _) (by decide +kernel) (by decide +kernel) | decide +kernel | rfl

/-- The word `badCrc` of the witness above fails its CRC. -/
theorem witness_TeamPortStates_crc : (teamPort (portFails 7) 100).b.wordOk badCrc = false := Block.wordOk_crc _ (rawWord 3)

/-- The team of `team` with tenant 3 ON, in its place as lead or as member 1. -/
def teamWith (straps : BitVec 6) (f : Cb → Cb) : State :=
  st { team with tenants := [(3, tenant3)], clk := { team.clk with straps := straps }, cb := f team.cb }
def tenantOff : CommitBody := .order 4 (ord .lead 2 3 [])
def freeSlices : CommitBody := .blocks 5 3 0 0
def forwarded : CommitMsg := ⟨9, 1, 0, tenantOff⟩
def slicesMsg : CommitMsg := ⟨9, 1, 100, freeSlices⟩
def leadOrder : CommitMsg := ⟨9, 0, 200, .order 4 (ord .lead 2 4 [])⟩
def mine (body : CommitBody) : Commit := ⟨⟨7, 0, 120, body⟩, true, false, false⟩
def theirs (applied : Bool) : Commit := ⟨slicesMsg, false, applied, false⟩
/-- A commit of the lead, and this member's own order that it carries. -/
def ofLead : Commit := ⟨⟨8, 0, 120, tenantOff⟩, false, false, false⟩
def waitsLead : Commit := ⟨⟨7, 1, 0, tenantOff⟩, true, false, false⟩
def deciding (body : CommitBody) : State := teamWith 0 fun c => { c with commits := [mine body] }
def holdsTheirs : State := teamWith 0 fun c => { c with commits := [theirs false] }
def holdsLead : State := teamWith 1 fun c => { c with commits := [waitsLead, ofLead] }
def slice0 : Slice := ⟨3, 0, 64, [], 0, [], false⟩
def applying : State :=
  let s := teamWith 0 fun c => { c with commits := [theirs true] }
  st { s.b with store := { s.b.store with slices := [(131072 + 5, slice0), (131072 + 6, slice0)] } }
def joiningTeam : State := st { team with clk := { team.clk with stage := .teamJoin } }
def noPath1 : State := teamWith 0 fun c => { c with linkCycle := 4096, noPath := [(1, 0)] }
def noLead : State := teamWith 1 fun c => { c with linkCycle := 4096, noPath := [(0, 0)] }
def losing (colls : List Coll) : State := teamWith 0 fun c => { c with lostPending := [(1, 100)], colls := colls }

/-- A descriptor of operation `op`, MEMBERS 0b11, CID 7, 64 bytes, with PEER and ROP. -/
def collDesc (op peer rop : Nat) : List Byte := fields 64 [(0, 4, op + rop * 2 ^ 12 + peer * 2 ^ 16 + 3 * 2 ^ 24), (4, 2, 7), (8, 4, 64)]
def part0 : List Byte := (List.replicate 16 (le 4 0x3F800000)).flatten
def part1 : List Byte := (List.replicate 16 (le 4 0x40000000)).flatten
def collOf (op peer rop : Nat) (send : Option (Nat × Nat)) (recv : Option (Nat × Nat × Nat)) : Coll :=
  ⟨7, 3, collDesc op peer rop, send, recv, 100, 100, [(partKey 0 0, part0), (partKey 1 0, part1)], []⟩
def tagSend : TagSt := ⟨true, .send, 0x2000, 0, 0, 0, false, false, 7, 0⟩
def tagRecv : TagSt := ⟨true, .recv, 0x3000, 0, 0, 0, false, false, 7, 0⟩
/-- Coach 2 with a SEND under tag 4 and a RECV under tag 5. -/
def exchanging (x : Coll) : State :=
  st { team with
    coaches := [(2, { runner with tags := [(4, tagSend), (5, tagRecv)] })], cb := { team.cb with colls := [x] } }
def bothTags (op peer : Nat) : Coll := collOf op peer 0 (some (2, 4)) (some (2, 5, 0x1000))
def sendOnly (op peer : Nat) : Coll := collOf op peer 0 (some (2, 4)) none
def recvOnly (op peer : Nat) : Coll := collOf op peer 0 none (some (2, 5, 0x1000))
def losingSend : State :=
  st { team with
    coaches := [(2, { runner with tags := [(4, tagSend)] })]
    cb := { team.cb with lostPending := [(1, 100)], colls := [sendOnly 1 0] } }
def early (x : Coll) : Coll := { x with sendCycle := 101, recvCycle := 101 }

/-- States and operands that meet the hypotheses of `Obligations.TeamCommitsAndLoss`, clause by clause. -/
theorem witness_TeamCommitsAndLoss :
    ((teamWith (0 : BitVec 6) id).b.inTeam = true ∧ (teamWith (0 : BitVec 6) id).b.others.contains forwarded.coordinator = true ∧ forwarded.body = CommitBody.order 4 (ord Issuer.lead 2 3 []) ∧ (teamWith (0 : BitVec 6) id).b.position = 0) ∧
    ((teamWith (0 : BitVec 6) id).b.inTeam = true ∧ (teamWith (0 : BitVec 6) id).b.others.contains slicesMsg.coordinator = true ∧ slicesMsg.body = freeSlices ∧ (teamWith (0 : BitVec 6) id).b.commitCheck slicesMsg = Codes.ok) ∧
    ((teamWith (1 : BitVec 6) id).b.inTeam = true ∧ (teamWith (1 : BitVec 6) id).b.others.contains leadOrder.coordinator = true ∧ (teamWith (1 : BitVec 6) id).b.position ≠ 0 ∧ (teamWith (1 : BitVec 6) id).b.commitCheck leadOrder ≠ Codes.ok) ∧
    (mine freeSlices ∈ (deciding freeSlices).b.cb.commits ∧ (mine freeSlices).msg.coordinator = (deciding freeSlices).b.position ∧ (mine freeSlices).applied = false ∧ 0 < (mine freeSlices).msg.applyCycle ∧ (deciding freeSlices).b.commitCheck (mine freeSlices).msg = Codes.ok ∧ (∀ (x : Commit), x ∈ (deciding freeSlices).b.cb.commits → x.msg.coordinator = (deciding freeSlices).b.position → x.msg.id = (mine freeSlices).msg.id → x = mine freeSlices) ∧ (∀ (p : Nat), p ∈ (deciding freeSlices).b.others → List.lookup p [(1, Codes.ok)] = some Codes.ok)) ∧
    (mine tenantOff ∈ (deciding tenantOff).b.cb.commits ∧ (mine tenantOff).msg.coordinator = (deciding tenantOff).b.position ∧ (mine tenantOff).applied = false ∧ 0 < (mine tenantOff).msg.applyCycle ∧ (deciding tenantOff).b.commitCheck (mine tenantOff).msg = Codes.ok ∧ (∀ (x : Commit), x ∈ (deciding tenantOff).b.cb.commits → x.msg.coordinator = (deciding tenantOff).b.position → x.msg.id = (mine tenantOff).msg.id → x = mine tenantOff) ∧ 1 ∈ (deciding tenantOff).b.others ∧ (List.lookup 1 [(1, Codes.mtNoSpace)]).getD Codes.teamLost ≠ Codes.ok ∧ (∀ (q : Nat), q ∈ (deciding tenantOff).b.others → q < 1 → List.lookup q [(1, Codes.mtNoSpace)] = some Codes.ok) ∧ (mine tenantOff).msg.body = CommitBody.order 4 (ord Issuer.lead 2 3 []) ∧ (mine tenantOff).own = true ∧ (mine tenantOff).silent = false) ∧
    (mine tenantOff ∈ (deciding tenantOff).b.cb.commits ∧ (mine tenantOff).msg.coordinator = (deciding tenantOff).b.position ∧ (mine tenantOff).applied = false ∧ 0 < (mine tenantOff).msg.applyCycle ∧ (deciding tenantOff).b.commitCheck (mine tenantOff).msg = Codes.ok ∧ (∀ (x : Commit), x ∈ (deciding tenantOff).b.cb.commits → x.msg.coordinator = (deciding tenantOff).b.position → x.msg.id = (mine tenantOff).msg.id → x = mine tenantOff) ∧ 1 ∈ (deciding tenantOff).b.others ∧ (List.lookup 1 []).getD Codes.teamLost ≠ Codes.ok ∧ (∀ (q : Nat), q ∈ (deciding tenantOff).b.others → q < 1 → List.lookup q [] = some Codes.ok) ∧ (mine tenantOff).msg.body = CommitBody.order 4 (ord Issuer.lead 2 3 []) ∧ (mine tenantOff).own = true ∧ (mine tenantOff).silent = false) ∧
    (1 ≠ holdsTheirs.b.position) ∧
    (1 ≠ holdsTheirs.b.position ∧ (∀ (c : Commit), c ∈ holdsTheirs.b.cb.commits → c.own = false)) ∧
    (holdsLead.b.cb.commits = [waitsLead, ofLead] ∧ ofLead.msg.coordinator ≠ holdsLead.b.position ∧ ofLead.own = false ∧ waitsLead.msg.coordinator = holdsLead.b.position ∧ waitsLead.own = true ∧ waitsLead.silent = false ∧ ofLead.msg.body = CommitBody.order 4 (ord Issuer.lead 2 3 []) ∧ waitsLead.msg.body = ofLead.msg.body) ∧
    ((∀ (c : Commit), c ∈ holdsTheirs.b.cb.commits → c.applied = false ∨ holdsTheirs.b.cb.linkCycle < c.msg.applyCycle)) ∧
    (applying.b.cb.commits = [theirs true] ∧ (theirs true).applied = true ∧ (theirs true).msg.applyCycle ≤ applying.b.cb.linkCycle ∧ (theirs true).msg.body = CommitBody.blocks 5 3 0 0 ∧ (theirs true).msg.coordinator ≠ applying.b.position) ∧
    (joiningTeam.b.clk.mainOn = true ∧ joiningTeam.b.cb.lockstep = true ∧ joiningTeam.b.cb.present = joiningTeam.b.cb.expected ∧ joiningTeam.b.clk.stage = Stage.teamJoin ∧ joiningTeam.b.ctxs = [] ∧ joiningTeam.b.store.slices = []) ∧
    ((teamWith (0 : BitVec 6) id).b.inTeam = true ∧ (teamWith (0 : BitVec 6) id).b.isLead = true ∧ 1 ∈ (teamWith (0 : BitVec 6) id).b.others ∧ (∀ (x : Nat × Nat), x ∈ (teamWith (0 : BitVec 6) id).b.cb.lostPending → x.fst ≠ 1)) ∧
    (noPath1.b.inTeam = true ∧ noPath1.b.isLead = true ∧ 1 ∈ noPath1.b.others ∧ (∀ (x : Nat × Nat), x ∈ noPath1.b.cb.lostPending → x.fst ≠ 1) ∧ tabFind? 1 noPath1.b.cb.noPath = some 0 ∧ 0 + BitVec.toNat noPath1.b.cb.lostWait ≤ noPath1.b.cb.linkCycle) ∧
    ((teamWith (0 : BitVec 6) id).b.inTeam = true ∧ (teamWith (0 : BitVec 6) id).b.isLead = true ∧ 1 ∈ (teamWith (0 : BitVec 6) id).b.others ∧ (∀ (x : Nat × Nat), x ∈ (teamWith (0 : BitVec 6) id).b.cb.lostPending → x.fst ≠ 1) ∧ tabFind? 1 (teamWith (0 : BitVec 6) id).b.cb.noPath = none ∧ 2 ≤ 2) ∧
    ((teamWith (0 : BitVec 6) id).b.inTeam = true ∧ (teamWith (0 : BitVec 6) id).b.isLead = true ∧ 1 ∈ (teamWith (0 : BitVec 6) id).b.others ∧ (∀ (x : Nat × Nat), x ∈ (teamWith (0 : BitVec 6) id).b.cb.lostPending → x.fst ≠ 1) ∧ tabFind? 1 (teamWith (0 : BitVec 6) id).b.cb.noPath = none ∧ 1 < 2) ∧
    (noLead.b.inTeam = true ∧ noLead.b.isLead = false ∧ 0 ∈ noLead.b.others ∧ noLead.b.teamQuiet ∧ tabFind? 0 noLead.b.cb.noPath = some 0 ∧ 0 + BitVec.toNat noLead.b.cb.lostWait ≤ noLead.b.cb.linkCycle ∧ noLead.b.clk.stage = Stage.ready) ∧
    ((teamWith (0 : BitVec 6) id).b.inTeam = true ∧ 1 ∈ (teamWith (0 : BitVec 6) id).b.others ∧ (∀ (x : Nat × Nat), x ∈ (teamWith (0 : BitVec 6) id).b.cb.lostPending → x.fst ≠ 1)) ∧
    (1 < 8 ∧ (losing []).b.cb.lostPending = [(1, 100)] ∧ 100 ≤ (losing []).b.cb.linkCycle ∧ bit (BitVec.toNat (losing []).b.cb.present) 1 = true ∧ (losing []).b.teamQuiet) ∧
    (1 < 8 ∧ losingSend.b.cb.lostPending = [(1, 100)] ∧ 100 ≤ losingSend.b.cb.linkCycle ∧ bit (BitVec.toNat losingSend.b.cb.present) 1 = true ∧ losingSend.b.ctxs = [] ∧ losingSend.b.cb.commits = [] ∧ losingSend.b.store.slices = [] ∧ losingSend.b.ske.works = [] ∧ (∀ (u : Nat), u < 4 → (losingSend.b.gtuQ u).wait = none) ∧ losingSend.b.cb.colls = [sendOnly 1 0] ∧ bit (sendOnly 1 0).members 1 = true ∧ (sendOnly 1 0).send = some (2, 4) ∧ (sendOnly 1 0).recv = none ∧ ((losingSend.b.coach 2).tag 4).collective = true) := by delta Block.teamQuiet; and_intros <;> decide +kernel

/-- States and operands that meet the hypotheses of `Obligations.CollectivesComplete`, clause by clause. -/
theorem witness_CollectivesComplete :
    (1 ≤ 1 ∧ 1 ≤ 5 ∧ (exchanging (bothTags 1 0)).b.coll? 7 3 = some (bothTags 1 0) ∧ (bothTags 1 0).desc ≠ [] ∧ descOp (bothTags 1 0).desc = 1 ∧ (bothTags 1 0).mismatch = false ∧ (∀ (p : Nat), p ∈ (bothTags 1 0).needs ((fun s => s.b.clk.straps.toNat % 8) (exchanging (bothTags 1 0))) → ((bothTags 1 0).contribOf p).isSome = true) ∧ (bothTags 1 0).recv = some (2, 5, 4096) ∧ (1 ≤ 3 → (bothTags 1 0).send.isSome = true) ∧ (((exchanging (bothTags 1 0)).b.coach 2).tag 5).collective = true ∧ (((exchanging (bothTags 1 0)).b.coach 2).tag 5).desc + 128 ≤ sramEnd ∧ (4096 + ((bothTags 1 0).output ((fun s => s.b.clk.straps.toNat % 8) (exchanging (bothTags 1 0)))).length ≤ sramEnd) ∧ ((((exchanging (bothTags 1 0)).b.coach 2).tag 5).desc + 128 ≤ 4096 ∨ 4096 + ((bothTags 1 0).output ((fun s => s.b.clk.straps.toNat % 8) (exchanging (bothTags 1 0)))).length ≤ (((exchanging (bothTags 1 0)).b.coach 2).tag 5).desc + 64) ∧ ((bothTags 1 0).send = some (2, 4) ∧ ((((exchanging (bothTags 1 0)).b.coach 2).tag 4).collective = true ∧ (2, 4) ≠ (2, 5) ∧ (((exchanging (bothTags 1 0)).b.coach 2).tag 4).desc + 128 ≤ sramEnd ∧ (2 ≠ 2 ∨ (((exchanging (bothTags 1 0)).b.coach 2).tag 4).desc + 128 ≤ 4096 ∨ 4096 + ((bothTags 1 0).output ((fun s => s.b.clk.straps.toNat % 8) (exchanging (bothTags 1 0)))).length ≤ (((exchanging (bothTags 1 0)).b.coach 2).tag 4).desc + 64)))) ∧
    (1 ≤ 2 ∧ 2 ≤ 5 ∧ (exchanging (bothTags 2 0)).b.coll? 7 3 = some (bothTags 2 0) ∧ (bothTags 2 0).desc ≠ [] ∧ descOp (bothTags 2 0).desc = 2 ∧ (bothTags 2 0).mismatch = false ∧ (∀ (p : Nat), p ∈ (bothTags 2 0).needs ((fun s => s.b.clk.straps.toNat % 8) (exchanging (bothTags 2 0))) → ((bothTags 2 0).contribOf p).isSome = true) ∧ (bothTags 2 0).recv = some (2, 5, 4096) ∧ (2 ≤ 3 → (bothTags 2 0).send.isSome = true) ∧ (((exchanging (bothTags 2 0)).b.coach 2).tag 5).collective = true ∧ (((exchanging (bothTags 2 0)).b.coach 2).tag 5).desc + 128 ≤ sramEnd ∧ (4096 + ((bothTags 2 0).output ((fun s => s.b.clk.straps.toNat % 8) (exchanging (bothTags 2 0)))).length ≤ sramEnd) ∧ ((((exchanging (bothTags 2 0)).b.coach 2).tag 5).desc + 128 ≤ 4096 ∨ 4096 + ((bothTags 2 0).output ((fun s => s.b.clk.straps.toNat % 8) (exchanging (bothTags 2 0)))).length ≤ (((exchanging (bothTags 2 0)).b.coach 2).tag 5).desc + 64) ∧ ((bothTags 2 0).send = some (2, 4) ∧ ((((exchanging (bothTags 2 0)).b.coach 2).tag 4).collective = true ∧ (2, 4) ≠ (2, 5) ∧ (((exchanging (bothTags 2 0)).b.coach 2).tag 4).desc + 128 ≤ sramEnd ∧ (2 ≠ 2 ∨ (((exchanging (bothTags 2 0)).b.coach 2).tag 4).desc + 128 ≤ 4096 ∨ 4096 + ((bothTags 2 0).output ((fun s => s.b.clk.straps.toNat % 8) (exchanging (bothTags 2 0)))).length ≤ (((exchanging (bothTags 2 0)).b.coach 2).tag 4).desc + 64)))) ∧
    (1 ≤ 3 ∧ 3 ≤ 5 ∧ (exchanging (bothTags 3 0)).b.coll? 7 3 = some (bothTags 3 0) ∧ (bothTags 3 0).desc ≠ [] ∧ descOp (bothTags 3 0).desc = 3 ∧ (bothTags 3 0).mismatch = false ∧ (∀ (p : Nat), p ∈ (bothTags 3 0).needs ((fun s => s.b.clk.straps.toNat % 8) (exchanging (bothTags 3 0))) → ((bothTags 3 0).contribOf p).isSome = true) ∧ (bothTags 3 0).recv = some (2, 5, 4096) ∧ (3 ≤ 3 → (bothTags 3 0).send.isSome = true) ∧ (((exchanging (bothTags 3 0)).b.coach 2).tag 5).collective = true ∧ (((exchanging (bothTags 3 0)).b.coach 2).tag 5).desc + 128 ≤ sramEnd ∧ (4096 + ((bothTags 3 0).output ((fun s => s.b.clk.straps.toNat % 8) (exchanging (bothTags 3 0)))).length ≤ sramEnd) ∧ ((((exchanging (bothTags 3 0)).b.coach 2).tag 5).desc + 128 ≤ 4096 ∨ 4096 + ((bothTags 3 0).output ((fun s => s.b.clk.straps.toNat % 8) (exchanging (bothTags 3 0)))).length ≤ (((exchanging (bothTags 3 0)).b.coach 2).tag 5).desc + 64) ∧ ((bothTags 3 0).send = some (2, 4) ∧ ((((exchanging (bothTags 3 0)).b.coach 2).tag 4).collective = true ∧ (2, 4) ≠ (2, 5) ∧ (((exchanging (bothTags 3 0)).b.coach 2).tag 4).desc + 128 ≤ sramEnd ∧ (2 ≠ 2 ∨ (((exchanging (bothTags 3 0)).b.coach 2).tag 4).desc + 128 ≤ 4096 ∨ 4096 + ((bothTags 3 0).output ((fun s => s.b.clk.straps.toNat % 8) (exchanging (bothTags 3 0)))).length ≤ (((exchanging (bothTags 3 0)).b.coach 2).tag 4).desc + 64)))) ∧
    (1 ≤ 4 ∧ 4 ≤ 5 ∧ (exchanging (recvOnly 4 1)).b.coll? 7 3 = some (recvOnly 4 1) ∧ (recvOnly 4 1).desc ≠ [] ∧ descOp (recvOnly 4 1).desc = 4 ∧ (recvOnly 4 1).mismatch = false ∧ (∀ (p : Nat), p ∈ (recvOnly 4 1).needs ((fun s => s.b.clk.straps.toNat % 8) (exchanging (recvOnly 4 1))) → ((recvOnly 4 1).contribOf p).isSome = true) ∧ (recvOnly 4 1).recv = some (2, 5, 4096) ∧ (4 ≤ 3 → (recvOnly 4 1).send.isSome = true) ∧ (((exchanging (recvOnly 4 1)).b.coach 2).tag 5).collective = true ∧ (((exchanging (recvOnly 4 1)).b.coach 2).tag 5).desc + 128 ≤ sramEnd ∧ (4096 + ((recvOnly 4 1).output ((fun s => s.b.clk.straps.toNat % 8) (exchanging (recvOnly 4 1)))).length ≤ sramEnd) ∧ ((((exchanging (recvOnly 4 1)).b.coach 2).tag 5).desc + 128 ≤ 4096 ∨ 4096 + ((recvOnly 4 1).output ((fun s => s.b.clk.straps.toNat % 8) (exchanging (recvOnly 4 1)))).length ≤ (((exchanging (recvOnly 4 1)).b.coach 2).tag 5).desc + 64) ∧ (recvOnly 4 1).send = none) ∧
    (1 ≤ 5 ∧ 5 ≤ 5 ∧ (exchanging (recvOnly 5 0)).b.coll? 7 3 = some (recvOnly 5 0) ∧ (recvOnly 5 0).desc ≠ [] ∧ descOp (recvOnly 5 0).desc = 5 ∧ (recvOnly 5 0).mismatch = false ∧ (∀ (p : Nat), p ∈ (recvOnly 5 0).needs ((fun s => s.b.clk.straps.toNat % 8) (exchanging (recvOnly 5 0))) → ((recvOnly 5 0).contribOf p).isSome = true) ∧ (recvOnly 5 0).recv = some (2, 5, 4096) ∧ (5 ≤ 3 → (recvOnly 5 0).send.isSome = true) ∧ (((exchanging (recvOnly 5 0)).b.coach 2).tag 5).collective = true ∧ (((exchanging (recvOnly 5 0)).b.coach 2).tag 5).desc + 128 ≤ sramEnd ∧ (4096 + ((recvOnly 5 0).output ((fun s => s.b.clk.straps.toNat % 8) (exchanging (recvOnly 5 0)))).length ≤ sramEnd) ∧ ((((exchanging (recvOnly 5 0)).b.coach 2).tag 5).desc + 128 ≤ 4096 ∨ 4096 + ((recvOnly 5 0).output ((fun s => s.b.clk.straps.toNat % 8) (exchanging (recvOnly 5 0)))).length ≤ (((exchanging (recvOnly 5 0)).b.coach 2).tag 5).desc + 64) ∧ (recvOnly 5 0).send = none) ∧
    (1 ≤ 4 ∧ 4 ≤ 5 ∧ (exchanging (sendOnly 4 0)).b.coll? 7 3 = some (sendOnly 4 0) ∧ (sendOnly 4 0).desc ≠ [] ∧ descOp (sendOnly 4 0).desc = 4 ∧ (sendOnly 4 0).mismatch = false ∧ (∀ (p : Nat), p ∈ (sendOnly 4 0).needs ((fun s => s.b.clk.straps.toNat % 8) (exchanging (sendOnly 4 0))) → ((sendOnly 4 0).contribOf p).isSome = true) ∧ 4 ≤ 4 ∧ (sendOnly 4 0).recv = none ∧ (sendOnly 4 0).send = some (2, 4) ∧ (((exchanging (sendOnly 4 0)).b.coach 2).tag 4).collective = true) ∧
    (1 ≤ 5 ∧ 5 ≤ 5 ∧ (exchanging (sendOnly 5 1)).b.coll? 7 3 = some (sendOnly 5 1) ∧ (sendOnly 5 1).desc ≠ [] ∧ descOp (sendOnly 5 1).desc = 5 ∧ (sendOnly 5 1).mismatch = false ∧ (∀ (p : Nat), p ∈ (sendOnly 5 1).needs ((fun s => s.b.clk.straps.toNat % 8) (exchanging (sendOnly 5 1))) → ((sendOnly 5 1).contribOf p).isSome = true) ∧ 4 ≤ 5 ∧ (sendOnly 5 1).recv = none ∧ (sendOnly 5 1).send = some (2, 4) ∧ (((exchanging (sendOnly 5 1)).b.coach 2).tag 4).collective = true) ∧
    (positions (descMembers (collOf 1 0 0 none none).desc) = [0, 1] ∧ (collOf 1 0 0 none none).contribOf 0 = some part0 ∧ (collOf 1 0 0 none none).contribOf 1 = some part1 ∧ descDtype (collOf 1 0 0 none none).desc = 0 ∧ descOp (collOf 1 0 0 none none).desc = 1 ∧ descRop (collOf 1 0 0 none none).desc = 0) ∧
    (positions (descMembers (collOf 1 0 1 none none).desc) = [0, 1] ∧ (collOf 1 0 1 none none).contribOf 0 = some part0 ∧ (collOf 1 0 1 none none).contribOf 1 = some part1 ∧ descDtype (collOf 1 0 1 none none).desc = 0 ∧ descOp (collOf 1 0 1 none none).desc = 1 ∧ descRop (collOf 1 0 1 none none).desc = 1) ∧
    (positions (descMembers (collOf 3 0 0 none none).desc) = [0, 1] ∧ (collOf 3 0 0 none none).contribOf 0 = some part0 ∧ (collOf 3 0 0 none none).contribOf 1 = some part1 ∧ descDtype (collOf 3 0 0 none none).desc = 0 ∧ descOp (collOf 3 0 0 none none).desc = 3) ∧
    (positions (descMembers (collOf 4 0 0 none none).desc) = [0, 1] ∧ (collOf 4 0 0 none none).contribOf 0 = some part0 ∧ (collOf 4 0 0 none none).contribOf 1 = some part1 ∧ descDtype (collOf 4 0 0 none none).desc = 0 ∧ descOp (collOf 4 0 0 none none).desc = 4 ∧ descPeer (collOf 4 0 0 none none).desc = 0) ∧
    (positions (descMembers (collOf 5 0 0 none none).desc) = [0, 1] ∧ (collOf 5 0 0 none none).contribOf 0 = some part0 ∧ (collOf 5 0 0 none none).contribOf 1 = some part1 ∧ descDtype (collOf 5 0 0 none none).desc = 0 ∧ descOp (collOf 5 0 0 none none).desc = 5 ∧ descPeer (collOf 5 0 0 none none).desc = 0 ∧ 0 ≠ 1) ∧
    (bothTags 1 0 ∈ (exchanging (bothTags 1 0)).b.cb.colls ∧ (((exchanging (bothTags 1 0)).b.coach 2).tag 4).collective = true ∧ (exchanging (bothTags 1 0)).b.cb.colls = [bothTags 1 0] ∧ (bothTags 1 0).send = some (2, 4) ∧ (bothTags 1 0).sendCycle ≤ (exchanging (bothTags 1 0)).b.cb.linkCycle) ∧
    (bothTags 1 0 ∈ (exchanging (bothTags 1 0)).b.cb.colls ∧ (((exchanging (bothTags 1 0)).b.coach 2).tag 5).collective = true ∧ (exchanging (bothTags 1 0)).b.cb.colls = [bothTags 1 0] ∧ (bothTags 1 0).recv = some (2, 5, 4096) ∧ (bothTags 1 0).send ≠ some (2, 5) ∧ (bothTags 1 0).recvCycle ≤ (exchanging (bothTags 1 0)).b.cb.linkCycle) ∧
    (early (bothTags 1 0) ∈ (exchanging (early (bothTags 1 0))).b.cb.colls ∧ (((exchanging (early (bothTags 1 0))).b.coach 2).tag 4).collective = true ∧ (exchanging (early (bothTags 1 0))).b.cb.colls = [early (bothTags 1 0)] ∧ (exchanging (early (bothTags 1 0))).b.cb.linkCycle < (early (bothTags 1 0)).sendCycle ∧ (exchanging (early (bothTags 1 0))).b.cb.linkCycle < (early (bothTags 1 0)).recvCycle) := by and_intros <;> decide +kernel

/-- Module 5 of a domain: ports 0 and 1 enabled, module 9 its lead, PSNs 20 to 30 toward module 6 unacknowledged. -/
def pair6 : Pair := { Pair.new with txPsn := 30, ackPsn := 20, rxPsn := 40, since := 0 }
def domained : Block :=
  { ready with
    clk := { ready.clk with cclk := 20000000 }
    cb := { ready.cb with domEnable := 3, module := 5, domLead := 9, pairs := [(6, pair6), (9, { Pair.new with rxPsn := 41 })] } }
/-- The same, itself the lead. -/
def domLeads : Block := { domained with cb := { domained.cb with domLead := 5 } }
def frameFrom (kind port m : Nat) (psn ack : W32) : DomFrame :=
  { tagged := false, etype := 0x88B5, fcsOk := true, dest := macAddress domained.cb.oui 5 port, kind := kind, ver := 1, count := 5
    rsvd02 := 0, rsvd04 := 0, rsvd08 := 0, rsvd18 := 0, src := m, dst := 5, psn := psn, ackPsn := ack, msgId := 1, offset := 0, dtid := 0x33 }
/-- A frame of each KIND from module 6 on port 0, the next in order: work, result, report and query. -/
def frame6 : DomFrame := frameFrom 1 0 6 40 30
def result6 : DomFrame := frameFrom 2 0 6 40 30
def report6 : DomFrame := frameFrom 4 0 6 40 30
def query6 : DomFrame := frameFrom 5 0 6 40 30
/-- An answer of module 9, the domain lead. -/
def frame9 : DomFrame := frameFrom 6 0 9 41 0
def badFcs : DomFrame := { frame6 with fcsOk := false }
/-- The right frame, addressed to port 0, that comes in at port 1. -/
def otherPort : DomFrame := frameFrom 1 0 6 40 30
def ack6 (a : W32) : DomFrame := { frameFrom 3 0 6 39 a with count := 0 }
def askedDir (b : Block) : State := st { b with cb := { b.cb with dirBusy := true, dirSince := 100 } }
def entry (state : Nat) : DirEntry := ⟨6, 63, state, 4, 0x33, [0x34]⟩
def holdsEntry : State := st { domLeads with cb := { domLeads.cb with directory := [(6 * 64 + 63, entry 2)] } }
def noWait : State :=
  st { domained with gtu := [(2, Gtu.new)] }
def rowsOf6 : ResultMsg := { result with module := 6 }
def recordsWork : WorkMsg := work (.records 5 [1])
def retried (n cclk : Nat) : State :=
  st { domained with clk := { domained.clk with cclk := cclk }, cb := { domained.cb with pairs := [(6, { pair6 with retries := n })] } }
/-- HUB_DIR_QUERY for shard 63 of module 6. -/
def query63 : W64 := 6 * 0x100000000 + 63
def newerRecords : WorkMsg := { recordsWork with version := 1 }
def rowsUnit3 : ResultMsg := { rowsOf6 with setIdx := 3 }
def twoOwed : GtuWait := ⟨laneCmd 0 0, [(6, [10, 11]), (7, [12])], []⟩
def lateQuery : State := st { domained with clk := { domained.clk with cclk := 98403 }, cb := { domained.cb with dirBusy := true, dirSince := 100 } }
def waits6 : State := st { domained with gtu := [(2, { Gtu.new with wait := some twoOwed })] }

/-- States and operands that meet the hypotheses of `Obligations.DomainFramesAndDirectory`, clause by clause. -/
theorem witness_DomainFramesAndDirectory :
    ((st domained).b.takesFrame 0 1 frame6) ∧
    ((st domained).b.takesFrame 0 1 frame6 ∧ 8 ≠ frame6.src ∧ 8 ≠ (st domained).b.cb.domLead) ∧
    ((st domained).b.domPort 0 = true ∧ (st domained).b.frameOk 0 (ack6 (21 : W32)) = true ∧ (ack6 (21 : W32)).kind = 3 ∧ ((st domained).b.pair (ack6 (21 : W32)).src).deadUntil = 0 ∧ 0 < BitVec.toNat ((ack6 (21 : W32)).ackPsn - ((st domained).b.pair (ack6 (21 : W32)).src).ackPsn) ∧ BitVec.toNat ((ack6 (21 : W32)).ackPsn - ((st domained).b.pair (ack6 (21 : W32)).src).ackPsn) ≤ BitVec.toNat (((st domained).b.pair (ack6 (21 : W32)).src).txPsn - ((st domained).b.pair (ack6 (21 : W32)).src).ackPsn)) ∧
    ((st domained).b.domPort 0 = true ∧ (st domained).b.frameOk 0 (ack6 (30 : W32)) = true ∧ (ack6 (30 : W32)).kind = 3 ∧ ((st domained).b.pair (ack6 (30 : W32)).src).deadUntil = 0 ∧ 0 < BitVec.toNat ((ack6 (30 : W32)).ackPsn - ((st domained).b.pair (ack6 (30 : W32)).src).ackPsn) ∧ BitVec.toNat ((ack6 (30 : W32)).ackPsn - ((st domained).b.pair (ack6 (30 : W32)).src).ackPsn) ≤ BitVec.toNat (((st domained).b.pair (ack6 (30 : W32)).src).txPsn - ((st domained).b.pair (ack6 (30 : W32)).src).ackPsn)) ∧
    ((st domained).b.domPort 0 = true ∧ (st domained).b.frameOk 0 (ack6 (20 : W32)) = true ∧ (ack6 (20 : W32)).kind = 3 ∧ ((st domained).b.pair (ack6 (20 : W32)).src).deadUntil = 0 ∧ (ack6 (20 : W32)).ackPsn = ((st domained).b.pair (ack6 (20 : W32)).src).ackPsn) ∧
    ((st domained).b.domPort 0 = true ∧ (st domained).b.frameOk 0 badFcs = false) ∧
    ((st domained).b.domPort 0 = true ∧ (st domained).b.frameOk 0 frame6 = true) ∧
    ((st domained).b.takesFrame 0 1 frame6 ∧ (work (WorkBody.drop 63)).body = WorkBody.drop 63 ∧ (∀ (x : Nat × WorkRun), x ∈ (st domained).b.ske.works → ¬(x.snd.msg.module = frame6.src ∧ x.snd.msg.ctx = (work (WorkBody.drop 63)).ctx ∧ x.snd.msg.body.shard = some 63))) ∧
    ((st domained).b.takesFrame 0 1 frame6 ∧ newerRecords.body = WorkBody.records 5 [1] ∧ (newerRecords.version ≠ (st domained).b.sec.svn ∨ (st domained).b.clk.stage ≠ Stage.ready)) ∧
    ((st domained).b.takesFrame 0 1 frame6 ∧ recordsWork.body = WorkBody.records 5 [1] ∧ recordsWork.version = (st domained).b.sec.svn ∧ (st domained).b.clk.stage = Stage.ready ∧ (frame6.dtid = (0 : W32) ∨ ∀ (t : Nat × Tenant), t ∈ (st domained).b.tenants → t.snd.state ≠ TenState.on ∨ t.snd.dtid ≠ frame6.dtid)) ∧
    (noWait.b.takesFrame 0 2 result6 ∧ rowsUnit3.gather = true ∧ rowsUnit3.setIdx < 4 ∧ (noWait.b.gtuQ rowsUnit3.setIdx).wait = none) ∧
    (waits6.b.takesFrame 0 2 result6 ∧ rowsOf6.gather = true ∧ rowsOf6.setIdx < 4 ∧ (waits6.b.gtuQ rowsOf6.setIdx).wait = some twoOwed ∧ List.lookup result6.src twoOwed.owed = some [10, 11] ∧ rowsOf6.code = Codes.ok ∧ (∃ o, o ∈ twoOwed.owed ∧ o.fst ≠ result6.src)) ∧
    (((retried 7 12287).b.pair 6).ackPsn ≠ ((retried 7 12287).b.pair 6).txPsn ∧ (retried 7 12287).b.clk.cclk < ((retried 7 12287).b.pair 6).since + (retried 7 12287).b.cb.domRto * 768) ∧
    (((retried 7 12288).b.pair 6).ackPsn ≠ ((retried 7 12288).b.pair 6).txPsn ∧ ((retried 7 12288).b.pair 6).since + (retried 7 12288).b.cb.domRto * 768 ≤ (retried 7 12288).b.clk.cclk ∧ ((retried 7 12288).b.pair 6).retries < 8) ∧
    (((retried 4 12288).b.pair 6).ackPsn ≠ ((retried 4 12288).b.pair 6).txPsn ∧ ((retried 4 12288).b.pair 6).since + (retried 4 12288).b.cb.domRto * 768 ≤ (retried 4 12288).b.clk.cclk ∧ ((retried 4 12288).b.pair 6).retries < 8) ∧
    (((retried 8 12288).b.pair 6).ackPsn ≠ ((retried 8 12288).b.pair 6).txPsn ∧ ((retried 8 12288).b.pair 6).since + (retried 8 12288).b.cb.domRto * 768 ≤ (retried 8 12288).b.clk.cclk ∧ 8 ≤ ((retried 8 12288).b.pair 6).retries ∧ (retried 8 12288).b.ctxs = []) ∧
    ((st domLeads).b.takesFrame 0 4 report6 ∧ (st domLeads).b.cb.domLead = (st domLeads).b.cb.module ∧ report6.src ≠ (st domLeads).b.cb.domLead ∧ (entry 2).state ≠ 0) ∧
    ((st domained).b.takesFrame 0 4 report6 ∧ (st domained).b.cb.domLead ≠ (st domained).b.cb.module) ∧
    ((st domLeads).b.takesFrame 0 5 query6 ∧ (st domLeads).b.cb.domLead = (st domLeads).b.cb.module ∧ query6.src ≠ (st domLeads).b.cb.domLead) ∧
    ((askedDir domained).b.takesFrame 0 6 frame9 ∧ (askedDir domained).b.cb.dirBusy = true ∧ frame9.src = (askedDir domained).b.cb.domLead) ∧
    ((askedDir domained).b.mainUp = true ∧ (askedDir domained).b.clk.resetNow = false ∧ (askedDir domained).b.cb.dirBusy = true) ∧
    (holdsEntry.b.mainUp = true ∧ holdsEntry.b.clk.resetNow = false ∧ holdsEntry.b.cb.dirBusy = false ∧ holdsEntry.b.cb.domLead = holdsEntry.b.cb.module ∧ tabFind? (bits (BitVec.toNat query63) 48 32 * 64 + bits (BitVec.toNat query63) 5 0) holdsEntry.b.cb.directory = some (entry 2)) ∧
    ((st domained).b.mainUp = true ∧ (st domained).b.clk.resetNow = false ∧ (st domained).b.cb.dirBusy = false ∧ (st domained).b.cb.domLead ≠ (st domained).b.cb.module ∧ (st domained).b.cb.domEnable ≠ (0 : BitVec 4)) ∧
    ((st domained).b.mainUp = true ∧ (st domained).b.clk.resetNow = false ∧ BitVec.getLsbD (255 : W64) 0 = true) ∧
    ((st domained).b.mainUp = true ∧ (st domained).b.clk.resetNow = false ∧ BitVec.getLsbD (254 : W64) 0 = false) ∧
    ((st domained).b.mainUp = true ∧ (st domained).b.clk.resetNow = false ∧ (st domained).b.laneOff (8 + 3) = false) ∧
    ((st domained).b.domPort 1 = true ∧ (st domained).b.frameOk 1 otherPort = false) ∧
    ((askedDir domained).b.cb.dirBusy = true ∧ (askedDir domained).b.cb.dirSince + 8 * ((askedDir domained).b.cb.domRto * 768) ≤ (askedDir domained).b.clk.cclk) ∧
    (lateQuery.b.cb.dirBusy = true ∧ lateQuery.b.clk.cclk < lateQuery.b.cb.dirSince + 8 * (lateQuery.b.cb.domRto * 768)) := by delta Block.takesFrame; and_intros <;> decide +kernel

/-- `ready` in a stage of SPDM, or with a debug challenge of level 2, number 7, issued at TICK 100. -/
def spdm (v c a : Bool) : State := st { ready with sec := { ready.sec with spdmVersion := v, spdmCaps := c, spdmAlgs := a } }
def asked (tick : Nat) (ts : Tab Tenant) : State :=
  st { ready with
    sec := { ready.sec with challenge := some (2, 7, 100) }, ost := { ready.ost with tick := tick }, tenants := ts }
def answer7 : DebugResp := ⟨7, 2, true, true⟩
def badSig : DebugResp := ⟨7, 2, false, true⟩
def otherLevel : DebugResp := ⟨7, 1, true, true⟩
/-- HUB_LB_CTRL written by the Ostler in this CCLK, or a loopback on; a scan operation in progress in stage TEST. -/
def lbTaken : State := st { ready with ost := { ready.ost with lbOstlerCclk := some 0 } }
def refusedNow : State := st { ready with ost := { ready.ost with lbRefused := true, lbRefusedNow := true } }
def looped : State := st { ready with ost := { ready.ost with lbCtrl := 0x0D000021 } }
def fenced0D : State := st { ready with rel := { ready.rel with fenced := [⟨13, 0⟩] } }
def jtagging (op : Nat) : State :=
  st { ready with clk := { ready.clk with stage := .test }, ost := { ready.ost with scanBusy := true, scanOp := op, scanLen := 64 } }
def pageActive : State := st { busy with host := { busy.host with pages := [(3, { Page.new with enable := true })] } }

/-- States and operands that meet the hypotheses of `Obligations.AttestationDebugAndTestRegisters`, clause by clause. -/
theorem witness_AttestationDebugAndTestRegisters :
    ((st ready).b.mainUp = true) ∧
    ((spdm true false false).b.mainUp = true ∧ (spdm true false false).b.sec.spdmVersion = true) ∧
    ((spdm false false false).b.mainUp = true ∧ (spdm false false false).b.sec.spdmVersion = false) ∧
    ((spdm true true false).b.mainUp = true ∧ (spdm true true false).b.sec.spdmCaps = true ∧ Nat.testBit 128 7 = true ∧ Nat.testBit 2 1 = true) ∧
    ((spdm true true false).b.mainUp = true ∧ ((spdm true true false).b.sec.spdmCaps = false ∨ Nat.testBit 127 7 = false ∨ Nat.testBit 2 1 = false)) ∧
    ((spdm true true false).b.mainUp = true ∧ ((spdm true true false).b.sec.spdmCaps = false ∨ Nat.testBit 128 7 = false ∨ Nat.testBit 1 1 = false)) ∧
    ((spdm true true true).b.mainUp = true ∧ (spdm true true true).b.sec.spdmAlgs = true) ∧
    ((spdm true true true).b.mainUp = true ∧ (spdm true true true).b.sec.spdmAlgs = true ∧ 1 ≤ 1 ∧ 1 ≤ 4) ∧
    ((spdm true true true).b.mainUp = true ∧ (spdm true true true).b.sec.spdmAlgs = true ∧ 1 ≤ 4 ∧ 4 ≤ 4) ∧
    ((spdm true true true).b.mainUp = true ∧ (spdm true true true).b.sec.spdmAlgs = true ∧ (0 = 0 ∨ 8 < 0) ∧ 0 ≠ 255) ∧
    ((spdm true true true).b.mainUp = true ∧ (spdm true true true).b.sec.spdmAlgs = true ∧ (9 = 0 ∨ 8 < 9) ∧ 9 ≠ 255) ∧
    ((spdm true true true).b.mainUp = true ∧ (spdm true true true).b.sec.spdmAlgs = true ∧ 1 ≠ 0) ∧
    ((spdm true true false).b.mainUp = true ∧ (spdm true true false).b.sec.spdmAlgs = false) ∧
    ((st ready).b.clk.j1Up = true ∧ (1 = 1 ∨ 1 = 2)) ∧
    ((st ready).b.clk.j1Up = true ∧ (2 = 1 ∨ 2 = 2)) ∧
    ((st ready).b.clk.j1Up = true ∧ 3 ≠ 1 ∧ 3 ≠ 2) ∧
    ((st ready).b.clk.j1Up = true ∧ 0 ≠ 1 ∧ 0 ≠ 2) ∧
    ((asked 30000000100 []).b.clk.j1Up = true ∧ (asked 30000000100 []).b.sec.challenge = some (answer7.level, answer7.nonce, 100) ∧ answer7.sigOk = true ∧ answer7.moduleOk = true ∧ (asked 30000000100 []).b.ost.tick ≤ 100 + 30000000000 ∧ (∀ (t : Nat × Tenant), t ∈ (asked 30000000100 []).b.tenants → t.snd.state = TenState.off)) ∧
    ((asked 30000000100 [(3, tenant3)]).b.clk.j1Up = true ∧ (asked 30000000100 [(3, tenant3)]).b.sec.challenge = some (answer7.level, answer7.nonce, 100) ∧ answer7.sigOk = true ∧ answer7.moduleOk = true ∧ (asked 30000000100 [(3, tenant3)]).b.ost.tick ≤ 100 + 30000000000 ∧ (∃ t, t ∈ (asked 30000000100 [(3, tenant3)]).b.tenants ∧ t.snd.state ≠ TenState.off)) ∧
    ((asked 200 []).b.clk.j1Up = true ∧ (asked 200 []).b.sec.challenge = some (2, badSig.nonce, 100) ∧ (badSig.sigOk = false ∨ badSig.level ≠ 2 ∨ 100 + 30000000000 < (asked 200 []).b.ost.tick)) ∧
    ((asked 200 []).b.clk.j1Up = true ∧ (asked 200 []).b.sec.challenge = some (2, otherLevel.nonce, 100) ∧ (otherLevel.sigOk = false ∨ otherLevel.level ≠ 2 ∨ 100 + 30000000000 < (asked 200 []).b.ost.tick)) ∧
    ((asked 30000000101 []).b.clk.j1Up = true ∧ (asked 30000000101 []).b.sec.challenge = some (2, answer7.nonce, 100) ∧ (answer7.sigOk = false ∨ answer7.level ≠ 2 ∨ 100 + 30000000000 < (asked 30000000101 []).b.ost.tick)) ∧
    ((st ready).b.mainUp = true ∧ (st ready).b.clk.resetNow = false ∧ BitVec.getLsbD (1 : W64) 0 = true) ∧
    ((st ready).b.mainUp = true ∧ (st ready).b.clk.resetNow = false ∧ BitVec.getLsbD (2 : W64) 0 = false) ∧
    (lbTaken.b.mainUp = true ∧ lbTaken.b.clk.resetNow = false ∧ lbTaken.b.ost.lbOstlerCclk = some lbTaken.b.clk.cclk) ∧
    ((st ready).b.mainUp = true ∧ (st ready).b.clk.resetNow = false ∧ (st ready).b.ost.lbOstlerCclk ≠ some (st ready).b.clk.cclk ∧ (BitVec.getLsbD (0 : W64) 0 = false ∨ (st ready).b.loopOk (bits (BitVec.toNat (0 : W64)) 31 24) (bits (BitVec.toNat (0 : W64)) 23 8) (bits (BitVec.toNat (0 : W64)) 7 5) = true ∧ bits (BitVec.toNat (0 : W64)) 4 1 ≤ 3)) ∧
    (fenced0D.b.mainUp = true ∧ fenced0D.b.clk.resetNow = false ∧ fenced0D.b.ost.lbOstlerCclk ≠ some fenced0D.b.clk.cclk ∧ (BitVec.getLsbD (218103847 : W64) 0 = false ∨ fenced0D.b.loopOk (bits (BitVec.toNat (218103847 : W64)) 31 24) (bits (BitVec.toNat (218103847 : W64)) 23 8) (bits (BitVec.toNat (218103847 : W64)) 7 5) = true ∧ bits (BitVec.toNat (218103847 : W64)) 4 1 ≤ 3)) ∧
    (fenced0D.b.mainUp = true ∧ fenced0D.b.clk.resetNow = false ∧ fenced0D.b.ost.lbOstlerCclk ≠ some fenced0D.b.clk.cclk ∧ BitVec.getLsbD (218103849 : W64) 0 = true ∧ (fenced0D.b.loopOk (bits (BitVec.toNat (218103849 : W64)) 31 24) (bits (BitVec.toNat (218103849 : W64)) 23 8) (bits (BitVec.toNat (218103849 : W64)) 7 5) = false ∨ 3 < bits (BitVec.toNat (218103849 : W64)) 4 1)) ∧
    ((st ready).b.mainUp = true ∧ (st ready).b.clk.resetNow = false ∧ (st ready).b.ost.lbOstlerCclk ≠ some (st ready).b.clk.cclk ∧ BitVec.getLsbD (218105889 : W64) 0 = true ∧ ((st ready).b.loopOk (bits (BitVec.toNat (218105889 : W64)) 31 24) (bits (BitVec.toNat (218105889 : W64)) 23 8) (bits (BitVec.toNat (218105889 : W64)) 7 5) = false ∨ 3 < bits (BitVec.toNat (218105889 : W64)) 4 1)) ∧
    ((st ready).b.mainUp = true ∧ (st ready).b.clk.resetNow = false ∧ BitVec.getLsbD (65536 : W64) 16 = true ∧ (st ready).b.ost.lbRefusedNow = false) ∧
    (refusedNow.b.mainUp = true ∧ refusedNow.b.clk.resetNow = false ∧ BitVec.getLsbD (65536 : W64) 16 = true ∧ refusedNow.b.ost.lbRefusedNow = true) ∧
    ((st ready).b.mainUp = true ∧ (st ready).b.clk.resetNow = false ∧ BitVec.getLsbD (65535 : W64) 16 = false) ∧
    (BitVec.getLsbD looped.b.ost.lbCtrl 0 = true ∧ 0 < 16) ∧
    (BitVec.getLsbD looped.b.ost.lbCtrl 0 = true ∧ 15 < 16) ∧
    ((jtagging 0).b.testEntry = true ∧ (jtagging 0).b.ost.scanBusy = true ∧ (jtagging 0).b.ost.scanOp = 0) ∧
    ((jtagging 1).b.testEntry = true ∧ (jtagging 1).b.ost.scanBusy = true ∧ (jtagging 1).b.ost.scanOp = 1) ∧
    ((jtagging 2).b.testEntry = true ∧ (jtagging 2).b.ost.scanBusy = true ∧ (jtagging 2).b.ost.scanOp = 2) ∧
    ((jtagging 3).b.testEntry = true ∧ (jtagging 3).b.ost.scanBusy = true ∧ (jtagging 3).b.ost.scanOp = 3) ∧
    ((st busy).b.mainUp = true ∧ (st busy).b.clk.resetNow = false ∧ (st busy).b.pageOn 3 = true ∧ (st busy).b.pageReset 3 = false ∧ ((st busy).b.page 3).active = false) ∧
    ((st busy).b.mainUp = true ∧ (st busy).b.clk.resetNow = false ∧ (st busy).b.pageOn 4096 = true ∧ (st busy).b.pageReset 4096 = false ∧ ((st busy).b.page 4096).active = false) ∧
    (pageActive.b.mainUp = true ∧ pageActive.b.clk.resetNow = false ∧ pageActive.b.pageOn 3 = true ∧ pageActive.b.pageReset 3 = false ∧ (pageActive.b.page 3).active = true) ∧
    ((st busy).b.mainUp = true ∧ (st busy).b.clk.resetNow = false ∧ 50 ≤ BitVec.toNat (50 : W64) % 128 ∧ BitVec.toNat (50 : W64) % 128 ≤ 100) ∧
    ((st busy).b.mainUp = true ∧ (st busy).b.clk.resetNow = false ∧ 50 ≤ BitVec.toNat (100 : W64) % 128 ∧ BitVec.toNat (100 : W64) % 128 ≤ 100) ∧
    ((st busy).b.mainUp = true ∧ (st busy).b.clk.resetNow = false ∧ 20 % 8 ≠ 0 ∧ 8 ≠ 4) := by and_intros <;> decide +kernel

/-- `ready` with values of the errors and power logic, or of the Ostler, changed. -/
def relSt (f : Rel → Rel) : State := st { ready with rel := f ready.rel }
def ostSt (f : Ost → Ost) : State := st { ready with ost := f ready.ost }
def coach511 : State := relSt fun r => { r with fenced := [⟨1, 511⟩] }
def memLimit : State := relSt fun r => { r with memCe := [(8, 0x1000)] }
def memBelow : State := relSt fun r => { r with memCe := [(8, 0xFFF)] }
def hot84 : State := relSt fun r => { r with sensors := [(84, 753)] }
def warm84 : State := relSt fun r => { r with sensors := [(84, 752)] }
def cool84 : State := relSt fun r => { r with sensors := [(84, 704)] }
def slow86 : State := relSt fun r => { r with sensors := [(86, 499)] }
def overV (n : Nat) : State := relSt fun r => { r with overVRun := n }
def flowGone : State := relSt fun r => { r with lowFlowMs := 10000 }
def shut (tick vin : Nat) : State :=
  st { ready with
    clk := { ready.clk with mainOn := false, stage := .held }
    rel := { ready.rel with shutHold := true, shutTick := 100, vin := BitVec.ofNat 16 vin }, ost := { ready.ost with tick := tick } }
def event (severity : Nat) : LogEvent := ⟨5, 0, none, 3, severity, Codes.ok, none, none, 0, 0⟩
def events (severity : Nat) : State := ostSt fun o => { o with events := [event severity] }
def upd (u : UpdState) : State := ostSt fun o => { o with updState := u }
/-- Staging area with an image as given. -/
def stagedWith (i : Image) : State :=
  st { ready with
    flash := { ready.flash with images := [(ready.flash.staging, i)] }, ost := { ready.ost with updState := .verifying } }
def image1 : Image := ⟨true, 0, 0x4000000, false, 0⟩
def image2 : Image := ⟨true, 0, 0x4000001, false, 0⟩
/-- An ORDER record of code 15, tag 7. -/
def orderRec (code : Nat) : List Byte := fields 128 [(0, 1, 2), (8, 8, 7), (0x10, 2, code)]
def downJ1 : State := st { ready with clk := { ready.clk with stage := .held } }
def calUsed (n : Nat) : State := ostSt fun o => { o with tick := 500000, calWindow := 1, calUsed := [(7, n)] }
def mayTest (w : List Nat) (tick : Nat) : State :=
  ostSt fun o => { o with calWithdraw := 1, withdrawn := w, calDeferMs := 3, tick := tick }
/-- A member of a team, the lanes of one cage disabled for want of power. -/
def overPower (cage : Nat) : State :=
  st { ready with clk := { ready.clk with straps := 1 }, ost := { ready.ost with cages := [(cage, ⟨true, 19, true⟩)] } }

/-- States and operands that meet the hypotheses of `Obligations.ErrorsPowerAndOstler`, clause by clause. -/
theorem witness_ErrorsPowerAndOstler :
    ((st ready).b.mainUp = true ∧ (st ready).b.memUnitOf ((st ready).b.physical 1099511627776) = some { kind := 2, index := 0 }) ∧
    ((st ready).b.mainUp = true ∧ (st ready).b.memUnitOf ((st ready).b.physical 2199023255552) = some { kind := 3, index := 0 }) ∧
    ((st ready).b.mainUp = true ∧ coachOf 2143289408 = some 511) ∧
    ((st ready).b.mainUp = true ∧ (st ready).b.memUnitOf ((st ready).b.physical 1099511627775) = none ∧ coachOf 1099511627775 = none) ∧
    (memLimit.b.mainUp = true ∧ memLimit.b.rel.coachCe = []) ∧
    (memBelow.b.mainUp = true ∧ memBelow.b.rel.coachCe = []) ∧
    (coach511.b.mainUp = true ∧ 511 < 512 ∧ coach511.b.testOf { kind := 1, index := 511 } = none ∧ coach511.b.fenced 1 511 = true) ∧
    ((st ready).b.mainUp = true ∧ 511 < 512 ∧ (st ready).b.testOf { kind := 1, index := 511 } = none ∧ (st ready).b.fenced 1 511 = false ∧ ((st ready).b.coach 511).task = none ∧ (∀ (x : Nat × Ctx), x ∈ (st ready).b.ctxs → x.snd.step = none) ∧ (st ready).b.orderPasses 12 { issuer := Issuer.ostler, tag := (0 : W64), kind := 5, target := 2 ^ 48 + 511, ops := le 1 1 ++ List.replicate 95 (0 : Byte) }) ∧
    ((st ready).b.mainUp = true ∧ 0 < 512 ∧ (st ready).b.testOf { kind := 1, index := 0 } = none ∧ (st ready).b.fenced 1 0 = false ∧ ((st ready).b.coach 0).task = none ∧ (∀ (x : Nat × Ctx), x ∈ (st ready).b.ctxs → x.snd.step = none) ∧ (st ready).b.orderPasses 12 { issuer := Issuer.ostler, tag := (0 : W64), kind := 5, target := 2 ^ 48 + 0, ops := le 1 1 ++ List.replicate 95 (0 : Byte) }) ∧
    ((st ready).b.mainUp = true ∧ 65535 < 65536) ∧
    ((st ready).b.mainUp = true ∧ 4444 < 65536 ∧ 0 < 65536 ∧ 3999 < 65536) ∧
    (hot84.b.mainUp = true ∧ (∃ n, n < 87 ∧ hot84.b.rel.throttles n = true)) ∧
    (slow86.b.mainUp = true ∧ (∃ n, n < 87 ∧ slow86.b.rel.throttles n = true)) ∧
    (cool84.b.mainUp = true ∧ (∀ (n : Nat), n < 87 → cool84.b.rel.throttles n = false ∧ cool84.b.rel.coolBy (3 : Int) (500 : Int) n = true)) ∧
    (warm84.b.mainUp = true ∧ (∀ (n : Nat), n < 87 → warm84.b.rel.throttles n = false) ∧ (∃ n, n < 87 ∧ warm84.b.rel.coolBy (3 : Int) (500 : Int) n = false)) ∧
    ((st ready).b.clk.j1Up = true ∧ 86 < 88 ∧ 86 ≠ 87 ∧ (84 ≤ 86 ∨ (st ready).b.clk.mainOn = true)) ∧
    ((st ready).b.clk.j1Up = true ∧ 0 < 88 ∧ 0 ≠ 87 ∧ (84 ≤ 0 ∨ (st ready).b.clk.mainOn = true)) ∧
    ((st ready).b.clk.j1Up = true) ∧
    ((overV 100).b.clk.mainOn = true ∧ (overV 100).b.rel.shutdownDue 240 = true ∧ 240 < 256) ∧
    (flowGone.b.clk.mainOn = true ∧ flowGone.b.rel.shutdownDue 86 = true ∧ 86 < 256) ∧
    ((overV 99).b.clk.mainOn = true ∧ (overV 99).b.rel.shutdownDue 240 = false) ∧
    (((st ready).b.rel.shutHold = false ∨ (st ready).b.ost.tick < (st ready).b.rel.shutTick + 30000000000)) ∧
    (((shut 30000000099 4800).b.rel.shutHold = false ∨ (shut 30000000099 4800).b.ost.tick < (shut 30000000099 4800).b.rel.shutTick + 30000000000)) ∧
    ((shut 30000000100 4800).b.clk.j1Up = true ∧ (shut 30000000100 4800).b.clk.mated = true ∧ (shut 30000000100 4800).b.rel.shutHold = true ∧ (shut 30000000100 4800).b.rel.autoRestart = true ∧ (shut 30000000100 4800).b.rel.shutTick + 30000000000 ≤ (shut 30000000100 4800).b.ost.tick ∧ (∀ (n : Nat), n < 87 → (shut 30000000100 4800).b.rel.coolBy (10 : Int) (600 : Int) n = true) ∧ 4800 ≤ (shut 30000000100 4800).b.rel.vin.toNat ∧ (shut 30000000100 4800).b.rel.vin.toNat ≤ 6000) ∧
    ((shut 30000000100 6000).b.clk.j1Up = true ∧ (shut 30000000100 6000).b.clk.mated = true ∧ (shut 30000000100 6000).b.rel.shutHold = true ∧ (shut 30000000100 6000).b.rel.autoRestart = true ∧ (shut 30000000100 6000).b.rel.shutTick + 30000000000 ≤ (shut 30000000100 6000).b.ost.tick ∧ (∀ (n : Nat), n < 87 → (shut 30000000100 6000).b.rel.coolBy (10 : Int) (600 : Int) n = true) ∧ 4800 ≤ (shut 30000000100 6000).b.rel.vin.toNat ∧ (shut 30000000100 6000).b.rel.vin.toNat ≤ 6000) ∧
    ((events 2).b.ost.events = [event 2] ∧ (events 2).b.flash.log.length < 524288) ∧
    ((events 1).b.ost.events = [event 1] ∧ (events 1).b.flash.log.length < 524288) ∧
    ((st ready).b.mainUp = true ∧ (st ready).b.clk.resetNow = false) ∧
    ((st ready).b.mainUp = true) ∧
    ((st ready).b.clk.j1Up = true ∧ 11 < 12 ∧ 18 ≤ 18 ∧ (st ready).b.laneOff 11 = false) ∧
    ((overPower 3).b.clk.j1Up = true ∧ 3 < 12 ∧ 18 ≤ 18 ∧ (overPower 3).b.laneOff 3 = true ∧ 3 < 8 ∧ (overPower 3).b.solo = false ∧ (overPower 3).b.fenced 13 3 = false ∧ (overPower 3).b.clk.stage = Stage.ready) ∧
    ((st ready).b.clk.j1Up = true ∧ 11 < 12 ∧ 18 < 19 ∧ 8 ≤ 11) ∧
    ((st ready).b.clk.j1Up = true ∧ 0 < 12 ∧ 18 < 19 ∧ 0 < 8) ∧
    ((st ready).b.clk.j1Up = true ∧ (orderRec 1).length = 128 ∧ recordRsvd (orderRec 1) = true ∧ recordOk (orderRec 1) = true ∧ fieldAt (orderRec 1) 0 1 = 2 ∧ (st ready).b.mainUp = true ∧ 1 ≤ fieldAt (orderRec 1) 16 2 ∧ fieldAt (orderRec 1) 16 2 ≤ 15) ∧
    ((st ready).b.clk.j1Up = true ∧ (orderRec 15).length = 128 ∧ recordRsvd (orderRec 15) = true ∧ recordOk (orderRec 15) = true ∧ fieldAt (orderRec 15) 0 1 = 2 ∧ (st ready).b.mainUp = true ∧ 1 ≤ fieldAt (orderRec 15) 16 2 ∧ fieldAt (orderRec 15) 16 2 ≤ 15) ∧
    (downJ1.b.clk.j1Up = true ∧ (orderRec 14).length = 128 ∧ recordRsvd (orderRec 14) = true ∧ recordOk (orderRec 14) = true ∧ fieldAt (orderRec 14) 0 1 = 2 ∧ downJ1.b.mainUp = false ∧ fieldAt (orderRec 14) 16 2 ≠ 15) ∧
    ((upd UpdState.staged).b.mainUp = true ∧ (upd UpdState.staged).b.clk.resetNow = false ∧ ((upd UpdState.staged).b.ost.updState = UpdState.idle ∨ (upd UpdState.staged).b.ost.updState = UpdState.staged)) ∧
    ((upd UpdState.receiving).b.mainUp = true ∧ (upd UpdState.receiving).b.clk.resetNow = false ∧ (upd UpdState.receiving).b.ost.updState ≠ UpdState.idle ∧ (upd UpdState.receiving).b.ost.updState ≠ UpdState.staged) ∧
    ((upd UpdState.staged).b.mainUp = true ∧ (upd UpdState.staged).b.clk.resetNow = false ∧ (upd UpdState.staged).b.ost.updState = UpdState.staged) ∧
    ((upd UpdState.verifying).b.mainUp = true ∧ (upd UpdState.verifying).b.clk.resetNow = false ∧ (upd UpdState.verifying).b.ost.updState ≠ UpdState.staged) ∧
    ((upd UpdState.idle).b.clk.j1Up = true ∧ ((upd UpdState.idle).b.ost.updState = UpdState.idle ∨ (upd UpdState.idle).b.ost.updState = UpdState.staged)) ∧
    ((upd UpdState.activating).b.clk.j1Up = true ∧ (upd UpdState.activating).b.ost.updState ≠ UpdState.idle ∧ (upd UpdState.activating).b.ost.updState ≠ UpdState.staged) ∧
    ((upd UpdState.staged).b.clk.j1Up = true ∧ (upd UpdState.staged).b.ost.updState = UpdState.staged) ∧
    ((upd UpdState.receiving).b.clk.j1Up = true ∧ (upd UpdState.receiving).b.ost.updState = UpdState.receiving) ∧
    ((stagedWith image1).b.clk.j1Up = true ∧ (stagedWith image1).b.ost.updState = UpdState.verifying ∧ (stagedWith image1).b.imageOk (stagedWith image1).b.flash.staging = true) ∧
    ((stagedWith image2).b.clk.j1Up = true ∧ (stagedWith image2).b.ost.updState = UpdState.verifying ∧ (stagedWith image2).b.imageOk (stagedWith image2).b.flash.staging = false) ∧
    ((upd UpdState.idle).b.orderPasses 2 { issuer := Issuer.ostler, tag := (0 : W64), kind := 1, target := 0, ops := List.replicate 96 (0 : Byte) } ∧ (upd UpdState.idle).b.ost.updState ≠ UpdState.staged) ∧
    ((upd UpdState.staged).b.orderPasses 2 { issuer := Issuer.ostler, tag := (0 : W64), kind := 1, target := 0, ops := List.replicate 96 (0 : Byte) } ∧ (upd UpdState.staged).b.ost.updState = UpdState.staged) ∧
    ((st ready).b.mainUp = true ∧ 7 < 8 ∧ (st ready).b.fenced 2 7 = false ∧ 100000 < 100001) ∧
    ((calUsed 90000).b.mainUp = true ∧ 7 < 8 ∧ (calUsed 90000).b.fenced 2 7 = false ∧ 10000 ≤ 100000 ∧ (tabGet 0 7 (if (calUsed 90000).b.ost.calWindow = (calUsed 90000).b.ost.tick / 500000 then (calUsed 90000).b.ost.calUsed else []) + 10000 ≤ 100000)) ∧
    ((calUsed 90000).b.mainUp = true ∧ 7 < 8 ∧ (calUsed 90000).b.fenced 2 7 = false ∧ 10001 ≤ 100000 ∧ (100000 < tabGet 0 7 (if (calUsed 90000).b.ost.calWindow = (calUsed 90000).b.ost.tick / 500000 then (calUsed 90000).b.ost.calUsed else []) + 10001)) ∧
    ((mayTest [] 0).b.mainUp = true ∧ 511 < 512 ∧ (mayTest [] 0).b.fenced 1 511 = false ∧ (¬511 ∈ (mayTest [] 0).b.ost.withdrawn) ∧ (mayTest [] 0).b.testOf { kind := 1, index := 511 } = none ∧ (mayTest [] 0).b.mayWithdraw = true ∧ ((mayTest [] 0).b.coach 511).task = none) ∧
    ((mayTest [3] 1500000).b.mainUp = true ∧ 511 < 512 ∧ (mayTest [3] 1500000).b.fenced 1 511 = false ∧ (¬511 ∈ (mayTest [3] 1500000).b.ost.withdrawn) ∧ (mayTest [3] 1500000).b.testOf { kind := 1, index := 511 } = none ∧ (mayTest [3] 1500000).b.mayWithdraw = false ∧ 0 + (mayTest [3] 1500000).b.ost.calDeferMs * 500000 ≤ (mayTest [3] 1500000).b.ost.tick) ∧
    ((mayTest [3] 1499999).b.mainUp = true ∧ 511 < 512 ∧ (mayTest [3] 1499999).b.fenced 1 511 = false ∧ (¬511 ∈ (mayTest [3] 1499999).b.ost.withdrawn) ∧ (mayTest [3] 1499999).b.testOf { kind := 1, index := 511 } = none ∧ (mayTest [3] 1499999).b.mayWithdraw = false ∧ (mayTest [3] 1499999).b.ost.tick < 0 + (mayTest [3] 1499999).b.ost.calDeferMs * 500000) ∧
    (3 ∈ (mayTest [3] 0).b.ost.withdrawn ∧ (mayTest [3] 0).b.testOf { kind := 1, index := 3 } = none) := by delta Block.orderPasses; and_intros <;> decide +kernel

/-- Counts of correctable errors at the limit and one below it. -/
theorem witness_ErrorsPowerAndOstler_limit :
    (∃ p ∈ memLimit.b.rel.memCe, memLimit.b.rel.ceLimitMem ≤ p.2) ∧
    (∀ p ∈ memBelow.b.rel.memCe, p.2 < memBelow.b.rel.ceLimitMem) := by decide +kernel

/-! One step each, with the result worked out from the spec by hand. -/

/-- The block after one step with command `c` alone in the queue. -/
def stepped (c : Instr) (s : State) : Block := (next { s with pending := [c] }).b

/-- R195: S1 = 0xFFFFFFFF, S2 = 33, S3 = 5; sums and differences wrap at 32 bits. -/
theorem test_add_wraps : tabFind? 6 ((stepped (.add slot2 6 1 3) running2).coach 2).s = some 4 := by decide +kernel
theorem test_sub_operand_order : tabFind? 6 ((stepped (.sub slot2 6 3 2) running2).coach 2).s = some 0xFFFFFFE4 := by decide +kernel
theorem test_mul_low_word : tabFind? 6 ((stepped (.mul slot2 6 1 1) running2).coach 2).s = some 1 := by decide +kernel
theorem test_add_not_executed_under_predicate :
    tabFind? 6 ((stepped (.add slotOff 6 1 3) running2).coach 2).s = none := by decide +kernel

/-- R628, R632: min(4,000 W, 90 A at 44.44 V = 3,999 W) is exceeded by 4,000 W and not by 3,999 W. -/
theorem test_power_above_limit : (stepped (.powerInterval 4444 0 4000) (st ready)).rel.sPower = 2 := by decide +kernel
theorem test_power_at_limit : (stepped (.powerInterval 4444 0 3999) (st ready)).rel.sPower = 0 := by decide +kernel

/-- R630: sensor 84 throttles above 47 °C, in sixteenths. -/
theorem test_thermal_above : (stepped .thermalInterval hot84).rel.sThermal = 2 := by decide +kernel
theorem test_thermal_at : (stepped .thermalInterval warm84).rel.sThermal = 0 := by decide +kernel

/-- R665: REFUSED is cleared by writing 1 to bit 16, and by nothing else. -/
theorem test_lb_refused_w1c :
    (stepped (.hubLbStatus 0x10000) (ostSt fun o => { o with lbRefused := true })).ost.lbRefused = false := by decide +kernel
theorem test_lb_refused_stays :
    (stepped (.hubLbStatus 0xFFFF) (ostSt fun o => { o with lbRefused := true })).ost.lbRefused = true := by decide +kernel

/-! Words of R189, R195, R197, R204 and R206, from the worked example of one loop iteration (spec/07_coach_isa.md). -/

theorem test_decode_li : decodeSlot 0 slot2 0x24070064 = some (.li slot2 7 100) := by decide +kernel
theorem test_decode_vld : decodeSlot 1 slot2 0x04025000 = some (.vld slot2 1 2 true 0) := by decide +kernel
theorem test_decode_vfma : decodeSlot 2 slot2 0x10001100 = some (.vfma slot2 0 1 2) := by decide +kernel
theorem test_decode_vred : decodeSlot 2 slot2 0x38080000 = some (.vred slot2 4 0 0 0 false) := by decide +kernel
theorem test_decode_vext : decodeSlot 1 slot2 0x1C062000 = some (.vext slot2 6 4 0) := by decide +kernel
theorem test_decode_cmp : decodeSlot 0 slot2 0x2C011873 = some (.cmp slot2 1 6 7 3) := by decide +kernel
theorem test_decode_br : decodeSlot 0 { slot2 with ps := 1 } 0x4480FFFA = some (.br { slot2 with ps := 1 } (-6)) := by decide +kernel
/-- MZERO of ACC0 and ACC7 (R206), written out from the table: OP 0x03, the mask in bits 21..14. -/
theorem test_decode_mzero : decodeSlot 3 slot2 0x0C204000 = some (.mzero slot2 0x81) := by decide +kernel

/-- A kernel image (R186): KERNEL_ID 5, one bundle of TEND S0, TILE_CCLK 77; one whose header counts no bundles is bad. -/
def kernelBytes : List Byte := fields 80 [(0, 2, 5), (4, 2, 1), (8, 4, 77), (64, 4, 0x54000000)]
theorem test_kernel_image : (loadKernel kernelBytes 3 7 5).toOption.map (fun k => (k.tileCclk, k.bundles)) = some (77, 1) := by decide +kernel
theorem test_kernel_bad_header : (match loadKernel (putField kernelBytes 4 2 0) 3 7 5 with | .error e => e | .ok _ => 0) = 0xFFF := by decide +kernel
/-- R188: a task whose kernel's object is not there ends its step with KERNEL_BAD at its dispatch. -/
theorem test_kernel_bad_dispatch :
    ((stepped (.dispatch 0) (st (readyTask { task5 with kernelObj := 7 } idleCoach))).ctx 32).lastCode = 0x0301 := by decide +kernel

/-! Ill-formed terms, at least one for each check of WellFormed, each with one operand just out of its range. -/

def slot0 : Slot := ⟨511, 7, true, false⟩
def order0 : OrderIn := ord .lead 255 (2 ^ 56 - 1) []
def dirEntry0 : DirEntry := ⟨131071, 63, 3, 0, 0, List.replicate 16 0⟩
def idle0 (w : LinkWord) : Instr := .idleWord 7 w 255
def ack0 (f : DomFrame) : Instr := .ack 3 f
def word0 : LinkWord := word 15
def dframe0 : DomFrame := frame6

/-- Register and field numbers of a bundle (R182, R189, R195, R197, R204, R206), and the slot itself. -/
theorem test_wf_bundle_refuses :
    ([.li ⟨512, 0, true, false⟩ 0 0, .li ⟨0, 8, true, false⟩ 0 0,
      .add slot0 64 0 0, .add slot0 0 64 0, .add slot0 0 0 64, .aadd slot0 16 0 0, .vadd slot0 32 0 0 0, .vadd slot0 0 0 0 4,
      .cmp slot0 8 0 0 0, .shift slot0 0 0 0 16, .maccv slot0 8 0 0, .maccv slot0 0 16 0, .mldw slot0 4 0 0, .mldw slot0 0 0 16,
      .send slot0 16 0, .vext slot0 0 0 64, .vcmp slot0 0 0 0 0 8, .vlogic slot0 0 0 0 128, .ucmd slot0 0 0 16 0 false,
      .ucmd slot0 0 0 0 4 false, .loop slot0 0 4096, .relay slot0 false 256, .csrr slot0 0 256, .csrw slot0 0 256,
      .accst slot0 0 0 4] : List Instr).all (fun i => !i.wf) = true := by decide +kernel

/-- Numbered things of the module. -/
theorem test_wf_numbers_refuse :
    ([.reply 131072, .dispatchArrival 512, .dispatch 8, .select 4, .turnBoundary 8, .hop 0 64, .objectReleaseComplete 4096 0,
      .objectReleaseComplete 0 4096, .tdbCtrl 4097 0, .copy 80 .fault, .readTurn 512 [], .writeCompletion 9, .pageHoldExpiry 67108864,
      .flr 0, .flr 257, .calibrationStep true 8 0, .calibrationStep false 24 0, .segmenterCommand 4,
      .loopbackLaneLock 16 true 0, .cageModulePlugged 12 0, .getCertificate 8, .debugChallenge 256, .powerInterval 65536 0 0,
      .powerInterval 0 65536 0, .powerInterval 0 0 65536, .refReturn 7, .refReturn 16, .portDown 8, .domainPcsLock 4 true true,
      .lost 8 0, .domainRto 131072, .allReduce 65536 0, .allReduce 0 256, .memRd 0 word0 562949953421312 0,
      .memRd 0 word0 0 8192] : List Instr).all (fun i => !i.wf) = true := by decide +kernel

/-- The parts of orders, link words, TRAIN words, frames, directory entries, commits, program turns and register writes. -/
theorem test_wf_parts_refuse :
    ([.locate (ord (.tenant 4096) 0 0 []), .locate (ord .lead 256 0 []), .locate (ord .lead 0 (2 ^ 56) []), .locate ⟨.lead, 0, 0, 0, []⟩,
      .train [⟨256, 0⟩], .train [⟨0, 65536⟩], .idleWord 0 word0 256, idle0 (word 16), idle0 { word0 with src := 8 },
      idle0 { word0 with dst := 8 }, idle0 { word0 with seq := 256 }, idle0 { word0 with id := 65536 }, idle0 { word0 with offset := 8192 },
      idle0 { word0 with payload := List.replicate 257 0 }, idle0 { word0 with ackSeq := 256 }, idle0 { word0 with ack := 4 },
      idle0 { word0 with credit := 64 }, idle0 { word0 with cycle := 65536 }, .trainWord 0 ⟨8, 0, 0, 0, 0, none⟩,
      .trainWord 0 ⟨0, 8, 0, 0, 0, none⟩, .trainWord 0 ⟨0, 0, 131072, 0, 0, none⟩, ack0 { dframe0 with etype := 65536 },
      ack0 { dframe0 with ver := 16 }, ack0 { dframe0 with count := 256 }, ack0 { dframe0 with src := 131072 },
      ack0 { dframe0 with dst := 131072 },
      ack0 { dframe0 with dest := 281474976710656 }, ack0 { dframe0 with kind := 16 }, ack0 { dframe0 with offset := 65536 },
      ack0 { dframe0 with rsvd02 := 65536 }, ack0 { dframe0 with rsvd04 := 32768 }, ack0 { dframe0 with rsvd08 := 32768 },
      ack0 { dframe0 with rsvd18 := 65536 }, .dirReport 0 dframe0 { dirEntry0 with module := 131072 },
      .dirReport 0 dframe0 { dirEntry0 with shard := 64 }, .dirReport 0 dframe0 { dirEntry0 with state := 4 },
      .dirReport 0 dframe0 { dirEntry0 with readers := List.replicate 17 0 }, .prepare ⟨8, 8, 0, .blocks 0 0 0 0⟩,
      .programTurn 0 (.program 9 0 0 true), .programTurn 0 (.program 0 4968 0 true), .programTurn 0 (.program 0 0 1536 true),
      .programTurn 0 (.erase 4968 true), .programTurn 0 (.collect 4968 0 0 true), .programTurn 0 (.collect 0 4968 0 true),
      .programTurn 0 (.collect 0 0 1536 true), .registerWrite ⟨none, 0, 0, 0⟩, .registerWrite ⟨none, 0, 9, 0⟩,
      .registerWrite ⟨none, 33554432, 8, 0⟩, .registerWrite ⟨some 4097, 0, 8, 0⟩, .registerWrite ⟨some 0, 65536, 8, 0⟩]
      : List Instr).all (fun i => !i.wf) = true := by decide +kernel

/-- The same operands at the ends of their ranges are well formed. -/
theorem test_wf_accepts_boundaries :
    ([.idleWord 7 word0 255, .add slot0 63 63 63, .aadd slot0 15 15 63, .vadd slot0 31 31 31 3, .cmp slot0 7 63 63 15, .maccv slot0 7 15 31,
      .mldw slot0 3 15 15, .loop slot0 63 4095, .reply 131071, .dispatch 7, .select 3, .hop 131071 63, .tdbCtrl 4096 0,
      .flr 1, .flr 256, .calibrationStep true 7 0, .calibrationStep false 23 0, .refReturn 0, .refReturn 8, .refReturn 15,
      .locate (ord .lead 255 (2 ^ 56 - 1) []), .ack 3 dframe0, .dirReport 3 dframe0 dirEntry0,
      .programTurn 511 (.collect 4967 4967 1535 true), .registerWrite ⟨some 4096, 65535, 8, 0⟩,
      .registerWrite ⟨none, 33554431, 1, 0⟩] : List Instr).all Instr.wf = true := by decide +kernel

end Sys2Proof.Tests
end

section
/-!
Proofs/Replies.lean: the fields that a record of little-endian numbers reads back, and from them the layout of a reply
record (R104, R106).
-/
namespace Sys2Proof.Machine

/-! ### Records of little-endian numbers (R7) -/

@[simp] theorem length_le (n v : Nat) : (le n v).length = n := by
  induction n generalizing v with
  | zero => rfl
  | succ n ih => simp [le, ih]

theorem unle_le (n v : Nat) : unle (le n v) = v % 256 ^ n := by
  induction n generalizing v with
  | zero => simp [le, unle, Nat.mod_one]
  | succ n ih =>
    have low : (BitVec.ofNat 8 v).toNat = v % 256 := BitVec.toNat_ofNat v 8
    rw [le, unle, ih, low, Nat.pow_succ', Nat.mod_mul]

/-- The field at the front of a record is the number written there, if the number fits the field. -/
theorem fieldAt_le_append {n v : Nat} (h : v < 256 ^ n) (ys : List Byte) : fieldAt (le n v ++ ys) 0 n = v := by
  have front : (le n v ++ ys).take n = le n v := List.take_left' (length_le n v)
  rw [fieldAt, List.drop_zero, front, unle_le, Nat.mod_eq_of_lt h]

/-- A field behind the first part of a record is a field of the rest. -/
theorem fieldAt_append_of_length_le {xs : List Byte} {off : Nat} (ys : List Byte) (n : Nat) (h : xs.length ≤ off) :
    fieldAt (xs ++ ys) off n = fieldAt ys (off - xs.length) n := by
  rw [fieldAt, fieldAt, List.drop_append, List.drop_eq_nil_of_le h, List.nil_append]

/-! ### The words of a reply record (R104, R106) -/

namespace Reply

/-- STATUS: attention summary, class and code (R106). -/
def statusWord (r : Reply) (attn : Byte) : Nat := attn.toNat * 2 ^ 24 + r.cls * 2 ^ 16 + r.code.toNat

/-- OUTBUF, LAST and CONTEXT. -/
def contextWord (r : Reply) : Nat := (if r.outbuf then 2 ^ 25 else 0) + (if r.last then 2 ^ 24 else 0) + r.ctx

/-- STEP and SEQ. -/
def stepWord (r : Reply) : Nat := r.step * 2 ^ 16 + r.seq % 2 ^ 16

/-- AUX and PLEN, both saturating. -/
def auxWord (r : Reply) : Nat := min r.aux 0xFFFFFF * 256 + min r.payload.length 32

/-- CYCLES of a reply that takes its slot at `now`. -/
def cycles (r : Reply) (now : Nat) : Nat :=
  match r.admitAt with
  | some a => min ((now - a) / 1024) 0xFFFFFFFF
  | none => 0

/-- The 32 bytes of PAYLOAD. -/
def payloadArea (r : Reply) : List Byte := (r.payload ++ List.replicate 32 0).take 32

/-- PHASE above 31 reserved bits. -/
def phaseWord (phase : Bool) : Nat := if phase then 2 ^ 31 else 0

theorem bytes_eq (r : Reply) (attn : Byte) (now : Nat) (phase : Bool) :
    r.bytes attn now phase =
      le 4 (r.statusWord attn) ++ (le 4 r.contextWord ++ (le 8 r.tag.toNat ++ (le 4 r.stepWord ++ (le 4 r.auxWord ++
        (r.payloadArea ++ (le 4 (r.cycles now) ++ le 4 (phaseWord phase))))))) := by
  simp only [← List.append_assoc]
  rfl

@[simp] theorem length_payloadArea (r : Reply) : r.payloadArea.length = 32 := by
  simp [payloadArea]

theorem take_payloadArea (r : Reply) (h : r.payload.length ≤ 32) : r.payloadArea.take r.payload.length = r.payload := by
  rw [payloadArea, List.take_take, Nat.min_eq_left h, List.take_left]

/-! Each word fits its field, so that reading the field loses nothing of it. -/

theorem statusWord_lt (r : Reply) (attn : Byte) (h : r.cls < 2 ^ 8) : r.statusWord attn < 256 ^ 4 := by
  have hattn := attn.isLt
  have hcode := r.code.isLt
  unfold statusWord
  omega

theorem contextWord_lt (r : Reply) (h : r.ctx < 2 ^ 17) : r.contextWord < 256 ^ 4 := by
  unfold contextWord
  split <;> split <;> omega

theorem stepWord_lt (r : Reply) (h : r.step < 2 ^ 6) : r.stepWord < 256 ^ 4 := by
  unfold stepWord
  omega

theorem auxWord_eq (r : Reply) (haux : r.aux < 2 ^ 24) (hlen : r.payload.length ≤ 32) :
    r.auxWord = r.aux * 2 ^ 8 + r.payload.length := by
  unfold auxWord
  omega

theorem auxWord_lt (r : Reply) : r.auxWord < 256 ^ 4 := by
  unfold auxWord
  omega

theorem cycles_lt (r : Reply) (now : Nat) : r.cycles now < 256 ^ 4 := by
  unfold cycles
  split <;> omega

theorem phaseWord_lt (phase : Bool) : phaseWord phase < 256 ^ 4 := by
  cases phase <;> decide

/-! ### The fields of a reply record -/

section Fields
variable (r : Reply) (attn : Byte) (now : Nat) (phase : Bool)

theorem length_bytes : (r.bytes attn now phase).length = 64 := by
  simp [bytes_eq]

theorem fieldAt_status (h : r.cls < 2 ^ 8) : fieldAt (r.bytes attn now phase) 0x00 4 = r.statusWord attn := by
  rw [bytes_eq, fieldAt_le_append (r.statusWord_lt attn h)]

theorem fieldAt_context (h : r.ctx < 2 ^ 17) : fieldAt (r.bytes attn now phase) 0x04 4 = r.contextWord := by
  simp [bytes_eq, fieldAt_append_of_length_le, fieldAt_le_append (r.contextWord_lt h)]

theorem fieldAt_tag : fieldAt (r.bytes attn now phase) 0x08 8 = r.tag.toNat := by
  have hlt : r.tag.toNat < 256 ^ 8 := r.tag.isLt
  simp [bytes_eq, fieldAt_append_of_length_le, fieldAt_le_append hlt]

theorem fieldAt_step (h : r.step < 2 ^ 6) : fieldAt (r.bytes attn now phase) 0x10 4 = r.stepWord := by
  simp [bytes_eq, fieldAt_append_of_length_le, fieldAt_le_append (r.stepWord_lt h)]

theorem fieldAt_aux : fieldAt (r.bytes attn now phase) 0x14 4 = r.auxWord := by
  simp [bytes_eq, fieldAt_append_of_length_le, fieldAt_le_append r.auxWord_lt]

theorem take_drop_bytes_payload (h : r.payload.length ≤ 32) :
    ((r.bytes attn now phase).drop 0x18).take r.payload.length = r.payload := by
  have area : r.payload.length ≤ r.payloadArea.length := by simpa using h
  simp [bytes_eq, List.drop_append, List.drop_eq_nil_of_le, List.take_append_of_le_length area, r.take_payloadArea h]

theorem fieldAt_cycles : fieldAt (r.bytes attn now phase) 0x38 4 = r.cycles now := by
  simp [bytes_eq, fieldAt_append_of_length_le, fieldAt_le_append (r.cycles_lt now)]

theorem fieldAt_phase : fieldAt (r.bytes attn now phase) 0x3C 4 = phaseWord phase := by
  have last : fieldAt (le 4 (phaseWord phase)) 0 4 = phaseWord phase := by
    simpa using fieldAt_le_append (phaseWord_lt phase) []
  simp [bytes_eq, fieldAt_append_of_length_le, last]

end Fields

end Reply

/-- Settles O10: the record is the concatenation of its words (`Reply.bytes_eq`), and every word fits its field. -/
theorem replyRecordLayout : Obligations.ReplyRecordLayout := by
  intro r attn now phase hcls hctx hstep haux hlen
  exact ⟨r.length_bytes attn now phase, r.fieldAt_status attn now phase hcls, r.fieldAt_context attn now phase hctx,
    r.fieldAt_tag attn now phase, r.fieldAt_step attn now phase hstep,
    (r.fieldAt_aux attn now phase).trans (r.auxWord_eq haux hlen), r.take_drop_bytes_payload attn now phase hlen,
    r.fieldAt_cycles attn now phase, r.fieldAt_phase attn now phase⟩

end Sys2Proof.Machine
end
